-- ==== Sys2Proof/Word.lean ====
section
/-! DEFINITION. The word types of the KP-8 and the sparse tables the state is made of. -/

namespace Sys2Proof

/-- One byte of a memory, a message or a descriptor (R13: little-endian, byte addressed). -/
abbrev Byte := BitVec 8

/-- A 64-bit scalar register or a 64-bit host register (R12, R246). -/
abbrev Word := BitVec 64

/-- One 32-bit vector lane, FP32 value or micro-program register (R246, R327). -/
abbrev Lane := BitVec 32

/-- A sparse table: pairs of a number and a value, in strictly ascending number.
A number that is not listed has the default value that the reader of the table names. -/
abbrev Tab (α : Type) := List (Nat × α)

end Sys2Proof
end

