-- ==== Sys2Proof/Config.lean ====
section
/-! DEFINITION. What one module's fuses and one implementation fix, and the free values: constants without a body, so
that nothing can be proved of their values. Log entry 2 names every use. -/

namespace Sys2Proof.Config

/-- A value the spec leaves open, by the count of values drawn before it (log entry 2). -/
opaque freeValue : Nat → Nat

/-- The random number generator of the module, by the count of values drawn before it: pool and model keys (R367, R444). -/
opaque random : Nat → Nat

/-- Ersovik's P-384 public key, x then y, whose digest is fused (R558). -/
opaque ersovikKey : List Byte

/-- Fused voltage of a compute die's point, in mV: die and point (R507). -/
opaque fusedMv : Nat → Nat → Nat

/-- How far the fused energy ratios of FP8 and FP4 stand above the lower ends of their ranges, in 1/64 (R510). -/
opaque fusedRatio8 : Nat
opaque fusedRatio4 : Nat

/-- The fused counter model of a compute die at the loads, in 1/8 W: die, point, hottest sensor in 1/16 °C and the counts (R510). -/
opaque dieModel : Nat → Nat → Int → List Nat → Nat

/-- The part of a die's model that its ceiling does not move, in 1/8 W (R514, R529). -/
opaque dieFixed : Nat → Nat

/-- The remaining terms of the estimate at the loads, in 1/8 W, from the counts (R510). -/
opaque restModel : List Nat → Nat

/-- P_fixed, in 1/8 W of input power (R514). -/
opaque fixedPower : Nat

/-- What a filling core of a die draws, in mA less one (R525). -/
opaque fillerMa : Nat → Nat

/-- The functions of the G2 library in a Function Unit that has no library bank loaded with a record of them: function,
variant (0 normal, 1 K1) and operand (R318, R322; log entry 23). -/
opaque contractFn : Nat → Nat → Lane → Lane

/-- The contract minor that a Supervisor image of a version implements (R143, R563). -/
opaque imageMinor : Nat → Nat

/-- The number of items and the bytes of a section of a dump whose content the state does not give: its kind and a count of draws
(R557). -/
opaque dumpSection : Nat → Nat → Nat × List Byte

/-- How an item of a section of a dump lays out its content: the section's kind and what the item holds (R557). -/
opaque dumpItem : Nat → List Nat → List Byte

/-- What the Expansion stage makes of the weight data stored at an address, for a reader other than WLOAD: the key of a protected range,
the bytes of device memory and the address (R215, R444). -/
opaque expanded : Option (List Byte) → List Host.Cell → Nat → Byte

end Sys2Proof.Config
end

