-- ==== Sys2Proof/Syntax.lean ====
section
/-! DEFINITION. The commands of the KP-8 block: one constructor of `Instr` for each row of the table of operations and events. -/

namespace Sys2Proof

/-- An access from one master through one host port (R27, R103, R105): the identity hardware stamps on it,
and the port it arrives through (0 port A, 1 port B; not looked at for a master that is not a host function). -/
structure Access where
  master : Nat
  port   : Nat
deriving DecidableEq, Repr

/-- Who sent a command (R147): a host function on channel 2f, the BMC on channel 522, or function f of the
pod head through the fabric relay (R157). -/
inductive Sender where
  | host (f : Nat)
  | bmc
  | relay (f : Nat)
  /-- A function whose FLR discards what is still due to it (R124); no command comes from it. -/
  | gone
deriving DecidableEq, Repr

/-- The fields of a command's message header that its checks and its answers use (R144). -/
structure CmdHdr where
  sender : Sender
  tag    : Nat
  major  : Nat
  minor  : Nat
  target : Nat
deriving DecidableEq, Repr

/-- A host buffer reference (R146). -/
structure Hbuf where
  addr   : Nat
  length : Nat
  pasid  : Option Nat
deriving DecidableEq, Repr

/-- What a read of a source outside the module's stores brought: bytes, a failed host access with the cause and
the completion status of R571, or a poisoned unit (R365). -/
inductive HostData where
  | ok (bytes : List Byte)
  | failed (cause status : Nat)
  | poisoned
deriving DecidableEq, Repr

/-- A request for a line that reaches the directory (R107): 0 for ownership, 1 an upgrade of a shared copy, 2 for a shared copy (log
entry 96); and the line as the requester's stores leave it, where it then stores to it. -/
structure OwnRequest where
  core  : Nat
  kind  : Nat
  store : Option (List Byte)
deriving DecidableEq, Repr

/-- What VMAIN carries in millivolts, and whether the loop of MAIN_SENSE is closed (R43). -/
structure MainInput where
  mv    : Nat
  sense : Bool
deriving DecidableEq, Repr

/-- A host port whose link goes down, and how many of its latest posted writes are lost with it (R135, R571). -/
structure LinkLoss where
  port : Nat
  lost : Nat
deriving DecidableEq, Repr

/-- A read of a channel's lock register: the channel, and the bytes of the register that are read (R12, R119). -/
structure LockRead where
  channel : Nat
  off     : Nat
  size    : Nat
deriving DecidableEq, Repr

/-- What an adoption's audit found: whether a rebuild can reconcile the tables with the hardware, and the books out of balance (R114, R551). -/
structure AdoptionAudit where
  consistent : Bool
  found      : List (Nat × Nat)
deriving DecidableEq, Repr

/-- An eviction notice of a core for a line (R108, R109): sent, or reaching the directory, with the line's data where it was
modified. -/
structure LineNotice where
  core     : Nat
  modified : Bool
  data     : List Byte
  arrives  : Bool
deriving DecidableEq, Repr

/-- A range-table entry (R215), its attributes as single bits. -/
structure RangeEntry where
  vaBase : Nat
  length : Nat
  target : Nat
  kind   : Nat
  perms  : Nat
  attrs  : Nat
deriving DecidableEq, Repr

/-- A KV_OFFER's operands (R168, R379). -/
structure KvOfferReq where
  ctag     : Nat
  toCtag   : Nat
  pool     : Nat
  sequence : Nat
  offer    : Nat
deriving DecidableEq, Repr

/-- The Phoger commands with their payloads (R167, R168). -/
inductive Command where
  | capsQuery (first : Nat)
  | settingRead (id : Nat)
  | settingWrite (id value : Nat)
  | sitekeyEnrol (action : Nat) (key signature : List Byte)
  | sitelayerWrite (source : Hbuf)
  | moduleSuspend
  | moduleResume
  | moduleStop
  | moduleStart
  | moduleReset (kind : Nat)
  | dieReset (die : Nat)
  | memGrant (function base length : Nat)
  | memRevoke (function base length : Nat)
  | ctxCreate (homePort compat : Nat) (pasid : Option Nat) (tableBase : Nat)
  | ctxDestroy (ctag : Nat)
  | rangeMap (ctag firstIndex : Nat) (entries : List RangeEntry)
  | rangeInvalidateAll (ctag : Nat)
  | keySlotSet (ctag : Nat) (key : List Byte)
  | stepResume (ctag queue stepIndex : Nat)
  | stepAbort (ctag queue stepIndex : Nat)
  | qgroupAssign (group ctag function vfPage : Nat)
  | qgroupRelease (group : Nat)
  | queueConfigure (queue cls log2Entries ringVa : Nat)
  | programLoad (ctag sourceVa length : Nat)
  | programUnload (ctag program : Nat)
  | poolCreate (pool log2Block tier base length : Nat)
  | poolDestroy (pool : Nat)
  | kvOffer (action : Nat) (r : KvOfferReq)
  | kvAccept (ctag offer newSequence : Nat)
  | kvHint (ctag pool hint sequence : Nat)
  | epochBegin (model epoch : Nat) (source : Hbuf)
  | epochCommit (model epoch : Nat)
  | epochAbort (model epoch : Nat)
  | adapterLoad (ctag adapter rank epoch sourceVa length : Nat)
  | adapterUnload (ctag adapter : Nat)
  | placementApply (model : Nat) (source : Hbuf)
  | planLoad (source : Hbuf)
  | portDefine (port linkMask : Nat)
  | portRemove (port : Nat)
  | podStateSet (podState : Nat)
  | capSet (cap : Nat)
  | matchedSet (matched : Nat)
  | logRead (first count : Nat)
  | dumpRegionSet (region : Hbuf)
  | fwStage (source : Hbuf)
  | fwActivate
deriving DecidableEq, Repr

/-- A unit that takes the power states of R67 and R68, or that R541 retires. Numbers are those of R18, R233 and R548. -/
inductive UnitRef where
  | core (n : Nat)
  | slice (die s : Nat)
  | die (d : Nat)
  | quad (die q : Nat)
  | engine (die idx : Nat)
  | channel (half ch : Nat)
  | half (h : Nat)
  | rowBlock (die slice row : Nat)
  | laneGroup (edge dir group : Nat)
  | edge (e : Nat)
  | link (l : Nat)
  | ioDie (i : Nat)
deriving DecidableEq, Repr

/-- The power states of R67 and R68. -/
inductive UnitState where
  | active
  | gated
  | retain
  | off
deriving DecidableEq, Repr

/-- A function record of a micro-program library (R332). -/
structure FuncRec where
  id      : Nat
  variant : Nat
  steps   : Nat
  first   : Nat
  constPg : Nat
  tables  : List Nat
deriving DecidableEq, Repr

/-- A micro-program library as loaded (R331, R332): step words and pages of 1,024 words. -/
structure Library where
  version  : Nat
  gateSlot : Nat
  funcs    : List FuncRec
  words    : List Lane
  pages    : List (List Lane)
deriving DecidableEq, Repr

/-- An entry of a compatibility manifest (R559). -/
structure ManifestEntry where
  kind    : Nat
  partner : Nat
  min     : Nat
  max     : Nat
deriving DecidableEq, Repr

/-- One image of an image set (R558). -/
structure ImageRec where
  kind     : Nat
  version  : Nat
  manifest : List ManifestEntry
deriving DecidableEq, Repr

/-- An image set as the Supervisor knows it after reading it (R558), with the library it carries. -/
structure ImageSet where
  setVersion : Nat
  security   : Nat
  floorRaise : Bool
  images     : List ImageRec
  library    : Option Library
  minor      : Nat
  sigOk      : Bool
deriving DecidableEq, Repr

/-- A site layer (R95): its header's bound serial and version, and its entries. -/
structure SiteLayer where
  version : Nat
  serial  : Nat
  entries : List (Nat × Nat)
deriving DecidableEq, Repr

/-- What the work of a start-up phase found (R84): election, flash images, units that failed training or self-test,
links trained and the other I/O die. Each phase looks only at the fields that concern it. -/
structure PhaseReport where
  iaPass      : Bool
  ibPass      : Bool
  failedUnits : List UnitRef
  trained     : List Nat
  otherOk     : Bool
deriving DecidableEq, Repr

/-- The core a slot operation issues on, its predicate (R246), and whether another slot of the same bundle follows. -/
structure SlotCtx where
  core : Nat
  pred : Nat
  pneg : Bool
  more : Bool
deriving DecidableEq, Repr

/-- One Function Unit lane: die, instance and lane number (R312). -/
structure FuLane where
  die  : Nat
  inst : Nat
  lane : Nat
deriving DecidableEq, Repr

/-- The identity record of a link end (R469). -/
structure IdentRec where
  serial      : Nat
  podId       : Nat
  planVersion : Nat
  device      : Nat
  link        : Nat
  rackPos     : Nat
  major       : Nat
  minor       : Nat
  lowest      : Nat
  isHead      : Bool
deriving DecidableEq, Repr

/-- What a writer of another member, or a lane of this one, is checked by (R263, R420): the owning function, CTAG, key,
layer, bound weight epoch and placement version. -/
structure SeMatch where
  function : Nat
  ctag     : Nat
  key      : Nat
  layer    : Nat
  epoch    : Nat
  version  : Nat
deriving DecidableEq, Repr

/-- A grant from a member for one sub-step (R421). -/
structure GrantMsg where
  m       : SeMatch
  subStep : Nat
  granter : Nat
  dest    : Nat
deriving DecidableEq, Repr

/-- A slot write (R423): source member, lane, the queue of a local index, the slot index, and its bytes. -/
structure SlotWrite where
  m      : SeMatch
  source : Nat
  lane   : Nat
  sub    : Nat
  local_ : Nat
  slot   : Nat
  expert : Nat
  bytes  : List Byte
  tag      : Nat
deriving DecidableEq, Repr

/-- A lane's report of a sub-step (R425). -/
structure LaneReport where
  m      : SeMatch
  source : Nat
  lane   : Nat
  sub    : Nat
  spill  : Nat
  tag      : Nat
deriving DecidableEq, Repr

/-- A returned output row (R430). -/
structure ReturnRow where
  m      : SeMatch
  source : Nat
  expert : Nat
  handle : Nat
  bytes  : List Byte
  tag      : Nat
deriving DecidableEq, Repr

/-- A remote GATHER entry as its holder receives it (R377). -/
structure GatherReq where
  requester : Nat
  function  : Nat
  ctag      : Nat
  handle    : Nat
  offset    : Nat
  span      : Nat
  tag       : Nat
deriving DecidableEq, Repr

/-- A mode 1 SEND as its destination receives it (R493). -/
structure RemoteWrite where
  source   : Nat
  function : Nat
  ctag     : Nat
  dstVa    : Nat
  bytes    : List Byte
  tag      : Nat
deriving DecidableEq, Repr

/-- A chunk of a reduce stream (R494, R495): its bytes, and the sender's tag for the acknowledgement. -/
structure ReduceChunk where
  source   : Nat
  function : Nat
  ctag     : Nat
  key      : Nat
  die      : Nat
  inst     : Nat
  bytes    : List Byte
  last     : Bool
  tag      : Nat
deriving DecidableEq, Repr

/-- A pod barrier arrival or release, or a device-local one, in flight (R265, R267). `level` is 0 from a core to its
die's combiner, 1 from a die to the root die, 2 from a device to the pod root. -/
structure BarrierMsg where
  function : Nat
  ctag     : Nat
  key      : Nat
  barrier  : Nat
  phase    : Nat
  level    : Nat
  die      : Nat
  source   : Nat
deriving DecidableEq, Repr

/-- A signal in flight (R261): its sender's step and its target, the pod-wide object number (R18), and the value. -/
structure SignalMsg where
  device   : Nat
  function : Nat
  ctag     : Nat
  queue    : Nat
  step     : Nat
  sender   : Nat
  object   : Nat
  value    : Nat
deriving DecidableEq, Repr

/-- The five mirrored fields of a member's queue entry (R204). -/
structure Mirror where
  completed : Nat
  consumed  : Nat
  status    : Nat
  fault     : Nat
  epoch     : Nat
deriving DecidableEq, Repr

/-- A sensor reading of the telemetry refresh (R131, R537): mean and peak input power in W, input current in 10 mA,
energy added in mJ. -/
structure Telemetry where
  meanW    : Nat
  peakW    : Nat
  imain    : Nat
  energyMj : Nat
  dieW     : List Nat
deriving DecidableEq, Repr

/-- A regulator command as the guard sees it (R508). -/
inductive RegCmd where
  | setRail (mv : Nat)
  | namePoint (p : Nat)
  | setLimit (value : Nat)
deriving DecidableEq, Repr

/-- The block in which an uncorrectable error is detected (R540). -/
inductive ErrSite where
  | coreStore (core offset : Nat)
  | coreControl (core : Nat)
  | matrixStore (core : Nat)
  | commons (die slice row : Nat)
  | engineOperand (die idx : Nat)
  | engineControl (die idx : Nat)
  | sideEntry (die idx entry : Nat)
  | libraryBank (die inst bank : Nat)
  | memoryUnit (unit : Nat)
  | kvRecord (pool record : Nat)
  | l2
  | journal (both : Bool)
  | powerController
  | alwaysOn (share : Nat)
  | transit (die : Nat)
deriving DecidableEq, Repr

/-- The commands of the block: one constructor per row of spec/opcode_table.json. -/
inductive Instr where
  -- power path, sideband pins, always-on domain
  | pwrfailNAssert
  | pwrfailNDeassert
  | mainCeasesGood (mv : Nat)
  | mainGood (mv : Nat)
  | mainSenseBreak
  | hotSwapOvervoltage (mv : Nat)
  | hotSwapOvercurrent (peakMa : Nat)
  | hotSwapReclose (remade : Bool) (mv : Nat)
  | drainComplete
  | drainForced
  | retainExit
  | mainAbsentInRetain
  | standbyModuleStart
  | holdupExpired
  | vauxCeasesGood (mv : Nat)
  | vauxGoodAgain (mv : Nat)
  | perstAssert (port : Nat)
  | hostPortLinkDown (loss : LinkLoss)
  | hostPortLinkUp (port : Nat)
  | alwaysOnPowerOn (main : MainInput) (vauxMv rackPos : Nat)
  | startPhaseEnd (r : PhaseReport)
  | startPhaseTimeout
  | keeperHeartbeat
  | leadShareTakeover
  | timebaseTick
  | coreClockSwitch (die : Nat)
  | idleDemoteGated (core : Nat)
  | wakeComplete (u : UnitRef)
  | powerStateOrder (u : UnitRef) (target : UnitState)
  -- Phoger commands
  | capsQuery (h : CmdHdr) (first : Nat)
  | settingRead (h : CmdHdr) (id : Nat)
  | settingWrite (h : CmdHdr) (id value : Nat)
  | sitekeyEnrol (h : CmdHdr) (key signature : List Byte)
  | sitekeyRemove (h : CmdHdr) (token : List Byte)
  | sitelayerWrite (h : CmdHdr) (source : Hbuf)
  | sitelayerWriteCheck (item : Nat) (data : HostData)
  | moduleSuspend (h : CmdHdr)
  | moduleResume (h : CmdHdr)
  | moduleStop (h : CmdHdr)
  | moduleStart (h : CmdHdr)
  | moduleResetModule (h : CmdHdr)
  | moduleResetCold (h : CmdHdr)
  | dieReset (h : CmdHdr) (die : Nat)
  | dieResetComplete (die : Nat)
  | memGrant (h : CmdHdr) (function base length : Nat)
  | memRevoke (h : CmdHdr) (function base length : Nat)
  | revokeZeroingEnd (base : Nat)
  | ctxCreate (h : CmdHdr) (homePort compat : Nat) (pasid : Option Nat) (tableBase : Nat)
  | ctxDestroy (h : CmdHdr) (ctag : Nat)
  | ctxDestroyComplete (ctag : Nat)
  | rangeMap (h : CmdHdr) (ctag firstIndex : Nat) (entries : List RangeEntry)
  | rangeInvalidateAll (h : CmdHdr) (ctag : Nat)
  | invalidationCommit (ctag : Nat)
  | keySlotSet (h : CmdHdr) (ctag : Nat) (key : List Byte)
  | stepResume (h : CmdHdr) (ctag queue stepIndex : Nat)
  | stepAbort (h : CmdHdr) (ctag queue stepIndex : Nat)
  | stepAbortComplete (queue stepIndex : Nat)
  | qgroupAssign (h : CmdHdr) (group ctag function vfPage : Nat)
  | qgroupRelease (h : CmdHdr) (group : Nat)
  | queueConfigure (h : CmdHdr) (queue cls log2Entries ringVa : Nat)
  | programLoad (h : CmdHdr) (ctag sourceVa length : Nat)
  | programLoadCheck (item : Nat) (data : HostData)
  | programUnload (h : CmdHdr) (ctag program : Nat)
  | poolCreate (h : CmdHdr) (pool log2Block tier base length : Nat)
  | poolDestroy (h : CmdHdr) (pool : Nat)
  | kvOffer (h : CmdHdr) (r : KvOfferReq)
  | kvOfferCancel (h : CmdHdr) (r : KvOfferReq)
  | kvAccept (h : CmdHdr) (ctag offer newSequence : Nat)
  | kvHint (h : CmdHdr) (ctag pool hint sequence : Nat)
  | epochBegin (h : CmdHdr) (model epoch : Nat) (source : Hbuf)
  | epochCommit (h : CmdHdr) (model epoch : Nat)
  | epochCommitCheck (item : Nat) (data : HostData)
  | switchReceive (model epoch : Nat)
  | epochAbort (h : CmdHdr) (model epoch : Nat)
  | adapterLoad (h : CmdHdr) (ctag adapter rank epoch sourceVa length : Nat)
  | adapterLoadCheck (item : Nat) (data : HostData)
  | adapterEpochDrop (adapter : Nat)
  | adapterUnload (h : CmdHdr) (ctag adapter : Nat)
  | placementApply (h : CmdHdr) (model : Nat) (source : Hbuf)
  | placementApplyInstall (item : Nat) (data : HostData) (lost : Bool)
  | planLoad (h : CmdHdr) (source : Hbuf)
  | planReceive (data : HostData) (headOffset : Int)
  | planCommit (shift : Nat)
  | planLoadComplete (item : Nat)
  | portDefine (h : CmdHdr) (port linkMask : Nat)
  | portRemove (h : CmdHdr) (port : Nat)
  | podStateSet (h : CmdHdr) (podState : Nat)
  | podStateReceive (podState : Nat)
  | capSet (h : CmdHdr) (cap : Nat)
  | matchedSet (h : CmdHdr) (matched : Nat)
  | logRead (h : CmdHdr) (first count : Nat)
  | dumpRegionSet (h : CmdHdr) (region : Hbuf)
  | fwStage (h : CmdHdr) (source : Hbuf)
  | fwStageComplete (item : Nat) (data : HostData)
  | libraryBankWrite
  | fwActivate (h : CmdHdr)
  | fwActivateHandover
  -- mailboxes, registers, host interface
  | lockClaim (a : Access) (read : LockRead)
  | mbxSend (a : Access) (channel : Nat)
  | mbxTake (a : Access) (channel : Nat)
  | mbxDone (a : Access) (channel : Nat)
  | mbxWithdraw (a : Access) (channel : Nat)
  | lockRelease (a : Access) (channel : Nat)
  | registerWrite (a : Access) (bar offset size value : Nat)
  | msixUnmask (function : Nat) (vector : Option Nat)
  | supervisorTakeMessage
  | replyDelivery (dest : Sender)
  | forwardedCommandReceive (function : Nat) (message : List Byte)
  | forwardedReplyReceive (member function : Nat) (message : List Byte)
  | bmcMctpMessage (message : List Byte)
  | flr (function : Nat)
  | tdiError (vf : Nat)
  -- queues, dispatch and completion
  | doorbellWrite (a : Access) (page entry value : Nat)
  | podWindowDoorbell (a : Access) (member page entry value : Nat)
  | relayForward (member : Nat)
  | forwardedDoorbellReceive (master queue value ioDie : Nat)
  | relayCreditReturn (member : Nat)
  | mirrorUpdate (member queue : Nat) (m : Mirror)
  | dispatchRound
  | idleSlotHandover (queue : Nat)
  | classPromotion (queue stepIndex : Nat)
  | descriptorReadComplete (queue : Nat) (data : HostData)
  | stepLaunch (queue stepIndex : Nat)
  | victimRelaunch (queue stepIndex : Nat)
  | coreEndReport (core : Nat)
  -- translation and host memory
  | rangeWalkComplete (unit : Nat)
  | heldRecordFlush (function : Nat)
  | hostReadCompletion (id status : Nat) (poisoned : Bool) (bytes : List Byte)
  | hostCompletionTimeout (id : Nat)
  | atsTranslationCompletion (port pasid page status target : Nat)
  | atsInvalidationRequest (port pasid page pages : Nat)
  | fetchComplete (core : Nat)
  -- memory slot
  | lds (c : SlotCtx) (dst base space size : Nat) (sext : Bool) (offset : Int)
  | sts (c : SlotCtx) (src base space size : Nat) (offset : Int)
  | ldv (c : SlotCtx) (dst base space : Nat) (offset : Int)
  | stv (c : SlotCtx) (src base space : Nat) (offset : Int)
  | ldvs (c : SlotCtx) (dst base esize stride offset : Nat)
  | ldt (c : SlotCtx) (dst src esize spitch dpitch : Nat)
  | flush (c : SlotCtx)
  | fence (c : SlotCtx)
  | touch (c : SlotCtx) (base : Nat) (offset : Int)
  -- control slot
  | alu (c : SlotCtx) (fn dst a b : Nat) (useImm : Bool) (imm : Int)
  | li (c : SlotCtx) (dst part : Nat) (keep : Bool) (imm16 : Nat)
  | cmp (c : SlotCtx) (pdst cond a b : Nat) (useImm : Bool) (imm : Nat)
  | br (c : SlotCtx) (link target : Nat) (indirect : Bool) (offset : Int)
  | loop (c : SlotCtx) (lc count : Nat) (useImm : Bool) (endOff countImm : Nat)
  | signal (c : SlotCtx) (handle bank whr x value : Nat)
  | wait (c : SlotCtx) (handle mode x : Nat) (useImm : Bool) (imm : Nat)
  | setc (c : SlotCtx) (handle x : Nat) (useImm : Bool) (imm : Nat)
  | arrive (c : SlotCtx) (handle : Nat)
  | enq (c : SlotCtx) (engine inst x len : Nat)
  | safept (c : SlotCtx) (liveSet : Nat)
  | endPart (c : SlotCtx)
  | rdid (c : SlotCtx) (dst which word : Nat)
  -- synchronisation and gather buffer
  | signalApply (k : Nat)
  | barrierArrival (k : Nat)
  | barrierReleaseReceive (die : Nat) (m : BarrierMsg)
  | gatherBufferWriteback (core line : Nat)
  -- matrix slot
  | mldw (c : SlotCtx) (base sbase fmt : Nat) (scaled transp : Bool) (kc pitch ncols kvalid : Nat)
  | mmul (c : SlotCtx) (abase asbase afmt : Nat) (ascaled swap zero : Bool) (apitch acc rows : Nat)
  | mst (c : SlotCtx) (dbase acc ofmt : Nat) (clear : Bool) (dpitch rows : Nat)
  | mzero (c : SlotCtx) (acc rows : Nat)
  -- vector slot
  | varith (c : SlotCtx) (vd va vb fn : Nat)
  | vfma (c : SlotCtx) (vd va vb vc fn : Nat)
  | vcmp (c : SlotCtx) (vd va vb fn : Nat)
  | vsel (c : SlotCtx) (vd va vb vc : Nat)
  | vred (c : SlotCtx) (vd va fn : Nat)
  | vcvt (c : SlotCtx) (vd va fn half : Nat)
  | vcvtmx (c : SlotCtx) (vd va vb vc fn : Nat)
  | vacc (c : SlotCtx) (vd fn acc : Nat)
  | vmov (c : SlotCtx) (vd : Nat) (imm : Lane)
  -- Function Units and micro-programs
  | fuElementwise (die inst : Nat)
  | fuFusedGate (die inst : Nat)
  | fma (u : FuLane) (d a b c : Nat) (negProd negAdd noAdd : Bool)
  | ldc (u : FuLane) (d index : Nat)
  | rred (u : FuLane) (d a c k : Nat)
  | tlu (u : FuLane) (d a t shift w : Nat)
  | horn (u : FuLane) (d a n k : Nat)
  | fld (u : FuLane) (d a b fn sh : Nat)
  | csel (u : FuLane) (d a b c : Nat) (bConst : Bool) (cond index : Nat)
  | microEnd (u : FuLane) (a : Nat)
  | libraryBankRewrite (die inst bank : Nat)
  -- Row Statistics Units
  | rowUpdate (die inst : Nat)
  | rowNormalise (die inst : Nat)
  | rowMerge (die inst : Nat)
  | moments (die inst : Nat)
  | normApply (die inst : Nat)
  -- Sampling Engine
  | sampleRows (die : Nat)
  | verifyDrafts (die : Nat)
  -- Scatter Engine
  | queueOpen (die inst : Nat)
  | scatter (die inst : Nat)
  | queueReleaseNext (die inst : Nat)
  | queueReleaseClose (die inst : Nat)
  | returnRows (die inst : Nat)
  | grantReceive (g : GrantMsg)
  | grantResend (k : Nat)
  | slotWriteReceive (w : SlotWrite)
  | reportReceive (r : LaneReport)
  | returnRowReceive (r : ReturnRow)
  -- Movers and Reducers
  | gather (die mover : Nat)
  | remoteGatherRequest (r : GatherReq)
  | put (die mover : Nat)
  | alloc (die mover : Nat)
  | free (die mover : Nat)
  | share (die mover : Nat)
  | gate (die mover : Nat)
  | wload (die mover : Nat)
  | sendRemoteWrite (die mover : Nat)
  | sendReduceStream (die mover : Nat)
  | remoteWriteReceive (w : RemoteWrite)
  | reduce (die inst : Nat)
  | reduceChunkReceive (c : ReduceChunk)
  -- memory upkeep
  | frameScrub (pool : Nat)
  | tierMoveBegin (pool record : Nat)
  | tierMoveCommit (pool record : Nat)
  | staleSweep (pool : Nat)
  | patrolScrub (unit : Nat)
  -- weight distribution and swap
  | weightFrameReceive (model shard frame crc : Nat) (bytes : List Byte)
  | frameRequestTimeout (model shard frame : Nat)
  | frameRequestReceive (source model shard frame : Nat)
  | frameRequestRound (model : Nat)
  | layerCopy (model : Nat)
  | layerCommit (model : Nat)
  | podLayerCommit (model : Nat)
  -- fabric
  | linkTrainingStageEnd (link : Nat)
  | linkRetrain (link cause : Nat)
  | linkRetryTimer (link : Nat)
  | identityRecordReceive (link : Nat) (r : IdentRec)
  | flitReceive (link : Nat) (flit : List Byte)
  | nakReceive (link ack : Nat)
  | creditAuditReceive (link : Nat) (occupancy : List Nat)
  | forwardStoredMessage (hop index : Nat)
  | noRouteDiscard (hop index : Nat)
  | heartbeatSend
  | heartbeatReceive (member podId : Nat)
  | memberHeartbeatTimeout (member : Nat)
  | timeRequestSend (t1 : Nat)
  | timeRequestReceive (member t1 t2 t3 : Nat)
  | timeResponseReceive (t1 t2 t3 t4 : Nat) (parentOffset : Int)
  | timeResponseTimeout
  -- power control
  | limiterInterval (activity : List Nat)
  | allowanceWindowStart (core : Nat) (formats : List Nat)
  | correctionUpdate (die sensedW modelW : Nat)
  | governorTrim (meanW : Nat)
  | governorHeartbeat (master : Nat)
  | governorClamp
  | droopDetect (die : Nat)
  | droopRelease (die : Nat)
  | tulleInterval (die currentMa stalled : Nat)
  | voltagePointAdjust (die : Nat)
  | regulatorCommand (master die : Nat) (cmd : RegCmd)
  | phaseFailure (rail phase : Nat)
  | currentSenseExcluded (die cause : Nat)
  | thermalSample (die : Nat) (sensors hbm : List Int)
  | coolantSample (inlet outlet : Int) (meanW : Nat)
  | thermalTrip (place index : Nat) (reading : Int)
  | thermalHoldRelease (dies hbm : List Int) (outlet : Int)
  | telemetryRefresh (t : Telemetry)
  -- complexes
  | complexHeartbeatWrite (master : Nat)
  | complexFailure (fatalReport : Bool)
  | complexRestart (ok : Bool)
  | adoption (audit : AdoptionAudit)
  | standbyRestart (ok : Bool)
  | ownershipRequest (first : OwnRequest) (line : Nat) (others : List OwnRequest)
  | lineWriteback (line : Nat) (notice : LineNotice) (requests : List OwnRequest)
  -- reliability
  | correctedError (u : UnitRef)
  | uncorrectableError (e : ErrSite)
  | quadSpareMap (die quad : Nat)
  | meshLaneGroupFailure (edge dir group : Nat)
  | meshEdgeFailure (edge : Nat)
  | audit (found : List (Nat × Nat))
  | cometRecordWrite
  | fatalError (cause : Nat)
  | pldmFirmwareUpdate (set : ImageSet)
  | spdmRequest (code : Nat)
  | coreStopTimeout (core : Nat)
  | standbyComplexFailure
  | perstDeassert (port : Nat)
  | tdispRequest (vf state : Nat)
  | ideKmRequest (port stream : Nat) (key : List Byte)
deriving DecidableEq, Repr

end Sys2Proof
end

