-- ==== Sys2Proof/Machine/State.lean ====
section
/-! DEFINITION. The state of the KP-8: every store, register, queue, counter, mode and pin the spec gives the module,
as plain data in one record per part of the machine, and the queue of waiting commands. Each field's docstring gives its
width or range and the rule that names it. -/

namespace Sys2Proof.Machine

/-- Why a step stops with a fault. -/
inductive Fault where
  /-- Raised by no command: the spec gives every command an effect, a refusal status or no occurrence. Safe. -/
  | none_
deriving DecidableEq, Repr

/-- Why a command has no meaning. -/
inductive Refusal where
  /-- Raised by an arm of `exec` whose command has no meaning yet, with the command's mnemonic. Safe. -/
  | notModelled (mnemonic : String)
deriving DecidableEq, Repr

/-! ## Power path and always-on domain -/

/-- Module states (R47, R84): `startup` stands for start phases 0x1–0x9, `mgmtOnly` for phase 0xF. -/
inductive ModuleState where
  | off
  | startup
  | service
  | drain
  | retain
  | standby
  | mgmtOnly
deriving DecidableEq, Repr

/-- The hot-swap stage (R44): closed, or open and why. -/
inductive HotSwap where
  | closed
  | overvoltage
  | overcurrent
  | sense
deriving DecidableEq, Repr

/-- The power-path state machine, its inputs and its counters. -/
structure PowerPath where
  /-- Module state. R47. -/
  state : ModuleState
  /-- Start-up phase code, 4 bits. R84, R129 (ID.PHASE). -/
  phase : Nat
  /-- VMAIN in mV, 16 bits. R38, R131. -/
  vmainMv : Nat
  /-- VAUX in mV, 16 bits. R45, R131. -/
  vauxMv : Nat
  /-- MAIN_SENSE made. R43. -/
  mainSense : Bool
  /-- Hot-swap stage. R44. -/
  hotSwap : HotSwap
  /-- Main power good, with the hysteresis of R43. -/
  mainGood : Bool
  /-- VAUX good. R45. -/
  vauxGood : Bool
  /-- PWRFAIL_N counted as asserted. R42. -/
  pwrfail : Bool
  /-- Clock at which main last became good. R53. -/
  mainGoodSince : Nat
  /-- Clock at which PWRFAIL_N was last deasserted. R53. -/
  pwrfailHighSince : Nat
  /-- Clock at which main last ceased to be good. R48, R58. -/
  mainCeasedAt : Nat
  /-- Main has ceased to be good since the always-on domain powered on, so that 41.0–59.0 V is asked of it. R43. -/
  mainCeased : Bool
  /-- Clock at which the hot-swap stage last opened. R44. -/
  hotSwapAt : Nat
  /-- Ride-through promised since main last ceased to be good: 8 ms from RETAIN, 7 ms else. R48. -/
  rideMin : Nat
  /-- Clock since which main is absent, or not good where no event told of the bulk. R46, R55. -/
  mainAbsentAt : Nat
  /-- Clock at which VAUX last ceased to be good. R55. -/
  vauxCeasedAt : Nat
  /-- Clock of DRAIN entry. R58. -/
  drainEntry : Nat
  /-- Clock of RETAIN entry. R52, R53. -/
  retainEntry : Nat
  /-- Restarts of the 20 ms window since RETAIN entry. R53, R58. -/
  windowRestarts : Nat
  /-- PWR.STATE.WARNED. R131. -/
  warned : Bool
  /-- Steps interrupted by the current or last DRAIN. R51, R58. -/
  interrupted : Nat
  /-- The commanded hold. R74, R75, R77. -/
  hold : Bool
  /-- Thermal hold. R534, R535. -/
  thermalHold : Bool
  /-- Clock: when the thermal hold was set. R535. -/
  thermalHoldSince : Nat
  /-- MODULE_STOP under way: RETAIN goes on to STANDBY. R74. -/
  stopping : Bool
  /-- The always-on domain is powered. R46, R55. -/
  aonPowered : Bool
deriving DecidableEq, Repr

/-- A comet record (R547), its payload as words of 32 bits. -/
structure CometRec where
  /-- Timebase when written, 64 bits. -/
  time : Nat
  /-- Boot count, 32 bits. -/
  boot : Nat
  /-- Event code (area and event), 16 bits. R548. -/
  code : Nat
  /-- Severity, 8 bits. -/
  severity : Nat
  /-- Device number, 8 bits. -/
  device : Nat
  /-- Source, 16 bits. -/
  source : Nat
  /-- Valid bit and CTAG, 16 bits. -/
  ctag : Nat
  /-- Record number (low bits of LOG.COUNT), 32 bits. -/
  number : Nat
  /-- Payload. -/
  payload : List Nat
deriving DecidableEq, Repr

/-- The always-on domain: shares, timebase and Comet log. -/
structure AlwaysOn where
  /-- Leading share, 0 IA or 1 IB, 1 bit. R59, R129 (ID.COMPLEX.LEAD_SHARE). -/
  lead : Nat
  /-- Share A's Keeper has failed or lost the lead. R60. -/
  lostA : Bool
  /-- Share B's Keeper has failed or lost the lead. R60. -/
  lostB : Bool
  /-- The lead share was elected, and RACK_POS read, since the always-on domain powered on. R40, R59. -/
  elected : Bool
  /-- Clock of the last share heartbeat. R60. -/
  heartbeatAt : Nat
  /-- Timebase, 64 bits. R17, R64, R130 (TIME.NOW). -/
  timebase : Nat
  /-- Nanoseconds of the always-on clock since power-on, 40 a tick, never slewed or stepped (the model's own field). -/
  clock : Nat
  /-- Boot count, 32 bits, in flash. R64, R130 (TIME.BOOT). -/
  boot : Nat
  /-- Nanoseconds still to be slewed. R65, R498. -/
  slewLeft : Int
  /-- Ticks since the last slew tick. R65, R498. -/
  slewTicks : Nat
  /-- RACK_POS as read, 4 bits. R40, R129 (ID.RACK). -/
  rackPos : Nat
  /-- RACK_POS[3:0] pins, 4 bits. R38. -/
  rackPin : Nat
  /-- LOG.COUNT, 64 bits. R132. -/
  logCount : Nat
  /-- Comet ring of the leading share, newest first, 4,096 records. R59, R132. -/
  ring : List CometRec
  /-- Comet ring of the following share, newest first, 4,096 records. R59, R60. -/
  ringFollow : List CometRec
  /-- The intake of posted records, oldest first, 256 entries. R549. -/
  intake : List CometRec
  /-- Records lost at a full intake. R549. -/
  intakeLost : Nat
  /-- Code of the first record lost, 16 bits. R549. -/
  intakeLostCode : Nat
  /-- The BMC mark. R550. -/
  bmcMark : Nat
deriving DecidableEq, Repr

/-! ## Settings, identity, flash -/

/-- The region of a flash device that only the Supervisor writes (R96, R99, R101). -/
structure SiteRegion where
  /-- Enrolled site key, 96 bytes, optional. R99. -/
  key : Option (List Byte)
  /-- SHA-384 digest of the enrolled key, 48 bytes, none when no key is enrolled. R99. -/
  digest : List Byte
  /-- The site layer as accepted, its trailer included, optional. R95, R101. -/
  layer : Option (List Byte)
  /-- Highest site layer version accepted, 32 bits. R96. -/
  floor : Nat
deriving DecidableEq, Repr

/-- One flash device's slot and its Supervisor-only region (R89, R96, R99, R560). -/
structure Flash where
  /-- The device works. R569. -/
  ok : Bool
  /-- The image set of its slot, if one is complete. R89. -/
  slot : Option ImageSet
  /-- Its Supervisor-only region. R96, R99, R101. -/
  region : SiteRegion
deriving DecidableEq, Repr

/-- Settings, identity and flash. -/
structure Config_ where
  /-- Module serial number, 64 bits, fused. R129 (ID.SERIAL). -/
  serial : Nat
  /-- Stepping, 16 bits, fused. R129 (ID.VERSION.STEPPING). -/
  stepping : Nat
  /-- Highest contract minor M of the running firmware. R143, R563. -/
  minor : Nat
  /-- Flash device A. R89. -/
  flashA : Flash
  /-- Flash device B. R89. -/
  flashB : Flash
  /-- Preferred slot. R89, R562. -/
  preferred : Nat
  /-- Slot the module started from. R89, R561. -/
  startedFrom : Nat
  /-- Security floor in flash. R560. -/
  securityFloor : Nat
  /-- Site layer in force. R93, R97. -/
  site : Option SiteLayer
  /-- Runtime layer: setting to value. R93, R100. -/
  runtime : Tab Nat
  /-- Site layer as of the last module start, which supplies settings 0x0001, 0x0002 and 0x0003. R101, R102. -/
  siteStart : Option SiteLayer
  /-- The channel binding table is written and locked. R8, R118. -/
  bindingLocked : Bool
deriving DecidableEq, Repr

/-! ## Control Complexes -/

/-- What a Control Complex is doing (R111–R116). -/
inductive ComplexState where
  | absent
  | active
  | standby
  | heldInReset
  | restarting
deriving DecidableEq, Repr

/-- A deferred command or a waiting command (R153), and the journal entry of it (R115). -/
structure Deferred where
  /-- Number of the journal entry. -/
  id : Nat
  /-- Header fields of the command. R144. -/
  hdr : CmdHdr
  /-- The command and its payload. -/
  cmd : Command
deriving DecidableEq, Repr

/-- A reply or notice queued for a sender (R144, R145, R155): kind 2 or 3. -/
structure Answer where
  /-- Whom it goes to. -/
  dest : Sender
  /-- 2 reply, 3 notice, 2 bits. -/
  kind : Nat
  /-- Opcode of the command, 16 bits. -/
  opcode : Nat
  /-- Header fields of the command. R144. -/
  hdr : CmdHdr
  /-- Status, 16 bits. R144. -/
  status : Nat
  /-- Payload. -/
  payload : List Byte
deriving DecidableEq, Repr

/-- A journal entry: the command, whether it is committed, its reply, and whether that has been sent (R115). Committed entries
stand in commit order (R151). -/
structure JournalEntry where
  /-- Number of the entry. -/
  id : Nat
  /-- Header of the command. -/
  hdr : CmdHdr
  /-- Opcode, 16 bits. -/
  opcode : Nat
  /-- The command and its payload; none for a message that spells none. -/
  cmd : Option Command
  /-- Committed. R151. -/
  committed : Bool
  /-- Its reply has been sent. -/
  replied : Bool
  /-- Status of its reply, 16 bits; ST_ACCEPTED with no payload stands for a reply that another member gives. R157. -/
  status : Nat
  /-- Payload of its reply. -/
  payload : List Byte
deriving DecidableEq, Repr

/-- A line in a core's writeback buffer: its eviction notice has been sent and not acknowledged (R109). -/
structure Eviction where
  /-- Core, 0–5. -/
  core : Nat
  /-- The line was modified. -/
  modified : Bool
  /-- Its 64 bytes. -/
  data : List Byte
deriving DecidableEq, Repr
/-- A line of the coherent L2 and its directory entry (R106–R109). -/
structure L2Line where
  /-- Agent that owns the line, 4 bits, optional. -/
  owner : Option Nat
  /-- Agents that share the line. -/
  sharers : List Nat
  /-- The owner's copy is modified. -/
  modified : Bool
  /-- The directory's copy, 64 bytes. R108. -/
  data : List Byte
  /-- The copies at the cores that hold the line, by core. R107. -/
  copies : Tab (List Byte)
  /-- Lines in writeback buffers. R109. -/
  leaving : List Eviction
deriving DecidableEq, Repr

/-- The two Control Complexes. -/
structure Complexes where
  /-- Active complex, 1 bit. R129 (ID.COMPLEX.ACTIVE). -/
  active : Nat
  /-- State of IA's complex. R29, R111. -/
  stateA : ComplexState
  /-- State of IB's complex. R29, R111. -/
  stateB : ComplexState
  /-- STANDBY_READY, 1 bit. R129. -/
  standbyReady : Bool
  /-- TAKEOVERS, 32 bits. R129. -/
  takeovers : Nat
  /-- Clock: last Dispatcher heartbeat at the watch. R111. -/
  dispBeat : Nat
  /-- Clock: last Supervisor heartbeat at the watch. R111. -/
  supBeat : Nat
  /-- An adoption pause is in force. R113. -/
  adopting : Bool
  /-- Journal of commands, oldest first. R115. -/
  journal : List JournalEntry
  /-- Next journal entry number. R115. -/
  nextId : Nat
  /-- Deferred commands accepted and not yet answered by their notice, oldest first. R153, R154. -/
  deferred : List Deferred
  /-- Commands committed whose reply waits: RANGE_INVALIDATE_ALL of R222. -/
  waiting : List Deferred
  /-- Commands taken after one of their channel that still waits to commit, oldest first. R151, R222. -/
  held : List Deferred
  /-- Replies and notices queued, oldest first. R155. -/
  answers : List Answer
  /-- L2 lines with their directory state. R106–R109. -/
  l2 : Tab L2Line
  /-- Staged image set. R561. -/
  staged : Option ImageSet
  /-- Activation under way. R562. -/
  activating : Bool
  /-- The staged set is in the standby complex alone. R561. -/
  stagedInStandbyOnly : Bool
  /-- FW_STAGE commands whose notice waits for the other library bank. R335, R561. -/
  stageItems : List Nat
  /-- Images the active complex runs. R559. -/
  running : Option ImageSet
  /-- I/O die IA is powered. R84, R90. -/
  powerA : Bool
  /-- I/O die IB is powered. R84, R90. -/
  powerB : Bool
deriving DecidableEq, Repr

/-! ## Mailboxes -/

/-- A mailbox channel (R117, R137). -/
structure Channel where
  /-- OWNER, 16 bits. -/
  owner : Nat
  /-- SENT, 16 bits. R121, R137. -/
  sent : Nat
  /-- WITHDRAWN. R137. -/
  withdrawn : Bool
  /-- TAKEN. R137. -/
  taken : Bool
  /-- FULL. R121, R137. -/
  full : Bool
  /-- The master whose send last set FULL, 0 for none since the last reset. R122. -/
  lastSender : Nat
  /-- INTCTL empty enable. R124, R137. -/
  emptyEn : Bool
  /-- INTCTL message enable. R124, R137. -/
  msgEn : Bool
  /-- Buffer bytes 0x00–0xFF, unlisted bytes zero. -/
  buf : Tab Byte
  /-- Order in which the send reached the active mirror. R147. -/
  order : Nat
deriving DecidableEq, Repr

/-- The 544 channels (R117) and the count of sends. -/
structure Mailboxes where
  /-- The channels, 544 channels. R117. -/
  chans : Tab Channel
  /-- Sends so far. R147. -/
  sends : Nat
  /-- Sends so far when SERVICE was last entered from a start. R83. -/
  serviceFrom : Nat
deriving DecidableEq, Repr

/-! ## Host interface -/

/-- A fault record (R232). -/
structure FaultRec where
  /-- Kind, 8 bits. R227. -/
  kind : Nat
  /-- 1 read, 2 write, 3 fetch, 8 bits. -/
  access : Nat
  /-- Status code, 16 bits. -/
  status : Nat
  /-- Context, 16 bits. -/
  ctag : Nat
  /-- Queue, 16 bits. -/
  queue : Nat
  /-- Ring index of the step, or the written value, 64 bits. -/
  stepIndex : Nat
  /-- Faulting virtual address, 64 bits. -/
  va : Nat
  /-- Timebase at detection, 64 bits. -/
  time : Nat
  /-- Agent kind, 8 bits. -/
  agentKind : Nat
  /-- Device number, 8 bits. -/
  device : Nat
  /-- Agent, 16 bits. -/
  agent : Nat
  /-- Range index, 32 bits. -/
  rangeIndex : Nat
  /-- Detail, 64 bits. -/
  detail : Nat
  /-- FLT.PRODUCER.INDEX at writing, 32 bits. -/
  sequence : Nat
  /-- Flags, 16 bits. -/
  flags : Nat
deriving DecidableEq, Repr

/-- One MSI-X vector of a function (R125, R575). -/
structure Vec where
  /-- Message address, 64 bits. R125. -/
  addr : Nat
  /-- Message data, 32 bits. R125. -/
  data : Nat
  /-- Mask bit. R575. -/
  masked : Bool
  /-- Pending bit. R575. -/
  pending : Bool
deriving DecidableEq, Repr

/-- TDISP states of a TDI (R226). -/
inductive TdiState where
  | unlocked
  | locked
  | run
  | error
deriving DecidableEq, Repr

/-- Who writes: the context and step that an access is for and the agent that makes it (R220, R232). -/
structure Writer where
  /-- Context, 12 bits. -/
  ctag : Nat
  /-- Step the access is for: queue and index. -/
  step : Option (Nat × Nat)
  /-- Agent kind, 8 bits. R232. -/
  agentKind : Nat
  /-- Agent, 16 bits. R232. -/
  agent : Nat
deriving DecidableEq, Repr

/-- What a posted write to host memory carries (R135, R571). -/
inductive PostedFor where
  | fault (r : FaultRec)
  | msix (vector : Nat)
  | data (w : Writer) (va ri : Nat)
  | dump
deriving DecidableEq, Repr

/-- A posted write that has left through a port (R135, R571). -/
structure Posted where
  /-- Function, 8 bits. -/
  fn : Nat
  /-- PASID, 20 bits, optional. -/
  pasid : Option Nat
  /-- Address, 64 bits. -/
  addr : Nat
  /-- Bytes. -/
  bytes : List Byte
  /-- no_snoop and the translated mark of the request, 2 bits. R224, R225. -/
  attrs : Nat
  /-- What it carries. -/
  what : PostedFor
deriving DecidableEq, Repr

/-- A host function: its vectors and its fault ring. -/
structure HostFn where
  /-- MSI-X vectors 0–3, 4 vectors. R125, R575. -/
  vecs : List Vec
  /-- MSI-X Function Mask. R575. -/
  fnMask : Bool
  /-- FLT.BASE.ADDR (the address, 4 KiB aligned). R133. -/
  fltBase : Nat
  /-- FLT.SIZE.ENABLE. R133. -/
  fltEnable : Bool
  /-- FLT.SIZE.LOG2_ENTRIES, 5 bits. R133. -/
  fltLog2 : Nat
  /-- FLT.PRODUCER, 32 bits. R133. -/
  fltProducer : Nat
  /-- FLT.CONSUMER, 32 bits. R133. -/
  fltConsumer : Nat
  /-- FLT.STATUS.WRITE_ERROR. R133. -/
  fltWriteError : Bool
  /-- FLT.STATUS.HELD. R133. -/
  fltHeldBit : Bool
  /-- Fault records held in the device, 64 records. R134. -/
  held : List FaultRec
  /-- Records of steps that wait beyond the 64. R134. -/
  beyond : List FaultRec
  /-- Fault-record writes that failed, until a port can carry them again. R135. -/
  unsent : List Posted
  /-- TDI state of a VF. R226. -/
  tdi : TdiState
deriving DecidableEq, Repr

/-- A host port (R27, R41, R87). -/
structure HostPort where
  /-- The link is up. -/
  up : Bool
  /-- PERST_N asserted. -/
  perst : Bool
  /-- The configuration space is ready. -/
  cfgReady : Bool
  /-- Selective IDE streams with keys. R226. -/
  ide : Tab (List Byte)
  /-- VFs enabled on this port: VF Enable with NumVFs, 0 while it is clear, 8 bits. R27. -/
  vfs : Nat
  /-- Memory Space Enable of the PF on this port. R572. -/
  pfMem : Bool
  /-- Memory Space Enable of the VFs on this port. R572. -/
  vfMem : Bool
  /-- Posted writes that may still be unacknowledged, newest first, 256 entries. R135, R571. -/
  posted : List Posted
deriving DecidableEq, Repr

/-- What a host read is for (R182, R224, R279): a step descriptor of a queue, a load of a core, a fetched bundle, an
engine's operand, or a shard of a weight container. -/
inductive ReadPurpose where
  | descriptor (queue : Nat)
  | load (core : Nat)
  | fetch (core bundle : Nat)
  | engine (die idx : Nat)
  | shard (model shard : Nat)
deriving DecidableEq, Repr

/-- An outstanding host read (R224, R571). -/
structure HostRead where
  /-- Number of the read. -/
  id : Nat
  /-- Port. -/
  port : Nat
  /-- Context, 12 bits. -/
  ctag : Nat
  /-- Address, 64 bits. -/
  addr : Nat
  /-- Length. -/
  length : Nat
  /-- Clock: when issued, for the completion timeout. R571. -/
  issued : Nat
  /-- What the read is for. R182, R224, R279. -/
  purpose : ReadPurpose
  /-- The bytes, once a completion brought them, until the agent takes them. -/
  data : Option (List Byte)
  /-- Virtual address, 64 bits. R232. -/
  va : Nat
  /-- Range index, 32 bits. R232. -/
  ri : Nat
  /-- The request is translated. R225. -/
  xlated : Bool
  /-- Virtual address of the access it is a part of, 64 bits. R224. -/
  accessVa : Nat
deriving DecidableEq, Repr

/-- An entry of a port's address translation cache (R225). -/
structure AtcEntry where
  /-- Port. -/
  port : Nat
  /-- PASID, 20 bits. -/
  pasid : Nat
  /-- Page, 64 bits. -/
  page : Nat
  /-- Translated address, 64 bits. -/
  target : Nat
deriving DecidableEq, Repr

/-- The host interface. -/
structure HostIf where
  /-- Port A. R27. -/
  portA : HostPort
  /-- Port B. R27. -/
  portB : HostPort
  /-- Functions 0–255. -/
  fns : Tab HostFn
  /-- Outstanding host reads. R224. -/
  reads : List HostRead
  /-- Next read's number. R224. -/
  nextRead : Nat
  /-- Address translation caches. R225. -/
  atc : List AtcEntry
  /-- Outstanding ATS requests. R225. -/
  atsAsked : List (Nat × Nat × Nat)
  /-- Translations that the host refused, with the completion's status, until the access that asked fails. R571. -/
  atsRefused : List ((Nat × Nat × Nat) × Nat)
  /-- Ports with an invalidation request not yet completed, one for each. R225. -/
  atsInval : List Nat
deriving DecidableEq, Repr

/-- What another member answered to a row or item sent to it (R377, R493): a status, the fault where the status is one of an
access, and the bytes of a gather. -/
structure RemoteAns where
  /-- Status, 16 bits. -/
  status : Nat
  /-- Fault kind, where the status is one of an access, 8 bits. -/
  kind : Nat
  /-- Access, 8 bits. -/
  access : Nat
  /-- Range index, 32 bits. -/
  ri : Nat
  /-- Virtual address, 64 bits. -/
  va : Nat
  /-- Detail, 64 bits. -/
  detail : Nat
  /-- Bytes of a gather. -/
  bytes : List Byte
deriving DecidableEq, Repr

/-- Fabric packets by meaning (R474). -/
inductive Packet where
  | identity (link : Nat)
  | plan (link : Nat)
  | heartbeat
  | creditAudit (link : Nat)
  | timeRequest (t1 : Nat)
  | timeResponse (t1 t2 t3 : Nat) (offset : Int)
  | barrierArrival (m : BarrierMsg)
  | barrierRelease (m : BarrierMsg)
  | signal (m : SignalMsg)
  | doorbell (master queue value : Nat)
  | relayCredit
  | mirror (queue : Nat) (m : Mirror)
  | command (f : Nat) (message : List Byte)
  | answer (f : Nat) (message : List Byte)
  | podState (st : Nat)
  | reduceChunk (c : ReduceChunk)
  | grant (g : GrantMsg)
  | slotWrite (w : SlotWrite)
  | laneReport (r : LaneReport)
  | returnRow (r : ReturnRow)
  | scatterAck (tag : Nat) (a : RemoteAns)
  | grantFull (g : GrantMsg)
  | placement (model : Nat) (bytes : List Byte)
  | placeDone (device model status : Nat)
  | placeCommit (model : Nat)
  | remoteWrite (w : RemoteWrite)
  | gatherRequest (r : GatherReq)
  | gatherData (tag : Nat) (bytes : List Byte)
  | kvAck (tag : Nat) (a : RemoteAns)
  | streamAck (tag : Nat) (a : RemoteAns)
  | weightFrame (model shard frame : Nat) (bytes : List Byte)
  | frameRequest (model shard frame : Nat)
  | layerReport (model layer : Nat)
  | epochSwitch (model epoch : Nat)
  | podLayer (model layer : Nat)
  | epochEnd (model epoch status : Nat)
  | planReport (device status : Nat) (offset : Int) (steps : Bool)
  | planOrder (shift : Nat)
  | planDone (device : Nat)
  | mirrorAsk
  | mirrorDone
  | portWord (link : Nat) (inPort : Bool)
  | blocked (function ctag queue step agentKind agent detail : Nat)
deriving DecidableEq, Repr

/-- What leaves the block, in order: interrupt messages, writes to host memory, register read values, MCTP answers,
fabric packets to a member, and completions the host waits for. -/
inductive Output where
  | msix (fn vector port addr data : Nat)
  | interrupt (master channel : Nat) (empty : Bool)
  | hostWrite (port fn : Nat) (pasid : Option Nat) (addr : Nat) (bytes : List Byte) (attrs : Nat)
  | readData (master value : Nat)
  | mctp (bytes : List Byte)
  | packet (dest vc : Nat) (p : Packet)
  | atsDone (port : Nat)
  | atsAsk (port pasid page : Nat)
  | flit (link : Nat) (bytes : List Byte)
  | spdm (code : Nat)
  | shareHeartbeat (lead : Nat)
  | rackReport (rackPos : Nat)
  | phaseReport (phase : Nat)
  | hostRead (port fn : Nat) (pasid : Option Nat) (addr length attrs : Nat)
deriving DecidableEq, Repr

/-! ## Contexts, ranges and translation -/

/-- A context (R209). -/
structure Context where
  /-- Owning function, 8 bits. -/
  owner : Nat
  /-- Base of the range table, 64 bits. -/
  tableBase : Nat
  /-- PASID, 20 bits, optional. -/
  pasid : Option Nat
  /-- Home port. -/
  homePort : Nat
  /-- Compatibility flag. -/
  compat : Bool
  /-- Key slot: data key then tweak key, 64 bytes. R236. -/
  key : Option (List Byte)
  /-- Being destroyed. R211. -/
  dying : Bool
  /-- Ranges changed or cleared since the last invalidation, whose old targets still count as mapped. R217. -/
  stale : List RangeEntry
  /-- Next program handle. R169, R172. -/
  nextHandle : Nat
  /-- Cores that firmware permits the context, optional; none for every core. R191. -/
  cores : Option (List Nat)
deriving DecidableEq, Repr

/-- A region of device memory with its owner (R212, R214). -/
structure Region where
  /-- Function that owns the region, 8 bits. R214. -/
  fn : Nat
  /-- Base, 64 bits. -/
  base : Nat
  /-- Length, 64 bits. -/
  length : Nat
deriving DecidableEq, Repr

/-- A broadcast group (R278). -/
structure GroupRec where
  /-- Entry bundle, 32 bits. -/
  entry : Nat
  /-- Die, 8 bits. -/
  die : Nat
  /-- First relative index, 8 bits. -/
  first : Nat
  /-- Count, 8 bits. -/
  count : Nat
deriving DecidableEq, Repr

/-- A barrier record (R278). -/
structure BarrierRec where
  /-- Barrier 0–7, 8 bits. -/
  barrier : Nat
  /-- 1 die, 2 device, 3 pod, 8 bits. -/
  scope : Nat
  /-- Handle 0–15, 8 bits. -/
  handle : Nat
  /-- Word of inline_args giving the pod key, 8 bits. -/
  keyWord : Nat
  /-- device_mask, 64 bits. -/
  mask : Nat
deriving DecidableEq, Repr

/-- A live set and its extents (R277). -/
structure LiveSet where
  /-- Live set number, 16 bits. -/
  id : Nat
  /-- Extents: offset and length. -/
  extents : List (Nat × Nat)
deriving DecidableEq, Repr

/-- A loaded program object (R276–R279). -/
structure Program where
  /-- Context, 12 bits. -/
  ctag : Nat
  /-- Program handle, 32 bits. R169. -/
  handle : Nat
  /-- Object identifier, 64 bits. -/
  objectId : Nat
  /-- Code section, 64 bits. R279. -/
  codeVa : Nat
  /-- Length of the code section, 64 bits. R279. -/
  codeLen : Nat
  /-- Cores on each die, 8 bits a die. R278. -/
  coresPerDie : List Nat
  /-- release_ns, 32 bits. R194, R277. -/
  releaseNs : Nat
  /-- sync_per_core, 8 bits. R194, R277. -/
  syncPerCore : Nat
  /-- schedule_check. R259. -/
  schedCheck : Bool
  /-- Bytes of a core's save record, 32 bits. R277. -/
  saveBytes : Nat
  /-- Modes of the 16 handles, 16 bits. R260. -/
  syncModes : Nat
  /-- First Commons slice and count for each die. R276. -/
  commons : List (Nat × Nat)
  /-- Broadcast groups. R278. -/
  groups : List GroupRec
  /-- Barrier records. R278. -/
  barriers : List BarrierRec
  /-- Live sets. R277. -/
  liveSets : List LiveSet
  /-- Not unloaded: an unloaded program serves the steps already launched with it. R172. -/
  loaded : Bool
deriving DecidableEq, Repr

/-- A range-cache entry (R218): CTAG, index in the table and the whole range. -/
structure CacheEntry where
  /-- Context, 12 bits. -/
  ctag : Nat
  /-- Index in the range table, 32 bits. -/
  index : Nat
  /-- The range. R215. -/
  range : RangeEntry
deriving DecidableEq, Repr

/-- A walk in progress (R219): the unit whose cache missed, with the access that missed. -/
structure Walk where
  /-- Unit whose cache missed. -/
  unit : Nat
  /-- Context, 12 bits. -/
  ctag : Nat
  /-- Address, 64 bits. -/
  va : Nat
  /-- Access, 2 bits. -/
  access : Nat
  /-- Step the access is for. -/
  step : Option (Nat × Nat)
  /-- Agent kind, 8 bits. R232. -/
  agentKind : Nat
  /-- Agent, 16 bits. R232. -/
  agent : Nat
  /-- Held by an invalidation. R222. -/
  held : Bool
deriving DecidableEq, Repr

/-- Contexts, memory ownership, programs and translation. -/
structure Contexts where
  /-- Contexts. R209. -/
  ctxs : Tab Context
  /-- Incarnation of each CTAG, 16 bits each. R384. -/
  incarnation : Tab Nat
  /-- Regions granted to functions. R214. -/
  grants : List Region
  /-- Memory being zeroed: nobody's. R214, R367. -/
  zeroing : List Region
  /-- Loaded programs. R172. -/
  programs : List Program
  /-- Root stores: for each CTAG, the leaf number and va_base of its first valid entry. R219. -/
  roots : Tab (List (Nat × Nat))
  /-- Range caches by unit, most recently used first, 64 entries a unit. R218. -/
  caches : Tab (List CacheEntry)
  /-- Walks in progress. R219. -/
  walks : List Walk
  /-- CTAGs whose invalidation has begun and not committed. R222. -/
  invalidating : List Nat
  /-- The reserved dump region's base, when placed. R553. -/
  dumpBase : Option Nat
deriving DecidableEq, Repr

/-! ## Queues and dispatch -/

/-- An assigned queue group (R173). -/
structure QGroup where
  /-- Owning context, 12 bits. -/
  ctag : Nat
  /-- Function that owns it, 8 bits. R139. -/
  fn : Nat
  /-- Page position in the VF's BAR2, 6 bits. R141. -/
  vfPage : Nat
deriving DecidableEq, Repr

/-- A queue (R138, R173–R178). -/
structure Queue where
  /-- Configured. R174, R175. -/
  configured : Bool
  /-- QPG.STATUS.CLASS, 2 bits. R138. -/
  cls : Nat
  /-- log2_entries of the ring, 5 bits. R177. -/
  log2 : Nat
  /-- ring_va, 64 bits. R177. -/
  ringVa : Nat
  /-- Producer index, 64 bits. R178. -/
  producer : Nat
  /-- Index of the next descriptor to read (QPG.STATUS.CONSUMED), 64 bits. R138. -/
  consumed : Nat
  /-- QPG.COMPLETED.COUNT, 64 bits. R138. -/
  completed : Nat
  /-- QPG.FAULT.STEP, 32 bits. R138. -/
  faultStep : Nat
  /-- QPG.FAULT.CODE, 16 bits. R138. -/
  faultCode : Nat
  /-- QPG.EPOCH.WEIGHT, 32 bits. R138. -/
  epochW : Nat
  /-- QPG.EPOCH.ADAPTER, 32 bits. R138. -/
  epochA : Nat
  /-- A descriptor read is under way. R180. -/
  reading : Bool
  /-- Slot held, 0–255. -/
  slot : Option Nat
  /-- Doorbell latch. R178. -/
  latched : Bool
  /-- Order in which the doorbell was latched. R189. -/
  latchOrder : Nat
  /-- Clock: when the latch was last cleared. R187. -/
  clearSince : Nat
  /-- Clock: when its last step ended. R187. -/
  lastEnd : Nat
deriving DecidableEq, Repr

/-- Conditions of a step that has been read and has not ended (R175, R192, R195, R200, R228). -/
inductive StepCond where
  /-- Read; waits for a dependency, cores or zeroing. -/
  | awaiting
  /-- Waits at the hold barrier of a weight swap. -/
  | held
  | running
  /-- Ordered to stop for a pre-emption; runs on to its safe points. -/
  | preempting
  | preempted
  /-- Ordered to stop for a fault; its cores save. -/
  | suspending
  | suspended
  /-- Ordered to abort while running. -/
  | aborting
deriving DecidableEq, Repr

/-- A descriptor in an engine's queue, in hand or dropped (R271–R273), with the index of the engine it was enqueued to. -/
structure QDesc where
  /-- Engine index it was enqueued to, 5 bits. R233. -/
  engine : Nat
  /-- Enqueuing core, 9 bits. -/
  core : Nat
  /-- Queue of the step, 16 bits. -/
  queue : Nat
  /-- Index of the step, 64 bits. -/
  step : Nat
  /-- Context, 12 bits. -/
  ctag : Nat
  /-- Sync bank of the step. -/
  bank : Nat
  /-- The descriptor, 64 or 128 bytes. R272. -/
  bytes : List Byte
deriving DecidableEq, Repr

/-- The scalar, predicate and vector registers of a core (R246); unlisted registers are zero. -/
structure CoreRegs where
  /-- x0–x31; x0 reads 0, 32 of 64 bits. -/
  x : Tab Word
  /-- P0–p7; p0 reads 1, 8 of 1 bit. -/
  p : Tab Bool
  /-- V0–v31, 32 of 64 lanes of 32 bits. -/
  v : Tab (List Lane)
deriving DecidableEq, Repr

/-- A loop in progress on one of lc0–lc3 (R249). -/
structure LoopSt where
  /-- First bundle of the loop. -/
  start : Nat
  /-- Last bundle. -/
  stop : Nat
  /-- Iterations left, 64 bits. -/
  left : Nat
deriving DecidableEq, Repr

/-- What a core saved at a safe point (R275): registers, next bundle, loops, extents of its live set, descriptors and mark. -/
structure SavedCore where
  /-- Registers. -/
  regs : CoreRegs
  /-- Next bundle. -/
  pc : Nat
  /-- Loops, 4 loops. -/
  loops : Tab LoopSt
  /-- Bytes of the live set's extents. R277. -/
  extents : List (Nat × List Byte)
  /-- Descriptors dropped and to be enqueued again. R274. -/
  dropped : List QDesc
  /-- Layer mark, 32 bits. R445. -/
  mark : Nat
  /-- The core had ended. -/
  ended : Bool
  /-- Relative index, 8 bits. R278. -/
  rel : Nat
  /-- Broadcast group. R278. -/
  group : Nat
  /-- An ST_INVALID record is written for the step. R246. -/
  recInvalid : Bool
  /-- A schedule_check record is written. R259. -/
  recSched : Bool
  /-- A tile record is written. R311. -/
  recTile : Bool
deriving DecidableEq, Repr

/-- A dispatch record: a step read and not ended (R176, R181, R206). -/
structure StepRec where
  /-- Queue, 16 bits. -/
  queue : Nat
  /-- Index in the ring, 64 bits. -/
  index : Nat
  /-- Context, 12 bits. -/
  ctag : Nat
  /-- Function, 8 bits. -/
  fn : Nat
  /-- Program handle, 0 for a null step, 32 bits. R184. -/
  program : Nat
  /-- Model, 8 bits, optional. R181. -/
  model : Option Nat
  /-- Adapter number, 16 bits, optional. R181. -/
  adapter : Option Nat
  /-- Weight epoch asked for, 32 bits. R181, R456. -/
  wantW : Nat
  /-- Adapter epoch asked for, 32 bits. R181, R450. -/
  wantA : Nat
  /-- The step has a dependency. R190. -/
  depValid : Bool
  /-- Queue of the dependency, 16 bits. R190. -/
  depQueue : Nat
  /-- Count of the dependency, 64 bits. R190. -/
  depCount : Nat
  /-- args_va, 64 bits. -/
  argsVa : Nat
  /-- args_len, 32 bits. -/
  argsLen : Nat
  /-- save_va, 64 bits. R275. -/
  saveVa : Nat
  /-- user_tag, 64 bits. -/
  userTag : Nat
  /-- inline_args, 32 bytes. -/
  inlineArgs : List Byte
  /-- Awaiting, held, running, preempting, preempted, suspending, suspended or aborting. R175. -/
  cond : StepCond
  /-- Clock: when read. R189. -/
  readAt : Nat
  /-- Counts as INTERACTIVE for its next launch. R189. -/
  promoted : Bool
  /-- launch_time, 64 bits. R181, R184. -/
  launchTime : Nat
  /-- Weight epoch bound at launch, 32 bits. R192. -/
  epochW : Nat
  /-- Adapter epoch bound at launch, 32 bits. R192. -/
  epochA : Nat
  /-- Bound library bank. R335. -/
  libBank : Nat
  /-- Sync bank, 0 or 1. R260. -/
  bank : Nat
  /-- Logical cores, ascending; empty until first launched. -/
  cores : List Nat
  /-- Order of launch. R193. -/
  launchSeq : Nat
  /-- Step it was pre-empted for. R195. -/
  preemptedBy : Option (Nat × Nat)
  /-- What each core saved. R275. -/
  saved : Tab SavedCore
  /-- Suspended with its cores held. R230. -/
  coresHeld : Bool
  /-- Faults taken since the last safe point: agent kind, agent, va. R234. -/
  faults : List (Nat × Nat × Nat)
  /-- Status of the fault it is suspended by. R227. -/
  faultStatus : Nat
  /-- Stopped at a bundle boundary by an unwarned loss. R51. -/
  interrupted : Bool
  /-- A record-kind mismatch of the step has been written to the Comet log. R348. -/
  kindNoted : Bool
  /-- Status it has ended with, 16 bits, optional. R197. -/
  ended : Option Nat
  /-- Timebase of its end, 64 bits. R197. -/
  endTime : Nat
  /-- Its completion is written back. R176, R231. -/
  writeBack : Bool
deriving DecidableEq, Repr

/-- An entry of the head's relay table (R202). -/
structure RelayEntry where
  /-- Member, 6 bits. -/
  member : Nat
  /-- Queue, 16 bits. -/
  queue : Nat
  /-- Master that wrote, 16 bits. -/
  master : Nat
  /-- Doorbell value, 64 bits. -/
  value : Nat
  /-- Order of arrival. -/
  order : Nat
deriving DecidableEq, Repr

/-- A switch that the head has still to forward: the member, the model and epoch, and the order below which doorbells go
first (R456). -/
structure SwitchOut where
  /-- Member, 6 bits. -/
  member : Nat
  /-- Model, 8 bits. -/
  model : Nat
  /-- Epoch, 32 bits. -/
  epoch : Nat
  /-- Doorbells ordered below it go first. -/
  before : Nat
deriving DecidableEq, Repr

/-- Queues, dispatch records, slots and the relay. -/
structure Dispatch where
  /-- Queue groups. R173. -/
  groups : Tab QGroup
  /-- Queues. R138. -/
  queues : Tab Queue
  /-- Steps read and not ended. R176, R181. -/
  steps : List StepRec
  /-- Doorbells latched so far, which orders them. R189. -/
  latches : Nat
  /-- Launches so far, which orders them. R193. -/
  launches : Nat
  /-- The CTAG last served in each class. R189. -/
  lastServed : Tab Nat
  /-- Pre-emption plan: waiting step and victims. R193. -/
  plans : List ((Nat × Nat) × List (Nat × Nat))
  /-- Relay table's pending entries, oldest first. R202. -/
  relay : List RelayEntry
  /-- Next relay order. R202. -/
  relayOrder : Nat
  /-- Switches still to be forwarded. R456. -/
  switches : List SwitchOut
  /-- Forwards in flight by member: all, and those of URGENT queues' reserve. R203. -/
  inFlight : Tab Nat
  /-- Forwards sent to each member: its forward sequence number. R203, R206. -/
  relaySent : Tab Nat
  /-- The member's acknowledged forward sequence number. R206. -/
  relayAcked : Tab Nat
  /-- Queue mirrors: member × 65,536 + queue. R204. -/
  mirrors : Tab Mirror
  /-- RLY DISCARDED, 32 bits. R136, R139. -/
  discarded : Nat
  /-- RLY FORWARDED, 32 bits. R136. -/
  forwarded : Nat
deriving DecidableEq, Repr

/-! ## Cores and dies -/

/-- A sync object (R260). -/
structure SyncObj where
  /-- Count, 32 bits. -/
  count : Nat
  /-- Owner CTAG, 12 bits, optional. -/
  owner : Option Nat
  /-- Step that holds it. -/
  step : Option (Nat × Nat)
  /-- Barrier mode. R264. -/
  barrier : Bool
  /-- Sense. R265. -/
  sense : Bool
  /-- Arrived in this phase. R265. -/
  arrived : Bool
  /-- Sense recorded by ARRIVE. R265. -/
  recSense : Bool
deriving DecidableEq, Repr

/-- A gather-buffer entry (R255): a line of the scratchpad and its valid bytes, by offset in the line. -/
structure GatherEntry where
  /-- Line of the scratchpad. -/
  line : Nat
  /-- Valid bytes by offset, 64 bytes. -/
  bytes : Tab Byte
  /-- Bundle that last wrote it, of those the core has issued. R259. -/
  wroteAt : Nat
deriving DecidableEq, Repr

/-- A tile buffer (R289–R291, R299): element codes by column, scale bytes by column. -/
structure Tile where
  /-- Element format, 8 bits. -/
  fmt : Nat
  /-- Block scales present. -/
  scaled : Bool
  /-- Rows (k) of the tile. -/
  kc : Nat
  /-- Columns. -/
  ncols : Nat
  /-- Rows that are valid. R291. -/
  kvalid : Nat
  /-- Element codes by column. R290. -/
  cols : List (List Nat)
  /-- Scale bytes by column. R290. -/
  scales : List (List Nat)
deriving DecidableEq, Repr

/-- A core (R241–R262, R289–R304). -/
structure CoreSt where
  /-- OFF, RETAINED, GATED or ACTIVE. R66. -/
  power : UnitState
  /-- X, p and v registers. R246. -/
  regs : CoreRegs
  /-- The registers as at the issue of the bundle whose slots are being executed. R244. -/
  issue : Option CoreRegs
  /-- Next bundle. R249. -/
  pc : Nat
  /-- Target of a branch taken in the bundle in hand. R249. -/
  branch : Option Nat
  /-- Slots of the bundle in hand that have executed. R244. -/
  slots : Nat
  /-- lc0–lc3, 4 loops. R249. -/
  loops : Tab LoopSt
  /-- Gather buffer, oldest first, at most 8. -/
  gather : List GatherEntry
  /-- 32 sync objects. -/
  sync : Tab SyncObj
  /-- Owner tag. R238. -/
  tag : Option Nat
  /-- Step on the core. R250. -/
  step : Option (Nat × Nat)
  /-- Relative index, 8 bits. R250, R278. -/
  rel : Nat
  /-- Broadcast group. R278. -/
  group : Nat
  /-- Ordered to stop at its next safe point. R195. -/
  stopOrdered : Bool
  /-- At an unsatisfied WAIT. R262. -/
  waiting : Bool
  /-- Stopped at a safe point for a DRAIN. R49. -/
  halted : Bool
  /-- END or EXIT executed. R250. -/
  ended : Bool
  /-- Its end is reported. R197. -/
  reported : Bool
  /-- Saved and free after a stop. R195. -/
  freed : Bool
  /-- Its save waits for a translation. R195, R225. -/
  saving : Bool
  /-- Credits spent, by engine × 16 + instance. R271. -/
  credits : Tab Nat
  /-- Descriptors whose completion signal has not left. R274. -/
  outstanding : Nat
  /-- Descriptors of a drop. R273. -/
  dropped : List QDesc
  /-- Active tile buffer. R289. -/
  active : Option Tile
  /-- Shadow tile buffer. R289. -/
  shadow : Option Tile
  /-- Accumulator store, 1,024 rows of 64 FP32. R292. -/
  acc : Tab (List Lane)
  /-- An invalid-bundle record is written for the step. R246. -/
  recInvalid : Bool
  /-- A schedule_check record is written for the step. R259. -/
  recSched : Bool
  /-- A tile record is written for the step. R311. -/
  recTile : Bool
  /-- Recent writes for schedule_check: bundle, offset, length. R259. -/
  recent : List (Nat × Nat × Nat)
  /-- Bundles issued, for schedule_check. R259. -/
  bundles : Nat
  /-- Layer mark. R445. -/
  mark : Nat
  /-- Last safe point's live set. -/
  lastSafept : Option Nat
  /-- Fetch buffer: bundle index to its 256 bits, 64 KiB. R279. -/
  fetchBuf : Tab Nat
  /-- A fetch that has missed. R279. -/
  fetchMiss : Option Nat
  /-- Matrix cycles allowed in the current window. R309, R513. -/
  allowance : Nat
  /-- Matrix cycles taken in the window. R309. -/
  spent : Nat
  /-- Clock: when it last issued a bundle, or became ACTIVE. R71. -/
  lastIssue : Nat
deriving DecidableEq, Repr

/-- A barrier combiner entry (R266, R267). -/
structure Combiner where
  /-- Function, 8 bits. -/
  function : Nat
  /-- Context, 12 bits. -/
  ctag : Nat
  /-- Pod key, 32 bits. -/
  key : Nat
  /-- Barrier, 3 bits. -/
  barrier : Nat
  /-- Queue, 16 bits. -/
  queue : Nat
  /-- Step, 64 bits. -/
  step : Nat
  /-- Phase. -/
  phase : Nat
  /-- Arrivals at die level. -/
  cores : Nat
  /-- Arrivals at device level. -/
  dies : Nat
  /-- Arrivals at pod level. -/
  devices : Nat
deriving DecidableEq, Repr

/-- A row or item of the descriptor in hand that another member serves. -/
structure RemoteItem where
  /-- Tag of the item, 32 bits. -/
  tag : Nat
  /-- Row of the descriptor. -/
  row : Nat
  /-- What came back. -/
  answer : Option RemoteAns
deriving DecidableEq, Repr

/-- An engine instance: its queue, its working state and its lane registers (R271, R312, R327). -/
structure EngineSt where
  /-- Descriptor queue, 256 entries. R271. -/
  queue : List QDesc
  /-- Descriptor begun and waiting. R273, R377, R493. -/
  inHand : Option QDesc
  /-- Its items at other members. R377, R493. -/
  items : List RemoteItem
  /-- Number of the next item sent, modulo 2^8. -/
  tagGen : Nat
  /-- Retired (R541). -/
  retired : Bool
  /-- Scatter Engine side table, at most 4. R414. -/
  side : List QDesc
  /-- Spill count of the SCATTER in hand, for its report. R425. -/
  spill : Nat
  /-- Function Unit lanes z0–z7, 8 of 64 lanes. R327. -/
  lanes : Tab (List Lane)
  /-- Function record in use. R332. -/
  func : Option FuncRec
  /-- Library bank that it lies in, 1 bit. R335. -/
  funcBank : Nat
  /-- END's result, 64 lanes. R327. -/
  result : Tab Lane
  /-- Library banks of a Function Unit that hold an uncorrectable error. R339. -/
  badBanks : List Nat
  /-- Contribution streams waiting at a Reducer's ingress, and those matched. R495. -/
  ingress : List ReduceChunk
deriving DecidableEq, Repr

/-- A compute die (R22, R62, R66, R68, R241, R270). -/
structure DieSt where
  /-- The die's power state. R66, R68. -/
  power : UnitState
  /-- Core PLL in use. R62. -/
  pll : Nat
  /-- Operating point in force, 4 bits. R66, R507. -/
  point : Nat
  /-- Operating point ordered, 4 bits, optional. R509. -/
  ordered : Option Nat
  /-- Clock: when it was ordered. R66. -/
  orderedAt : Nat
  /-- Logical quad to physical quad, 16 of 5 bits. R241. -/
  quadMap : Tab (Option Nat)
  /-- Retired physical quads. R243. -/
  retiredQuads : List Nat
  /-- Logical quads marked for retirement. R242, R243. -/
  retiring : List Nat
  /-- Commons slice owner tags, 12 bits a slice, optional. R238. -/
  sliceTag : Tab (Option Nat)
  /-- Commons slice power states, 2 bits a slice. R67. -/
  slicePower : Tab UnitState
  /-- Steps holding slices, one entry for each slice and step, in the order of their launches. R238. -/
  sliceHeld : List (Nat × (Nat × Nat))
  /-- Spare row blocks used, by slice. R541. -/
  spareRows : Tab Nat
  /-- Combiner entries, at most 128. R267. -/
  combiners : List Combiner
  /-- Engines by the engine index of R233. -/
  engines : Tab EngineSt
  /-- Waiting GATEs, at most 512. R445. -/
  gates : List QDesc
  /-- Blocked signals. R263. -/
  blocked : Nat
  /-- Die reset in progress. R78. -/
  resetting : Bool
  /-- Writes to it discarded during the reset. R82. -/
  lostWrites : Nat
  /-- The die is retired. R543. -/
  retired : Bool
deriving DecidableEq, Repr

/-- Cores, dies, and messages crossing the mesh. -/
structure Fleet where
  /-- The cores, 512 cores. R241. -/
  cores : Tab CoreSt
  /-- The compute dies, 8 dies. R22. -/
  dies : Tab DieSt
  /-- Signals in flight, oldest first. R261. -/
  signals : List SignalMsg
  /-- Barrier arrivals in flight, oldest first. R265. -/
  arrivals : List BarrierMsg
  /-- Barrier releases in flight, each with the die it goes to. R265, R266. -/
  releases : List (Nat × BarrierMsg)
  /-- Pod arrivals with no matching entry, at most 16. R267. -/
  heldArrivals : List BarrierMsg
  /-- Function library bank 0. R335. -/
  bank0 : Option Library
  /-- Function library bank 1. R335. -/
  bank1 : Option Library
  /-- Bank in force. R335. -/
  bankInForce : Nat
  /-- Library being staged. R335. -/
  libStaged : Option Library
  /-- Units ordered to wake and not yet ACTIVE. R72, R192. -/
  waking : List UnitRef
  /-- Mesh lane groups retired, by edge × 2 + direction. R542. -/
  lanes : Tab Nat
  /-- Mesh edges failed. R542. -/
  edgesDown : List Nat
deriving DecidableEq, Repr

/-! ## Memory -/

/-- A half of a die's tier window (R362): channels in service and whether it awaits rewriting. -/
structure HalfSt where
  /-- Channels in service, 6 bits. -/
  channels : Nat
  /-- Awaits rewriting. R363. -/
  lost : Bool
deriving DecidableEq, Repr

/-- Device memory by physical address: both tiers, Commons and scratchpads (R24). Unlisted bytes read zero. -/
structure Memory where
  /-- Both tiers, Commons and scratchpads. R24. -/
  cells : List Host.Cell
  /-- Poisoned 64-byte units, ascending. R365. -/
  poison : List Nat
deriving DecidableEq, Repr

/-- Halves by die × 4 + (0, 1 HBM halves; 2, 3 capacity halves), and the patrol's next unit. R362, R365. -/
structure Tiers where
  /-- Halves by die × 4 + kind, 32 halves. R362. -/
  halves : Tab HalfSt
  /-- Patrol scrubber's next unit. R365. -/
  patrol : Nat
  /-- The memories are in self-refresh. R49. -/
  selfRefresh : Bool
deriving DecidableEq, Repr

/-- States of a KV block record (R368). -/
inductive KvState where
  | free
  | held
  | stale
  | lost
deriving DecidableEq, Repr

/-- A KV block record (R369). -/
structure KvRec where
  /-- Sequence, 64 bits. -/
  sequence : Nat
  /-- Frame, 48 bits. -/
  framePa : Nat
  /-- Reference count, 16 bits. -/
  count : Nat
  /-- Owning CTAG, 12 bits. -/
  owner : Nat
  /-- Free, held, stale or lost, 2 bits. -/
  state : KvState
  /-- A move is under way. R382. -/
  moving : Bool
  /-- The block is in the partner pool. R380. -/
  inPartner : Bool
  /-- Incarnation of the owner, 16 bits. R384. -/
  incarnation : Nat
  /-- Open offer, 32 bits. R379. -/
  offer : Nat
  /-- Destination frame of the move, 32 bits. R382. -/
  moveFrame : Nat
  /-- PUT count, for a move's commit, 16 bits. R382. -/
  putGen : Nat
  /-- Hint, 2 bits. R383. -/
  hint : Nat
  /-- Clock: last GATHER, for the age field. R369. -/
  lastGather : Nat
  /-- Clock: when the hint was given. R383. -/
  hintAt : Nat
deriving DecidableEq, Repr

/-- States of a pool frame (R366, R367, R387). -/
inductive FrameState where
  | scrub
  | zeroed
  | own
  | partner
  | reserved
  | retired
deriving DecidableEq, Repr

/-- A KV pool (R366–R369). -/
structure Pool where
  /-- Base, 64 bits. -/
  base : Nat
  /-- Length, 64 bits. -/
  length : Nat
  /-- Log2 of the block size, 5 bits. -/
  log2 : Nat
  /-- Tier. -/
  tier : Nat
  /-- Records. R369. -/
  recs : Tab KvRec
  /-- Frame states; an unlisted frame awaits scrub. -/
  frames : Tab FrameState
  /-- Pool key, 64 bytes. R367. -/
  key : List Byte
  /-- Next frame of the rotation. R371. -/
  rotor : Nat
  /-- Moves: record and put_gen at the copy's start, and failed commits. R382. -/
  moves : List (Nat × Nat × Nat)
  /-- Blocks move out until free frames reach 1/16. R383. -/
  outflow : Bool
deriving DecidableEq, Repr

/-- An open offer (R379). -/
structure Offer where
  /-- Offer number, 32 bits. -/
  number : Nat
  /-- CTAG that offers, 12 bits. -/
  from_ : Nat
  /-- CTAG it is offered to, 12 bits. -/
  to_ : Nat
  /-- Pool, 6 bits. -/
  pool : Nat
deriving DecidableEq, Repr

/-- The KV block store. -/
structure KvStore where
  /-- KV pools. R366. -/
  pools : Tab Pool
  /-- Open offers. R379. -/
  offers : List Offer
  /-- Next offer number. R379. -/
  nextOffer : Nat
deriving DecidableEq, Repr

/-! ## Weights, placement and routing -/

/-- A shard record (R439). -/
structure Shard where
  /-- Layer, 16 bits. -/
  layer : Nat
  /-- Die, 8 bits. -/
  die : Nat
  /-- Form, 8 bits. -/
  form : Nat
  /-- Reader, 8 bits. -/
  reader : Nat
  /-- Members that hold it, 64 bits. -/
  mask : Nat
  /-- Address in the hbuf, 64 bits. -/
  hostAddr : Nat
  /-- Stored length, 64 bits. -/
  storedLen : Nat
  /-- Store address, 64 bits. -/
  storePa : Nat
  /-- Store length, 64 bits. -/
  storeLen : Nat
  /-- Staging address, 64 bits. -/
  stagePa : Nat
  /-- First tensor record, 32 bits. -/
  firstTensor : Nat
  /-- Tensor records, 32 bits. -/
  tensorCount : Nat
  /-- SHA-256 digest, 32 bytes. -/
  digest : List Byte
deriving DecidableEq, Repr

/-- A tensor record (R440). -/
structure Tensor where
  /-- Shard, 32 bits. -/
  shard : Nat
  /-- Format, 8 bits. -/
  fmt : Nat
  /-- Table, 8 bits. -/
  table : Nat
  /-- Center, 8 bits. -/
  center : Nat
  /-- Stored offset, 64 bits. -/
  storedOff : Nat
  /-- Expanded offset, 64 bits. -/
  expandedOff : Nat
  /-- Expanded length, 32 bits. -/
  expandedLen : Nat
deriving DecidableEq, Repr

/-- The tables of a weight image (R436–R440). -/
structure Image where
  /-- Model, 8 bits. R437. -/
  model : Nat
  /-- Epoch, 32 bits. R437. -/
  epoch : Nat
  /-- Protected. R444. -/
  protected_ : Bool
  /-- Members, 64 bits. -/
  mask : Nat
  /-- Layer records: first shard, count and so on. R438. -/
  layers : List (Nat × Nat × Nat)
  /-- Shard records. R439. -/
  shards : List Shard
  /-- Tensor records. R440. -/
  tensors : List Tensor
  /-- Staging window of each die, 64 bits a die. R437. -/
  stageBase : List Nat
  /-- Length of the staging window in 64 KiB, 32 bits a die. R437. -/
  stageLen : List Nat
deriving DecidableEq, Repr

/-- Where a swap stands (R454–R464). -/
inductive SwapPhase where
  /-- No epoch is open. -/
  | none_
  /-- Opened by EPOCH_BEGIN. -/
  | opened
  /-- Committed; the container is being read and checked. -/
  | checking
  /-- Distributing the layer at the frontier. -/
  | staging
  /-- Copying it. -/
  | copying
  /-- Copied here; waits for the other members. -/
  | waiting
  /-- Aborted; the old image is being restored up to the highest frontier. -/
  | restoring
deriving DecidableEq, Repr

/-- A resident model (R435). -/
structure Model where
  /-- Resident. -/
  resident : Bool
  /-- Epoch in service, 0 for none, 32 bits. -/
  service : Nat
  /-- Its image. -/
  image : Option Image
  /-- Epoch being opened or swapped in, 32 bits. R454. -/
  opened : Nat
  /-- Hbuf of the epoch being opened. R454. -/
  source : Option Hbuf
  /-- Its image. R455. -/
  openImage : Option Image
  /-- Stage of the swap. R454–R464. -/
  phase : SwapPhase
  /-- Layers committed here. R459. -/
  frontier : Nat
  /-- Layers whose pod-wide commit is journalled. R459. -/
  podCommitted : Nat
  /-- Members that have reported the layer. -/
  reported : Nat
  /-- Cuts by queue. R456. -/
  cuts : Tab Nat
  /-- Frames received and good of the layer in distribution: shard × 2^24 + frame. R453. -/
  frames : Tab Nat
  /-- Shards verified. R459. -/
  verified : List Nat
  /-- Failed reads by shard. R453. -/
  badReads : Tab Nat
  /-- Restore bound f. R464. -/
  restoreTo : Nat
  /-- Where the restored layer's cycle stands: 0 staging, 1 copied, 2 reported, 2 bits. R464. -/
  restoreStep : Nat
  /-- The status of the EPOCH_COMMIT notice that waits for a restore. R463, R464. -/
  endStatus : Nat
  /-- The hbuf of the epoch in service, for a restore. R464. -/
  serviceSource : Option Hbuf
  /-- Model key, 64 bytes. R444. -/
  key : List Byte
deriving DecidableEq, Repr

/-- An adapter epoch in place (R449). -/
structure AdapterEpoch where
  /-- Epoch, 32 bits. -/
  epoch : Nat
  /-- Address of the container, 64 bits. -/
  sourceVa : Nat
  /-- Length, 64 bits. -/
  length : Nat
  /-- Rank, 16 bits. -/
  rank : Nat
  /-- Format, 8 bits. -/
  fmt : Nat
  /-- Tensor records: layer, base tensor, k, n, D offset, U offset. -/
  tensors : List (List Nat)
  /-- Start of the data section, 64 bits. -/
  dataOff : Nat
deriving DecidableEq, Repr

/-- An adapter number (R450). -/
structure Adapter where
  /-- Context that holds the number, 12 bits. -/
  ctag : Nat
  /-- Epoch in place. -/
  resident : Option AdapterEpoch
  /-- Epoch that retires when its last step ends. -/
  retiring : Option AdapterEpoch
  /-- The deferred ADAPTER_LOAD whose notice waits for the retiring epoch. -/
  noticeItem : Nat
deriving DecidableEq, Repr

/-- A layer of a placement table (R417): its experts' replicas as device and local index. -/
structure PlaceLayer where
  /-- Replicas of each expert: device and local index. -/
  experts : List (List (Nat × Nat))
deriving DecidableEq, Repr

/-- A placement table in force (R417). -/
structure Placement where
  /-- Version, 32 bits. -/
  version : Nat
  /-- Members, 64 bits. -/
  mask : Nat
  /-- Bytes of a row, 32 bits. -/
  rowBytes : Nat
  /-- Slots for each source, 16 bits. -/
  perSource : Nat
  /-- Layers. -/
  layers : List PlaceLayer
deriving DecidableEq, Repr

/-- What a translated part of an access reaches: device memory, with the key of a protected range, or host memory. -/
inductive Place where
  | dev (pa : Nat) (key : Option (List Byte)) (expand : Bool)
  | host (addr : Nat) (ats noSnoop : Bool)
deriving DecidableEq, Repr

/-- A part of an access that lies in one range. -/
structure Part where
  /-- Address, 64 bits. -/
  va : Nat
  /-- Length. -/
  len : Nat
  /-- Range index, 32 bits. -/
  ri : Nat
  /-- Where it lies. R216. -/
  place : Place
deriving DecidableEq, Repr

/-- Counters of an expert of an open entry (R431): sent, spilled, received, bytes. -/
structure ExpertCount where
  /-- Rows sent, 64 bits. -/
  sent : Nat
  /-- Rows spilled, 64 bits. -/
  spilled : Nat
  /-- Rows received, 64 bits. -/
  received : Nat
  /-- Bytes, 64 bits. -/
  bytes : Nat
deriving DecidableEq, Repr

/-- An open entry (R420). -/
structure OpenEntry where
  /-- What messages match it by. -/
  m : SeMatch
  /-- Core that opened it, 9 bits. -/
  core : Nat
  /-- Scatter Engine that opened it, 16 bits. R232. -/
  agent : Nat
  /-- Its sync bank. -/
  bank : Nat
  /-- Queue, 16 bits. -/
  queue : Nat
  /-- Step, 64 bits. -/
  step : Nat
  /-- Model, 8 bits. -/
  model : Nat
  /-- Queue region as translated at the open. -/
  queueParts : List Part
  /-- Combine area as translated at the open. -/
  combineParts : List Part
  /-- Counter records as translated at the open. R431. -/
  counterParts : List Part
  /-- Handle and bank signalled when the rows are in, 8 bits. R425, R431. -/
  readySync : Nat
  /-- Handle and bank signalled when the returns are in, 8 bits. R430, R431. -/
  returnSync : Nat
  /-- Bytes of an output row, 32 bits. -/
  outRowBytes : Nat
  /-- Rows of the home batch, 32 bits. -/
  homeRows : Nat
  /-- Current sub-step, 16 bits. -/
  subStep : Nat
  /-- The sub-step's rows are all in. R424. -/
  ready : Bool
  /-- Reports of the sub-step: (source × 16 + lane) to spill count. -/
  reports : Tab Nat
  /-- Fill of the sub-step: local × 1,024 + source × 16 + lane to slots filled. -/
  fill : Tab Nat
  /-- Counters by expert. -/
  counts : Tab ExpertCount
deriving DecidableEq, Repr

/-- A recorded grant set (R421): members that have granted, as a mask, and slots used by
lane × 2^20 + granter × 2^13 + local index; lanes that have used it, as a mask. -/
structure GrantRec where
  /-- What it matches by. -/
  m : SeMatch
  /-- Sub-step, 16 bits. -/
  subStep : Nat
  /-- Members that have granted, 64 bits. -/
  mask : Nat
  /-- Slots used, by lane × 2^20 + granter × 2^13 + local index. R422. -/
  used : Tab Nat
  /-- Lanes that have used it. -/
  lanes : Nat
deriving DecidableEq, Repr

/-- A placement table that the head installs: the table, what each member answered, and whether its commit has been ordered (R418). -/
structure PlaceJob where
  /-- The table. -/
  table : Placement
  /-- Members' answers: a status each, 16 bits. -/
  answers : Tab Nat
  /-- The members have been told to commit. -/
  committing : Bool
deriving DecidableEq, Repr

/-- Models, adapters, placement and expert routing. -/
structure Weights where
  /-- Models. R435. -/
  models : Tab Model
  /-- Adapters. R450. -/
  adapters : Tab Adapter
  /-- Placement tables in force. R417. -/
  placements : Tab Placement
  /-- Open entries. R420. -/
  entries : List OpenEntry
  /-- Recorded grant sets. R421. -/
  grants : List GrantRec
  /-- Grants kept at this granter because a table was full. R421. -/
  keptGrants : List GrantMsg
  /-- Placement tables staged here and not yet committed, by model. R418. -/
  stagedTables : Tab Placement
  /-- Placement tables being installed by this head, by model. R418. -/
  placeJobs : Tab PlaceJob
deriving DecidableEq, Repr

/-! ## Fabric -/

/-- Conditions of a link (R471). -/
inductive LinkState where
  | down
  | training
  | identified
  | matched
  | quarantined
  | mgmtOnly
  | failed
deriving DecidableEq, Repr

/-- A flit that waits for a credit on a link, or in its receive buffer: its virtual channel, its place in its packet, its port sequence number and payload. -/
structure TxFlit where
  /-- Virtual channel, 3 bits. -/
  vc : Nat
  /-- First of its packet. -/
  first : Bool
  /-- Last of its packet. -/
  eop : Bool
  /-- Port sequence number, 14 bits. R480. -/
  portSeq : Nat
  /-- Payload. R472. -/
  payload : List Byte
deriving DecidableEq, Repr

/-- A Fendon link (R467–R477). -/
structure Link where
  /-- RLY.LINK.STATE, 3 bits. R471. -/
  state : LinkState
  /-- Training stage reached: 0 none, 1 electrical, 2 alignment, 3 identity, 2 bits. R468. -/
  stage : Nat
  /-- Training attempts. R468. -/
  attempts : Nat
  /-- RETRIES, 16 bits. R471. -/
  retries : Nat
  /-- DEGRADED. R471. -/
  degraded : Bool
  /-- Clock: retransmissions of the last second. R471. -/
  retryClocks : List Nat
  /-- Clock: when DEGRADED was set. R541. -/
  degradedAt : List Nat
  /-- Clock: when the link last failed. R471. -/
  failedSince : Nat
  /-- Clock: first failure since the link last trained. R541. -/
  failedFrom : Option Nat
  /-- The neighbour's identity record. R470. -/
  neighbour : Option IdentRec
  /-- Effective minor with the neighbour, 8 bits. R470. -/
  effMinor : Nat
  /-- Credits held. R475, R477. -/
  credits : Tab Nat
  /-- Receive buffer, oldest first. R477. -/
  rxBuf : List TxFlit
  /-- Next sequence number to send, 12 bits. R472. -/
  txSeq : Nat
  /-- Next sequence number expected, 12 bits. R472. -/
  rxSeq : Nat
  /-- Discarding after a CRC failure. R473. -/
  discarding : Bool
  /-- Replay buffer, oldest first. R473. -/
  replay : List (List Byte)
  /-- Retransmissions of the same flit in a row. R473. -/
  sameRetries : Nat
  /-- Flits that wait for credits, oldest first. R476. -/
  txq : List TxFlit
  /-- Direct channel served last, 4 bits. R476. -/
  turn : Nat
  /-- Virtual channels of the last 63 flits sent, newest first. R476. -/
  recent : List Nat
  /-- Flits sent since each direct channel that waits was served last. R476. -/
  waited : Tab Nat
  /-- The neighbour has the link in a port of its own. R479. -/
  farPort : Bool
  /-- Packets of routed classes being received. R474. -/
  rxPart : Tab (List Byte)
  /-- Retired. R541. -/
  retired : Bool
deriving DecidableEq, Repr

/-- A logical port (R479, R482). -/
structure PortDef where
  /-- Links of the port, 18 bits. -/
  mask : Nat
  /-- Member it leads to, 6 bits. -/
  neighbour : Nat
  /-- Being removed. R482. -/
  removing : Bool
  /-- Next port sequence number to send, 14 bits a virtual channel. R480. -/
  txPortSeq : Tab Nat
  /-- Next port sequence number to deliver, 14 bits a virtual channel. R480. -/
  rxPortSeq : Tab Nat
  /-- Link dealt to last, 5 bits. R480. -/
  turn : Nat
  /-- Reorder buffer: virtual channel × 2^14 + port_seq to the payload received and whether it is whole. R480. -/
  parts : Tab (List Byte × Bool)
deriving DecidableEq, Repr

/-- A member record of a plan (R483): links as planned, neighbour, neighbour's link. -/
structure PlanMember where
  /-- Module serial number, 64 bits. -/
  serial : Nat
  /-- Device number, 6 bits. -/
  device : Nat
  /-- Rack 0–3, 8 bits. -/
  rack : Nat
  /-- RACK_POS expected, 8 bits. -/
  rackPos : Nat
  /-- For each link: neighbour and its link. -/
  links : List (Option (Nat × Nat))
deriving DecidableEq, Repr

/-- A circuit plan (R483). -/
structure Plan where
  /-- Head, 6 bits. -/
  head : Nat
  /-- Pod identity, 32 bits. -/
  podId : Nat
  /-- Version, 32 bits. -/
  version : Nat
  /-- Members, 64 bits. -/
  mask : Nat
  /-- Member records. -/
  members : List PlanMember
deriving DecidableEq, Repr

/-- A message in the forwarding store (R487): its destination, virtual channel, packet bytes and the clock since which its
destination has had no route. -/
structure Stored where
  /-- Destination, 6 bits. -/
  dest : Nat
  /-- Source, 6 bits. -/
  src : Nat
  /-- Virtual channel, 3 bits. -/
  vc : Nat
  /-- The packet. -/
  bytes : List Byte
  /-- Clock: since when the destination has had no route. -/
  noRouteSince : Option Nat
deriving DecidableEq, Repr

/-- A packet of a direct class that waits for a port to its destination (R488). -/
structure DirectMsg where
  /-- Destination, 6 bits. -/
  dest : Nat
  /-- Virtual channel, 3 bits. -/
  vc : Nat
  /-- The packet. -/
  bytes : List Byte
deriving DecidableEq, Repr

/-- A member's staging report (R485, R498): its offset from the head and whether it will step. -/
structure PlanReport where
  /-- Member, 6 bits. -/
  member : Nat
  /-- Offset from the head. R498. -/
  offset : Int
  /-- It will step its timebase. R498. -/
  steps : Bool
deriving DecidableEq, Repr

/-- A command forwarded to a member and not answered to the end: the function as the relay numbers it, the command's header and
opcode, and whether its notice is what is still due (R157, R158). -/
structure Forwarded where
  /-- Member, 6 bits. -/
  member : Nat
  /-- Function as the relay numbers it, 8 bits. -/
  fn : Nat
  /-- Command's header. R140. -/
  hdr : CmdHdr
  /-- Opcode, 16 bits. -/
  opcode : Nat
  /-- The notice is what is still due. R158. -/
  notice : Bool
deriving DecidableEq, Repr

/-- The fabric, the pod and pod time. -/
structure Fabric where
  /-- Fendon links, 18 links. R467. -/
  links : Tab Link
  /-- Logical ports. R479. -/
  ports : Tab PortDef
  /-- Plan in force. R484. -/
  plan : Option Plan
  /-- Plan staged. R484, R485. -/
  staged : Option Plan
  /-- Plan dispatched by the head. R485. -/
  planBytes : List Byte
  /-- Staging reports at the head. R485. -/
  reports : List PlanReport
  /-- Members that have committed, 64 bits. R485. -/
  committed : Nat
  /-- Clock: when the head dispatched the plan. R485. -/
  dispatchedAt : Nat
  /-- Device number, 6 bits. R136 (RLY.POD.DEVICE). -/
  device : Nat
  /-- Pod state, 2 bits. R482, R490. -/
  podState : Nat
  /-- RLY.MEMBERS, 64 bits. R136, R489. -/
  members : Nat
  /-- Clock of the last heartbeat of each member. R489. -/
  beats : Tab Nat
  /-- Members lost whose mirrors the head has not refreshed since, 64 bits. R205. -/
  unrefreshed : Nat
  /-- Forwarding store: partitions 0–3, oldest first. R487. -/
  store : Tab (List Stored)
  /-- Packets of the direct classes that wait, oldest first. R488. -/
  direct : List DirectMsg
  /-- Messages discarded for want of a route. R487. -/
  noRoute : Nat
  /-- TIME.STATUS.OFFSET, 32 bits, signed. R130, R498. -/
  offset : Int
  /-- TIME.STATUS.SLEWING. R130, R498. -/
  slewing : Bool
  /-- TIME.STATUS.POD_LOCKED. R130, R497. -/
  locked : Bool
  /-- Clock: last time message. R497. -/
  lastTime : Nat
  /-- Forwarded commands that await replies or notices. R157, R158. -/
  forwardedCmds : List Forwarded
deriving DecidableEq, Repr

/-! ## Power control -/

/-- Power control of a compute die (R507–R532, R537). -/
structure DiePower where
  /-- Phases in service, 0–16, and those excluded. R528. -/
  phasesOut : List Nat
  /-- Current ceiling, 0–1,536 sixteenths. R529. -/
  currentCeil : Nat
  /-- Thermal ceiling, 0–1,536 sixteenths. R532. -/
  thermalCeil : Nat
  /-- Clock: when the thermal ceiling came into force. R509, R532. -/
  thermalSince : Nat
  /-- Pace of the thermal limit, 1–8. R532. -/
  thermalPace : Nat
  /-- Clock of the last point change. R509. -/
  pointAt : Nat
  /-- Hottest sensor at the last sample, 1/16 °C, signed. R532. -/
  hot : Int
  /-- Hottest sensor of the present ms, 1/16 °C, signed. R537. -/
  hotMax : Int
  /-- PWR.DIE.TEMP_MAX, °C, signed. R537. -/
  tempMax : Int
  /-- Droop clamp in force. R523. -/
  droop : Bool
  /-- Clock: when the clamp began. R524. -/
  droopSince : Nat
  /-- The second that droopTime belongs to. R524. -/
  droopSecond : Nat
  /-- Clock: last low reading. R523. -/
  lastLow : Nat
  /-- Clamps in the current ms. R524. -/
  droopsNow : Nat
  /-- PWR.DIE.DROOPS: clamps in the last ms. R537. -/
  droops : Nat
  /-- Clock: clamp time in the current second. R524. -/
  droopTime : Nat
  /-- The second's record is written. R524. -/
  droopRecorded : Bool
  /-- Correction of the estimate, 1/100 W, signed. R511. -/
  correction : Int
  /-- The sense is excluded. R530. -/
  senseOut : Bool
  /-- Mean estimate in W. R537. -/
  dieW : Nat
  /-- Tulle: currents of the last 8 µs, newest first. R525. -/
  currents : List Nat
  /-- Tulle: filling cores. R525. -/
  filling : Nat
  /-- A core-rail setpoint commanded below the point's fused voltage, in mV. R508. -/
  railMv : Option Nat
deriving DecidableEq, Repr

/-- Power, droop and thermal control. -/
structure PowerCtl where
  /-- Cap in force in W, 12 bits. R131, R517. -/
  cap : Nat
  /-- Matched mode (PWR.STATE.MATCHED). R131, R518, R517. -/
  matched : Bool
  /-- Quota in 1/16, 0–1,536. R513, R536. -/
  q : Nat
  /-- Limiter pace, 1–8. R515. -/
  pace : Nat
  /-- Trim, 1/8 W. R512. -/
  trim : Nat
  /-- Intervals over the limit. R512. -/
  overCount : Nat
  /-- Clock: governor's last heartbeat. R521. -/
  govBeat : Nat
  /-- Governor clamp. R521. -/
  govClamp : Bool
  /-- Clock: when the clamp was set. R521. -/
  clampAt : Nat
  /-- Coolant reduction, 1/8 W. R533. -/
  coolant : Nat
  /-- Inlet temperature, 1/16 °C, signed. R131, R533. -/
  inlet : Int
  /-- Outlet temperature, 1/16 °C, signed. R131. -/
  outlet : Int
  /-- Clock: last inlet record. R533. -/
  inletRecAt : Option Nat
  /-- Clock of the last 0x020D record. R518. -/
  floorRecAt : Option Nat
  /-- PWR.POWER mean, 16 bits. R131. -/
  meanW : Nat
  /-- PWR.POWER peak, 16 bits. R131. -/
  peakW : Nat
  /-- PWR.INPUT.IMAIN, in 10 mA, 16 bits. R131. -/
  imain : Nat
  /-- PWR.ENERGY, 64 bits. R131. -/
  energyMj : Nat
  /-- Power control of each die, 8 dies. R507. -/
  dies : Tab DiePower
  /-- Phases lost on the HBM, LPDDR5X and I/O-die rails. R531. -/
  railPhases : Tab Nat
deriving DecidableEq, Repr

/-! ## Reliability -/

/-- An entry of the books' history: clocks of rebuilds and whether the last audit found it out of balance. R567. -/
structure Book where
  /-- The last audit found it out of balance. -/
  suspect : Bool
  /-- Clock: rebuilds of it. -/
  rebuilds : List Nat
deriving DecidableEq, Repr

/-- Retirement, audits and dumps. -/
structure Reliability where
  /-- Units retired, newest first. R541. -/
  retired : List UnitRef
  /-- Corrected errors: unit and clock. R540, R541. -/
  corrected : List (UnitRef × Nat)
  /-- Uncorrectable errors: unit and clock. R540, R541. -/
  uncorrected : List (UnitRef × Nat)
  /-- The books' history. R567. -/
  books : Tab Book
  /-- LOG.DUMP.VALID. R555. -/
  dumpValid : Bool
  /-- LOG.DUMP.WHERE, 2 bits. R555. -/
  dumpWhere : Nat
  /-- LOG.DUMP.NUMBER, 32 bits. R555. -/
  dumpNumber : Nat
  /-- Host region selected for the next dump; none for the reserved region. R553. -/
  dumpHost : Option Hbuf
  /-- A dump's cause, time and LOG.COUNT as last written. R556. -/
  dump : Option (Nat × Nat × Nat)
deriving DecidableEq, Repr

/-! ## The machine -/

/-- What an abandoned start goes back to (R573): the units' retirement and sparing, the halves of the tiers, the links, the
configuration and the reserved dump region as they stood when phase 0x3 began. -/
structure StartMark where
  cfg : Config_
  dies : Tab DieSt
  lanes : Tab Nat
  edgesDown : List Nat
  halves : Tab HalfSt
  links : Tab Link
  rel : Reliability
deriving DecidableEq, Repr

/-- The state of the block. -/
structure State where
  /-- Commands waiting, first in, first out. -/
  pending : List Instr
  pp    : PowerPath
  aon   : AlwaysOn
  cfg   : Config_
  cx    : Complexes
  mbx   : Mailboxes
  host  : HostIf
  ctx   : Contexts
  dq    : Dispatch
  fleet : Fleet
  mem   : Memory
  tiers : Tiers
  kv    : KvStore
  wt    : Weights
  fab   : Fabric
  pwr   : PowerCtl
  rel   : Reliability
  /-- What an abandonment of the start under way restores. R573. -/
  mark  : Option StartMark
  /-- What has left the block, newest first (the model's own field). -/
  out   : List Output
  /-- Free values drawn so far (the model's own field; no statement rests on its value). -/
  drawn : Nat
deriving DecidableEq, Repr

/-! ## Reset -/

/-- A manifest that lists, for steppings and for the four kinds of image, every version 1 (R559). -/
def factoryManifest : List ManifestEntry :=
  [⟨1, 0, 0, 0⟩, ⟨2, 1, 1, 1⟩, ⟨2, 2, 1, 1⟩, ⟨2, 3, 1, 1⟩, ⟨2, 4, 1, 1⟩, ⟨3, 1, 1, 1⟩, ⟨3, 2, 1, 1⟩]

/-- The image set that both flash slots hold as shipped (R1, R89), all of version 1: log entry 4, DESIGN CHOICE. -/
def factorySet : ImageSet :=
  { setVersion := 1, security := 0, floorRaise := false
    images := [⟨1, 1, factoryManifest⟩, ⟨2, 1, factoryManifest⟩, ⟨3, 1, factoryManifest⟩, ⟨4, 1, factoryManifest⟩]
    library := none, minor := 4, sigOk := true }

/-- A host port as it stands without power. -/
def HostPort.off : HostPort :=
  { up := false, perst := false, cfgReady := false, ide := [], vfs := 0, pfMem := false, vfMem := false, posted := [] }

/-- The Supervisor-only region of a flash device in which nothing is enrolled or stored. -/
def SiteRegion.blank : SiteRegion := { key := none, digest := [], layer := none, floor := 0 }

/-- The module as it stands before the always-on domain powers on, which is what the widest reset starts from
(R55, R64, R78, R84): OFF, every store empty, flash and fuses as shipped. Values the spec does not give are those of
log entry 4. -/
def State.reset : State where
  pending := []
  pp :=
    { state := .off, phase := 0, vmainMv := 0, vauxMv := 0, mainSense := false, hotSwap := .closed, mainGood := false
      vauxGood := false, pwrfail := false, mainGoodSince := 0, pwrfailHighSince := 0, mainCeasedAt := 0, mainCeased := false, hotSwapAt := 0, rideMin := 7000000
      mainAbsentAt := 0, vauxCeasedAt := 0, drainEntry := 0
      retainEntry := 0, windowRestarts := 0, warned := false, interrupted := 0, hold := false, thermalHold := false
      thermalHoldSince := 0, stopping := false, aonPowered := false }
  aon :=
    { lead := 0, lostA := false, lostB := false, elected := false, heartbeatAt := 0, timebase := 0, clock := 0, boot := 0, slewLeft := 0
      slewTicks := 64, rackPos := 0, rackPin := 15, logCount := 0, ring := [], ringFollow := [], intake := []
      intakeLost := 0, intakeLostCode := 0, bmcMark := 0 }
  cfg :=
    { serial := 1, stepping := 0, minor := 4, flashA := ⟨true, some factorySet, .blank⟩, flashB := ⟨true, some factorySet, .blank⟩
      preferred := 0, startedFrom := 0, securityFloor := 0
      site := none, runtime := [], siteStart := none, bindingLocked := false }
  cx :=
    { active := 0, stateA := .absent, stateB := .absent, standbyReady := false, takeovers := 0, dispBeat := 0
      supBeat := 0, adopting := false, journal := [], nextId := 0, deferred := [], waiting := [], held := [], answers := []
      l2 := [], staged := none, activating := false, stagedInStandbyOnly := false, stageItems := [], running := none, powerA := false, powerB := false }
  mbx := { chans := [], sends := 0, serviceFrom := 0 }
  host := { portA := .off, portB := .off, fns := [], reads := [], nextRead := 0, atc := [], atsAsked := [], atsRefused := [], atsInval := [] }
  ctx :=
    { ctxs := [], incarnation := [], grants := [], zeroing := [], programs := [], roots := [], caches := []
      walks := [], invalidating := [], dumpBase := none }
  dq :=
    { groups := [], queues := [], steps := [], latches := 0, launches := 0, lastServed := [], plans := [], relay := []
      relayOrder := 0, switches := [], inFlight := [], relaySent := [], relayAcked := [], mirrors := [], discarded := 0, forwarded := 0 }
  fleet :=
    { cores := [], dies := [], signals := [], arrivals := [], releases := [], heldArrivals := [], bank0 := none, bank1 := none
      bankInForce := 0, libStaged := none, waking := [], lanes := [], edgesDown := [] }
  mem := { cells := [], poison := [] }
  tiers := { halves := [], patrol := 0, selfRefresh := false }
  kv := { pools := [], offers := [], nextOffer := 1 }
  wt := { models := [], adapters := [], placements := [], entries := [], grants := [], keptGrants := [], stagedTables := [], placeJobs := [] }
  fab :=
    { links := [], ports := [], plan := none, staged := none, planBytes := [], reports := [], committed := 0, dispatchedAt := 0
      device := 0, podState := 0, members := 1, beats := [], unrefreshed := 0, store := [], direct := [], noRoute := 0, offset := 0, slewing := false, locked := false, lastTime := 0
      forwardedCmds := [] }
  pwr :=
    { cap := 3600, matched := false, q := 1536, pace := 8, trim := 0, overCount := 0, govBeat := 0, govClamp := false
      clampAt := 0, coolant := 0, inlet := 0, outlet := 0, inletRecAt := none, floorRecAt := none, meanW := 0
      peakW := 0, imain := 0, energyMj := 0, dies := [], railPhases := [] }
  rel :=
    { retired := [], corrected := [], uncorrected := [], books := [], dumpValid := false, dumpWhere := 0
      dumpNumber := 0, dumpHost := none, dump := none }
  mark := none
  out := []
  drawn := 0

end Sys2Proof.Machine
end

