-- ==== Sys2Proof/Machine/Ops.lean ====
section
/-! DEFINITION. The shared operations: sparse tables, bytes, device memory, comet records, interrupts, fault rings. -/

namespace Sys2Proof.Machine

/-- What a command answers. -/
abbrev Out := Host.Outcome State Fault Refusal

/-! ## Sparse tables -/

/-- The value listed for a number. -/
def tabGet? {α : Type} : Tab α → Nat → Option α
  | [], _ => none
  | (k, v) :: r, i => if k = i then some v else tabGet? r i

/-- The value of a number, `d` where it is not listed. -/
def tabGet {α : Type} (d : α) (t : Tab α) (i : Nat) : α := (tabGet? t i).getD d

/-- The table with the value of a number set. -/
def tabSet {α : Type} : Tab α → Nat → α → Tab α
  | [], i, v => [(i, v)]
  | (k, w) :: r, i, v => if i < k then (i, v) :: (k, w) :: r else if i = k then (i, v) :: r else (k, w) :: tabSet r i v

/-- The table without a number. -/
def tabDel {α : Type} (t : Tab α) (i : Nat) : Tab α := t.filter fun e => e.1 != i

/-- The table with each value changed. -/
def tabMap {α : Type} (f : Nat → α → α) (t : Tab α) : Tab α := t.map fun e => (e.1, f e.1 e.2)

/-- The table with one value changed, `d` standing for an unlisted one. -/
def tabMod {α : Type} (d : α) (t : Tab α) (i : Nat) (f : α → α) : Tab α := tabSet t i (f (tabGet d t i))

/-! ## Bits and bytes -/

/-- Bits `lo` to `lo + n - 1` of a number. -/
def bits (v lo n : Nat) : Nat := v / 2 ^ lo % 2 ^ n

/-- One bit of a number. -/
def bit (v i : Nat) : Bool := v / 2 ^ i % 2 == 1

/-- A flag as a number. -/
def b2n (b : Bool) : Nat := if b then 1 else 0

/-- A flag placed at a bit. -/
def flag (b : Bool) (i : Nat) : Nat := b2n b * 2 ^ i

/-- The `n` bytes of a number, low byte first (R13). -/
def leBytes : Nat → Nat → List Byte
  | 0, _ => []
  | n + 1, v => BitVec.ofNat 8 v :: leBytes n (v / 256)

/-- The number that bytes spell, low byte first (R13). -/
def leNat : List Byte → Nat
  | [] => 0
  | b :: r => b.toNat + 256 * leNat r

/-- The number that bytes spell, high byte first. -/
def beNat (bs : List Byte) : Nat := leNat bs.reverse

/-- The field of `n` bytes at an offset. -/
def fieldAt (bs : List Byte) (off n : Nat) : Nat := leNat ((bs.drop off).take n)

/-- The bytes of a field. -/
def bytesAt (bs : List Byte) (off n : Nat) : List Byte := (bs.drop off).take n

/-- Whether every byte of a field is zero. -/
def zeroAt (bs : List Byte) (off n : Nat) : Bool := (bytesAt bs off n).all (· == 0)

/-- A list of bytes with some of them replaced. -/
def putAt (bs : List Byte) (off : Nat) (new : List Byte) : List Byte := bs.take off ++ new ++ bs.drop (off + new.length)

/-- A signed value as a number of `n` bits. -/
def ofSigned (n : Nat) (v : Int) : Nat := (v % (2 ^ n : Int)).toNat

/-- A number of `n` bits as a signed value. -/
def toSigned (n : Nat) (v : Nat) : Int := if bit v (n - 1) then (v % 2 ^ n : Int) - 2 ^ n else (v % 2 ^ n : Int)

/-- Bits set in a number, below `n`. -/
def popCount : Nat → Nat → Nat
  | 0, _ => 0
  | n + 1, v => v % 2 + popCount n (v / 2)

/-- The positions of the bits set in a number, below `n`, ascending. -/
def bitList (n v : Nat) : List Nat := (List.range n).filter fun i => bit v i

/-- A mask with one bit set. -/
def setBit (v i : Nat) : Nat := if bit v i then v else v + 2 ^ i

/-- A mask with one bit cleared. -/
def clearBit (v i : Nat) : Nat := if bit v i then v - 2 ^ i else v

/-- Keeps the first of equal elements. -/
def dedup {α : Type} [BEq α] : List α → List α
  | [] => []
  | a :: r => a :: (dedup r).filter (fun b => !(b == a))

/-- The least element by a key; the first of equals. -/
def minBy {α : Type} (key : α → Nat) : List α → Option α
  | [] => none
  | a :: r => match minBy key r with
    | none => some a
    | some b => if key a ≤ key b then some a else some b

/-- Insertion by a key, after equal keys. -/
def insertBy {α : Type} (key : α → Nat) (a : α) : List α → List α
  | [] => [a]
  | b :: r => if key a < key b then a :: b :: r else b :: insertBy key a r

/-- A list in ascending order of a key, equal keys in their order. -/
def sortBy {α : Type} (key : α → Nat) (l : List α) : List α := l.foldl (fun acc a => insertBy key a acc) []

/-- A list in chunks of `n`. -/
def chunks {α : Type} (n : Nat) : Nat → List α → List (List α)
  | 0, _ => []
  | fuel + 1, l => if l.isEmpty then [] else l.take n :: chunks n fuel (l.drop n)

/-! ## Device memory (R24): listed bytes in ascending address, none of them zero -/

/-- What an unlisted byte reads as: phase 0x6 and every wake from OFF leave zeros (R73, R84; log entry 3). -/
def memDefault : Byte := 0

/-- The byte at an address of a list of cells. -/
def cellsRead : List Host.Cell → Nat → Byte
  | [], _ => memDefault
  | (k, v) :: r, a => if k = a then v else if a < k then memDefault else cellsRead r a

/-- The cells with one byte written, in canonical form. -/
def cellsWrite : List Host.Cell → Nat → Byte → List Host.Cell
  | [], a, b => if b = memDefault then [] else [(a, b)]
  | (k, v) :: r, a, b =>
    if a < k then (if b = memDefault then (k, v) :: r else (a, b) :: (k, v) :: r)
    else if a = k then (if b = memDefault then r else (a, b) :: r)
    else (k, v) :: cellsWrite r a b

/-- The cells outside a region. -/
def cellsZero (base len : Nat) (c : List Host.Cell) : List Host.Cell :=
  c.filter fun e => decide (e.1 < base ∨ base + len ≤ e.1)

/-- Addresses strictly ascend and no byte equals the default. -/
def cellsWf : List Host.Cell → Bool
  | [] => true
  | [(_, v)] => v != memDefault
  | (k, v) :: (k', v') :: r => v != memDefault && decide (k < k') && cellsWf ((k', v') :: r)

/-- The canonical form of device memory. -/
def Memory.wf (m : Memory) : Bool := cellsWf m.cells

/-- One byte. -/
def Memory.read (m : Memory) (a : Nat) : Byte := cellsRead m.cells a

/-- One byte written. -/
def Memory.write (m : Memory) (a : Nat) (b : Byte) : Memory := { m with cells := cellsWrite m.cells a b }

/-- `n` bytes from an address. -/
def Memory.readN (m : Memory) : Nat → Nat → List Byte
  | _, 0 => []
  | a, n + 1 => m.read a :: m.readN (a + 1) n

/-- Bytes written from an address. -/
def Memory.writeN (m : Memory) : Nat → List Byte → Memory
  | _, [] => m
  | a, b :: r => (m.write a b).writeN (a + 1) r

/-- A region zeroed with valid check bits, which also ends any poison of its whole units. -/
def Memory.zero (m : Memory) (base len : Nat) : Memory :=
  { cells := cellsZero base len m.cells
    poison := m.poison.filter fun u => decide (u * 64 < base ∨ base + len ≤ u * 64) }

/-- Whether bytes from an address reach a poisoned unit (R365). -/
def Memory.poisoned (m : Memory) (a n : Nat) : Bool :=
  m.poison.any fun u => decide (u * 64 < a + n ∧ a < u * 64 + 64)

/-- A unit poisoned. -/
def Memory.setPoison (m : Memory) (u : Nat) : Memory :=
  if m.poison.contains u then m else { m with poison := insertBy id u m.poison }

/-! ## Default values of the state's tables -/

/-- A channel that nothing has claimed since its last reset (R137). -/
def freshChannel : Channel :=
  { owner := 0, sent := 0, withdrawn := false, taken := false, full := false, lastSender := 0, emptyEn := false
    msgEn := false, buf := [], order := 0 }

/-- A host function after its reset: vectors masked, with no address, and no fault ring (R133; log entry 8). -/
def freshFn : HostFn :=
  { vecs := List.replicate 4 ⟨0, 0, true, false⟩, fnMask := false, fltBase := 0
    fltEnable := false, fltLog2 := 0, fltProducer := 0, fltConsumer := 0, fltWriteError := false, fltHeldBit := false
    held := [], beyond := [], unsent := [], tdi := .unlocked }

/-- A queue of an unassigned group. -/
def freshQueue : Queue :=
  { configured := false, cls := 0, log2 := 0, ringVa := 0, producer := 0, consumed := 0, completed := 0, faultStep := 0
    faultCode := 0, epochW := 0, epochA := 0, reading := false, slot := none, latched := false, latchOrder := 0
    clearSince := 0, lastEnd := 0 }

/-- A core's registers, all zero. -/
def zeroRegs : CoreRegs := { x := [], p := [], v := [] }

/-- A core after a core reset (R78): no step, no tag, everything zero. -/
def freshCore : CoreSt :=
  { power := .gated, regs := zeroRegs, issue := none, pc := 0, branch := none, slots := 0, loops := [], gather := [], sync := []
    tag := none, step := none, rel := 0, group := 0, stopOrdered := false, waiting := false, halted := false, ended := false
    reported := false, freed := false, saving := false, credits := [], outstanding := 0, dropped := [], active := none, shadow := none
    acc := [], recInvalid := false, recSched := false, recTile := false, recent := [], bundles := 0, mark := 0
    lastSafept := none, fetchBuf := [], fetchMiss := none, allowance := 0, spent := 0, lastIssue := 0 }

/-- A sync object that is free (R260). -/
def freshSync : SyncObj :=
  { count := 0, owner := none, step := none, barrier := false, sense := false, arrived := false, recSense := false }

/-- An engine instance with nothing queued. -/
def freshEngine : EngineSt :=
  { queue := [], inHand := none, items := [], tagGen := 0, retired := false, side := [], spill := 0, lanes := [], func := none, funcBank := 0
    result := [], badBanks := [], ingress := [] }

/-- A compute die as phase 0x7 leaves it: logical quads 0–15 on physical quads 0–15 (R241). -/
def freshDie : DieSt :=
  { power := .gated, pll := 0, point := 15, ordered := none, orderedAt := 0, quadMap := [], retiredQuads := [], retiring := []
    sliceTag := [], slicePower := [], sliceHeld := [], spareRows := [], combiners := [], engines := [], gates := []
    blocked := 0, resetting := false, lostWrites := 0, retired := false }

/-- A half of a tier window with every channel in service (R362). -/
def freshHalf (h : Nat) : HalfSt :=
  { channels := if h % 4 < 2 then 32 else 8, lost := false }

/-- A link that is down (R471). -/
def freshLink : Link :=
  { state := .down, stage := 0, attempts := 0, retries := 0, degraded := false, retryClocks := [], degradedAt := []
    failedSince := 0, failedFrom := none, neighbour := none, effMinor := 0, credits := [], rxBuf := [], txSeq := 0, rxSeq := 0
    discarding := false, replay := [], sameRetries := 0, txq := [], turn := 0, recent := [], waited := [], farPort := false, rxPart := []
    retired := false }

/-- A model that is not resident (R435). -/
def freshModel : Model :=
  { resident := false, service := 0, image := none, opened := 0, source := none, openImage := none, phase := .none_
    frontier := 0, podCommitted := 0, reported := 0, cuts := [], frames := [], verified := [], badReads := []
    restoreTo := 0, restoreStep := 0, endStatus := 0, serviceSource := none, key := [] }

/-- A KV record that is free (R369). -/
def freshKv : KvRec :=
  { sequence := 0, framePa := 0, count := 0, owner := 0, state := .free, moving := false, inPartner := false
    incarnation := 0, offer := 0, moveFrame := 0, putGen := 0, hint := 0, lastGather := 0, hintAt := 0 }

/-- Power control of a die with nothing lost and no limit (R528–R532). -/
def freshDiePower : DiePower :=
  { phasesOut := [], currentCeil := 1536, thermalCeil := 1536, thermalSince := 0, thermalPace := 8, pointAt := 0
    hot := 0, hotMax := 0, tempMax := 0, droop := false, droopSince := 0, droopSecond := 0, lastLow := 0, droopsNow := 0, droops := 0, droopTime := 0, droopRecorded := false
    correction := 0, senseOut := false, dieW := 0, currents := [], filling := 0, railMv := none }

/-- An expert's counters, all zero (R431). -/
def freshCount : ExpertCount := { sent := 0, spilled := 0, received := 0, bytes := 0 }

/-- A queue's mirror before the member has sent it (R204). -/
def freshMirror : Mirror := { completed := 0, consumed := 0, status := 0, fault := 0, epoch := 0 }

/-- A book in balance (R567). -/
def freshBook : Book := { suspect := false, rebuilds := [] }

/-! ## Readers of the tables -/

/-- Logical core `n`. -/
def State.core (s : State) (n : Nat) : CoreSt := tabGet freshCore s.fleet.cores n

/-- Compute die `d`. -/
def State.die (s : State) (d : Nat) : DieSt := tabGet freshDie s.fleet.dies d

/-- Engine `i` of die `d`, by the engine index of R233. -/
def State.engine (s : State) (d i : Nat) : EngineSt := tabGet freshEngine (s.die d).engines i

/-- Channel `c`. -/
def State.chan (s : State) (c : Nat) : Channel := tabGet freshChannel s.mbx.chans c

/-- Host function `f`. -/
def State.fn (s : State) (f : Nat) : HostFn := tabGet freshFn s.host.fns f

/-- Queue `q`. -/
def State.queue (s : State) (q : Nat) : Queue := tabGet freshQueue s.dq.queues q

/-- Half `h` of the tier windows. -/
def State.half (s : State) (h : Nat) : HalfSt := tabGet (freshHalf h) s.tiers.halves h

/-- Link `l`. -/
def State.link (s : State) (l : Nat) : Link := tabGet freshLink s.fab.links l

/-- Model `m`. -/
def State.model (s : State) (m : Nat) : Model := tabGet freshModel s.wt.models m

/-- Power control of die `d`. -/
def State.diePower (s : State) (d : Nat) : DiePower := tabGet freshDiePower s.pwr.dies d

/-- A core changed. -/
def State.setCore (s : State) (n : Nat) (f : CoreSt → CoreSt) : State :=
  { s with fleet := { s.fleet with cores := tabMod freshCore s.fleet.cores n f } }

/-- A die changed. -/
def State.setDie (s : State) (d : Nat) (f : DieSt → DieSt) : State :=
  { s with fleet := { s.fleet with dies := tabMod freshDie s.fleet.dies d f } }

/-- An engine changed. -/
def State.setEngine (s : State) (d i : Nat) (f : EngineSt → EngineSt) : State :=
  s.setDie d fun x => { x with engines := tabMod freshEngine x.engines i f }

/-- A channel changed. -/
def State.setChan (s : State) (c : Nat) (f : Channel → Channel) : State :=
  { s with mbx := { s.mbx with chans := tabMod freshChannel s.mbx.chans c f } }

/-- A host function changed. -/
def State.setFn (s : State) (n : Nat) (f : HostFn → HostFn) : State :=
  { s with host := { s.host with fns := tabMod freshFn s.host.fns n f } }

/-- A queue changed. -/
def State.setQueue (s : State) (q : Nat) (f : Queue → Queue) : State :=
  { s with dq := { s.dq with queues := tabMod freshQueue s.dq.queues q f } }

/-- A half changed. -/
def State.setHalf (s : State) (h : Nat) (f : HalfSt → HalfSt) : State :=
  { s with tiers := { s.tiers with halves := tabMod (freshHalf h) s.tiers.halves h f } }

/-- A link changed. -/
def State.setLink (s : State) (l : Nat) (f : Link → Link) : State :=
  { s with fab := { s.fab with links := tabMod freshLink s.fab.links l f } }

/-- A model changed. -/
def State.setModel (s : State) (m : Nat) (f : Model → Model) : State :=
  { s with wt := { s.wt with models := tabMod freshModel s.wt.models m f } }

/-- Power control of a die changed. -/
def State.setDiePower (s : State) (d : Nat) (f : DiePower → DiePower) : State :=
  { s with pwr := { s.pwr with dies := tabMod freshDiePower s.pwr.dies d f } }

/-- Something leaves the block. -/
def State.emit (s : State) (o : Output) : State := { s with out := o :: s.out }

/-- A free value is drawn. -/
def State.draw (s : State) : Nat × State := (Config.freeValue s.drawn, { s with drawn := s.drawn + 1 })

/-- A unit at its order of wake (R72, R192). -/
def State.orderWake (s : State) (u : UnitRef) : State :=
  if s.fleet.waking.contains u then s else { s with fleet := { s.fleet with waking := s.fleet.waking ++ [u] } }

/-- A die is woken on demand, unless it is ACTIVE (R72). -/
def State.wakeDie (s : State) (d : Nat) : State := if (s.die d).power = .active then s else s.orderWake (.die d)

/-! ## Comet records (R547–R549) -/

/-- A record reaches the intakes, or is counted as lost when they are full. -/
def AlwaysOn.post (a : AlwaysOn) (r : CometRec) : AlwaysOn :=
  if a.intake.length < 256 then { a with intake := a.intake ++ [r] }
  else { a with
    intakeLost := a.intakeLost + 1
    intakeLostCode := if a.intakeLost = 0 then r.code else a.intakeLostCode }

/-- A comet record of a code, severity, instance, context and payload words. -/
def State.comet (s : State) (code severity inst : Nat) (ctag : Option Nat) (payload : List Nat) : State :=
  let r : CometRec :=
    { time := s.aon.timebase, boot := s.aon.boot, code := code, severity := severity, device := s.fab.device
      source := code / 256 * 4096 + inst % 4096, ctag := (ctag.map (32768 + ·)).getD 0
      number := 0, payload := (payload.take 10).map (· % 2 ^ 32) }
  { s with aon := s.aon.post r }

/-- The two words of a time, a timebase value, an address or another value of two words. -/
def words2 (v : Nat) : List Nat := [v % 2 ^ 32, v / 2 ^ 32 % 2 ^ 32]

/-- A refused or discarded write, command, doorbell or arrival: event 0xF0. -/
def State.cometF0 (s : State) (area inst object master : Nat) : State :=
  s.comet (area * 256 + 0xF0) 2 inst none (words2 object ++ [master])

/-- An isolation block: event 0xF1. -/
def State.cometF1 (s : State) (area inst : Nat) (ctag : Option Nat) (object writer owner : Nat) : State :=
  s.comet (area * 256 + 0xF1) 3 inst ctag (words2 object ++ [writer, owner])

/-- Corrected errors over threshold: event 0xF2. -/
def State.cometF2 (s : State) (area inst unit count ms : Nat) : State :=
  s.comet (area * 256 + 0xF2) 2 inst none [unit, count, ms]

/-- An uncorrectable error contained: event 0xF3. -/
def State.cometF3 (s : State) (area inst unit addr : Nat) (step : Nat × Nat) : State :=
  s.comet (area * 256 + 0xF3) 3 inst none ([unit] ++ words2 addr ++ [step.1] ++ words2 step.2)

/-- A unit retired or spared: event 0xF4. -/
def State.cometF4 (s : State) (area inst unit cause spare : Nat) : State :=
  s.comet (area * 256 + 0xF4) 3 inst none [unit, cause, spare]

/-- A change of state: event 0xF5. -/
def State.cometF5 (s : State) (area inst old new cause : Nat) : State :=
  s.comet (area * 256 + 0xF5) 1 inst none [old, new, cause]

/-- A book rebuilt: event 0xF6. -/
def State.cometF6 (s : State) (area inst book expected found : Nat) : State :=
  s.comet (area * 256 + 0xF6) 3 inst none [book, expected, found]

/-- Any other event: event 0xF7. -/
def State.cometF7 (s : State) (area inst : Nat) (payload : List Nat) : State :=
  s.comet (area * 256 + 0xF7) 2 inst none payload

/-! ## Host ports and interrupts (R27, R28, R125, R135, R575) -/

/-- A host port. -/
def State.port (s : State) (p : Nat) : HostPort := if p = 0 then s.host.portA else s.host.portB

/-- A host port changed. -/
def State.setPort (s : State) (p : Nat) (f : HostPort → HostPort) : State :=
  if p = 0 then { s with host := { s.host with portA := f s.host.portA } }
  else { s with host := { s.host with portB := f s.host.portB } }

/-- Whether a function is enabled on a port (R27): the PF, and the VFs that the port's VF Enable and NumVFs reach. -/
def HostPort.on (x : HostPort) (f : Nat) : Bool := f == 0 || decide (f ≤ x.vfs)

/-- Whether a function's memory space is enabled on a port (R572). -/
def HostPort.memOn (x : HostPort) (f : Nat) : Bool := if f = 0 then x.pfMem else x.vfMem

/-- The port through which a function's own writes leave, if any can carry them (R135). -/
def State.fnPort (s : State) (f : Nat) : Option Nat :=
  if s.host.portA.up ∧ s.host.portA.on f then some 0
  else if s.host.portB.up ∧ s.host.portB.on f then some 1
  else none

/-- A posted write leaves through a port, which keeps it as one that may be unacknowledged (R135, R571). -/
def State.post (s : State) (p : Nat) (w : Posted) (o : Output) : State :=
  (s.setPort p fun x => { x with posted := (w :: x.posted).take 256 }).emit o

/-- A write of bytes to host memory leaves through a port. -/
def State.postWrite (s : State) (p : Nat) (w : Posted) : State := s.post p w (.hostWrite p w.fn w.pasid w.addr w.bytes w.attrs)

/-- A vector's message leaves through a port: a write of its data to its address (R125). -/
def State.sendMsix (s : State) (f v p : Nat) : State :=
  let x := ((s.fn f).vecs[v]?).getD ⟨0, 0, true, false⟩
  s.post p ⟨f, none, x.addr, leBytes 4 x.data, 0, .msix v⟩ (.msix f v p x.addr x.data)

/-- A vector's pending bit set. -/
def HostFn.pend (h : HostFn) (v : Nat) : HostFn :=
  { h with vecs := h.vecs.mapIdx fun i x => if i = v then { x with pending := true } else x }

/-- A vector is raised: its message leaves, or its pending bit is set while it is masked or no port can carry it. -/
def State.raise (s : State) (f v : Nat) : State :=
  match s.fnPort f with
  | none => s.setFn f (·.pend v)
  | some p =>
    if (s.fn f).fnMask || (match (s.fn f).vecs[v]? with
      | some x => x.masked
      | none => true) then s.setFn f (·.pend v)
    else s.sendMsix f v p

/-- The master identity of a host function (R103). -/
def masterOf (f : Nat) : Nat := 0x100 + f

/-- The host function of a master identity. -/
def fnOf (m : Nat) : Option Nat := if 0x100 ≤ m ∧ m < 0x200 then some (m - 0x100) else none

/-- Master identity of the active Supervisor. -/
def supervisorId : Nat := 2

/-- Master identity of the management endpoint, which speaks for the BMC (R103). -/
def bmcId : Nat := 6

/-! ## Fault rings (R133–R135, R232) -/

/-- The 64 bytes of a fault record. -/
def faultBytes (r : FaultRec) : List Byte :=
  leBytes 1 r.kind ++ leBytes 1 r.access ++ leBytes 2 r.status ++ leBytes 2 r.ctag ++ leBytes 2 r.queue
    ++ leBytes 8 r.stepIndex ++ leBytes 8 r.va ++ leBytes 8 r.time ++ leBytes 1 r.agentKind ++ leBytes 1 r.device
    ++ leBytes 2 r.agent ++ leBytes 4 r.rangeIndex ++ leBytes 8 r.detail ++ leBytes 4 r.sequence ++ leBytes 2 r.flags
    ++ List.replicate 10 0

/-- Whether a fault ring is enabled and has space, and a port can carry its writes. -/
def State.fltReady (s : State) (f : Nat) : Bool :=
  let h := s.fn f
  h.fltEnable && decide ((h.fltProducer + 2 ^ 32 - h.fltConsumer) % 2 ^ 32 < 2 ^ h.fltLog2) && (s.fnPort f).isSome

/-- A record is written to the ring and vector 2 raised. -/
def State.fltWrite (s : State) (f : Nat) (r : FaultRec) : State :=
  let h := s.fn f
  let now := { r with sequence := h.fltProducer }
  let s' := s.postWrite ((s.fnPort f).getD 0)
    ⟨f, none, h.fltBase + h.fltProducer % 2 ^ h.fltLog2 * 64, faultBytes now, 0, .fault now⟩
  (s'.setFn f fun h => { h with fltProducer := (h.fltProducer + 1) % 2 ^ 32 }).raise f 2

/-- A fault record is written, or held in the device, or waits beyond the 64 that are held (R134). -/
def State.fltRecord (s : State) (f : Nat) (r : FaultRec) : State :=
  let h := s.fn f
  if h.held.isEmpty && h.beyond.isEmpty && s.fltReady f then s.fltWrite f r
  else if h.held.length < 64 && h.beyond.isEmpty then
    s.setFn f fun h => { h with held := h.held ++ [{ r with flags := r.flags / 16 * 16 + 8 + r.flags % 8 }], fltHeldBit := true }
  else s.setFn f fun h => { h with beyond := h.beyond ++ [r], fltHeldBit := true }

/-- A record with the module's time and device number, and no other field set. -/
def State.fltBlank (s : State) : FaultRec :=
  { kind := 0, access := 0, status := 0, ctag := 0, queue := 0, stepIndex := 0, va := 0, time := s.aon.timebase
    agentKind := 0, device := s.fab.device, agent := 0, rangeIndex := 0xFFFFFFFF, detail := 0, sequence := 0, flags := 0 }

/-! ## Status codes (R160) -/

abbrev ST_OK : Nat := 0x0000
abbrev ST_ACCEPTED : Nat := 0x0001
abbrev ST_MALFORMED : Nat := 0x0010
abbrev ST_VERSION : Nat := 0x0011
abbrev ST_UNKNOWN : Nat := 0x0012
abbrev ST_DENIED : Nat := 0x0013
abbrev ST_ABSENT : Nat := 0x0014
abbrev ST_OWNER : Nat := 0x0015
abbrev ST_STATE : Nat := 0x0016
abbrev ST_RANGE : Nat := 0x0017
abbrev ST_NOSPACE : Nat := 0x0018
abbrev ST_BUSY : Nat := 0x0019
abbrev ST_HOSTIO : Nat := 0x001A
abbrev ST_GENERATION : Nat := 0x001B
abbrev ST_DIGEST : Nat := 0x001C
abbrev ST_SIGNATURE : Nat := 0x001D
abbrev ST_MANIFEST : Nat := 0x001E
abbrev ST_STALE : Nat := 0x001F
abbrev ST_UNREACHED : Nat := 0x0020
abbrev ST_ABORTED : Nat := 0x0100
abbrev ST_POWERFAIL : Nat := 0x0101
abbrev ST_DIERESET : Nat := 0x0102
abbrev ST_CORERESET : Nat := 0x0103
abbrev ST_DESTROYED : Nat := 0x0104
abbrev ST_XLATE : Nat := 0x0105
abbrev ST_PERMISSION : Nat := 0x0106
abbrev ST_ISOLATION : Nat := 0x0107
abbrev ST_KVREFUSED : Nat := 0x0108
abbrev ST_PROGRAM : Nat := 0x0109
abbrev ST_ECC : Nat := 0x010A
abbrev ST_EPOCH : Nat := 0x010B

end Sys2Proof.Machine
end

