-- ==== Sys2Proof/Machine/Crypto.lean ====
section
/-! DEFINITION. The published algorithms the spec names: SHA-256 and SHA-384, CRC-32C, CRC-64, AES-256-XTS, ECDSA over P-384
and Philox4x32-10 (log entry 20, PRESUMED: the spec names them and gives their definitions to their own standards). -/

namespace Sys2Proof.Machine

/-! ## Words -/

/-- A rotation to the right of a word of `w` bits. -/
def rotr (w n x : Nat) : Nat := x / 2 ^ n + x % 2 ^ n * 2 ^ (w - n)

/-- The complement of a word of `w` bits. -/
def notw (w x : Nat) : Nat := 2 ^ w - 1 - x

/-- The `n` bytes of a number, high byte first. -/
def beBytes (n v : Nat) : List Byte := (leBytes n v).reverse

/-! ## SHA-2 -/

/-- The round constants of SHA-512, whose high halves are those of SHA-256. -/
def shaK : List Nat :=
  [0x428a2f98d728ae22, 0x7137449123ef65cd, 0xb5c0fbcfec4d3b2f, 0xe9b5dba58189dbbc, 0x3956c25bf348b538]
  ++ [0x59f111f1b605d019, 0x923f82a4af194f9b, 0xab1c5ed5da6d8118, 0xd807aa98a3030242, 0x12835b0145706fbe]
  ++ [0x243185be4ee4b28c, 0x550c7dc3d5ffb4e2, 0x72be5d74f27b896f, 0x80deb1fe3b1696b1, 0x9bdc06a725c71235]
  ++ [0xc19bf174cf692694, 0xe49b69c19ef14ad2, 0xefbe4786384f25e3, 0x0fc19dc68b8cd5b5, 0x240ca1cc77ac9c65]
  ++ [0x2de92c6f592b0275, 0x4a7484aa6ea6e483, 0x5cb0a9dcbd41fbd4, 0x76f988da831153b5, 0x983e5152ee66dfab]
  ++ [0xa831c66d2db43210, 0xb00327c898fb213f, 0xbf597fc7beef0ee4, 0xc6e00bf33da88fc2, 0xd5a79147930aa725]
  ++ [0x06ca6351e003826f, 0x142929670a0e6e70, 0x27b70a8546d22ffc, 0x2e1b21385c26c926, 0x4d2c6dfc5ac42aed]
  ++ [0x53380d139d95b3df, 0x650a73548baf63de, 0x766a0abb3c77b2a8, 0x81c2c92e47edaee6, 0x92722c851482353b]
  ++ [0xa2bfe8a14cf10364, 0xa81a664bbc423001, 0xc24b8b70d0f89791, 0xc76c51a30654be30, 0xd192e819d6ef5218]
  ++ [0xd69906245565a910, 0xf40e35855771202a, 0x106aa07032bbd1b8, 0x19a4c116b8d2d0c8, 0x1e376c085141ab53]
  ++ [0x2748774cdf8eeb99, 0x34b0bcb5e19b48a8, 0x391c0cb3c5c95a63, 0x4ed8aa4ae3418acb, 0x5b9cca4f7763e373]
  ++ [0x682e6ff3d6b2b8a3, 0x748f82ee5defb2fc, 0x78a5636f43172f60, 0x84c87814a1f0ab72, 0x8cc702081a6439ec]
  ++ [0x90befffa23631e28, 0xa4506cebde82bde9, 0xbef9a3f7b2c67915, 0xc67178f2e372532b, 0xca273eceea26619c]
  ++ [0xd186b8c721c0c207, 0xeada7dd6cde0eb1e, 0xf57d4f7fee6ed178, 0x06f067aa72176fba, 0x0a637dc5a2c898a6]
  ++ [0x113f9804bef90dae, 0x1b710b35131c471b, 0x28db77f523047d84, 0x32caab7b40c72493, 0x3c9ebe0a15c9bebc]
  ++ [0x431d67c49c100d4c, 0x4cc5d4becb3e42b6, 0x597f299cfc657e2a, 0x5fcb6fab3ad6faec, 0x6c44198c4a475817]

/-- The widths, rotations and lengths in which the two members of the family differ. -/
structure ShaKind where
  w     : Nat
  big0  : List Nat
  big1  : List Nat
  sm0   : List Nat
  sm1   : List Nat
  ks    : List Nat
  init  : List Nat
  block : Nat

/-- SHA-256. -/
def sha256Kind : ShaKind :=
  { w := 32, big0 := [2, 13, 22], big1 := [6, 11, 25], sm0 := [7, 18, 3], sm1 := [17, 19, 10]
    ks := (shaK.take 64).map (· / 2 ^ 32)
    init := [0x6a09e667, 0xbb67ae85, 0x3c6ef372, 0xa54ff53a, 0x510e527f, 0x9b05688c, 0x1f83d9ab, 0x5be0cd19]
    block := 64 }

/-- SHA-384. -/
def sha384Kind : ShaKind :=
  { w := 64, big0 := [28, 34, 39], big1 := [14, 18, 41], sm0 := [1, 8, 7], sm1 := [19, 61, 6], ks := shaK
    init := [0xcbbb9d5dc1059ed8, 0x629a292a367cd507, 0x9159015a3070dd17, 0x152fecd8f70e5939, 0x67332667ffc00b31, 0x8eb44a8768581511, 0xdb0c2e0d64f98fa7, 0x47b5481dbefa4fa4]
    block := 128 }

/-- Three rotations added without carry. -/
def shaBig (w : Nat) (r : List Nat) (x : Nat) : Nat :=
  rotr w (r.getD 0 0) x ^^^ rotr w (r.getD 1 0) x ^^^ rotr w (r.getD 2 0) x

/-- Two rotations and a shift added without carry. -/
def shaSmall (w : Nat) (r : List Nat) (x : Nat) : Nat :=
  rotr w (r.getD 0 0) x ^^^ rotr w (r.getD 1 0) x ^^^ x / 2 ^ r.getD 2 0

/-- The message schedule, latest word first: `n` words added to the block's sixteen. -/
def shaSchedule (k : ShaKind) : Nat → List Nat → List Nat
  | 0, ws => ws
  | n + 1, ws => shaSchedule k n
      (((shaSmall k.w k.sm1 (ws.getD 1 0) + ws.getD 6 0 + shaSmall k.w k.sm0 (ws.getD 14 0) + ws.getD 15 0)
        % 2 ^ k.w) :: ws)

/-- One round on the working words a to h. -/
def shaRound (k : ShaKind) (st : List Nat) (kw : Nat × Nat) : List Nat :=
  match st with
  | [a, b, c, d, e, f, g, h] =>
    let t1 := h + shaBig k.w k.big1 e + ((e &&& f) ^^^ (notw k.w e &&& g)) + kw.1 + kw.2
    let t2 := shaBig k.w k.big0 a + ((a &&& b) ^^^ (a &&& c) ^^^ (b &&& c))
    [(t1 + t2) % 2 ^ k.w, a, b, c, (d + t1) % 2 ^ k.w, e, f, g]
  | _ => st

/-- One block of the message. -/
def shaBlock (k : ShaKind) (st : List Nat) (blk : List Byte) : List Nat :=
  let w0 := (chunks (k.w / 8) 16 blk).map beNat
  let ws := (shaSchedule k (k.ks.length - 16) w0.reverse).reverse
  List.zipWith (fun a b => (a + b) % 2 ^ k.w) st ((k.ks.zip ws).foldl (shaRound k) st)

/-- The padding of a message of `n` bytes. -/
def shaPad (k : ShaKind) (n : Nat) : List Byte :=
  let lenB := k.block / 8
  0x80 :: List.replicate ((2 * k.block - 1 - lenB - n % k.block) % k.block) 0 ++ beBytes lenB (8 * n)

/-- The digest of a message, `out` words of it. -/
def sha (k : ShaKind) (out : Nat) (msg : List Byte) : List Byte :=
  let m := msg ++ shaPad k msg.length
  let st := (chunks k.block (m.length / k.block + 1) m).foldl (shaBlock k) k.init
  (st.take out).flatMap (beBytes (k.w / 8))

/-- SHA-256. -/
def sha256 (msg : List Byte) : List Byte := sha sha256Kind 8 msg

/-- SHA-384. -/
def sha384 (msg : List Byte) : List Byte := sha sha384Kind 6 msg

/-! ## Cyclic redundancy checks -/

/-- Eight steps of a reflected division. -/
def crcByteR (poly : Nat) : Nat → Nat → Nat
  | 0, c => c
  | n + 1, c => crcByteR poly n (if c % 2 = 1 then c / 2 ^^^ poly else c / 2)

/-- CRC-32C (Castagnoli), reflected, all ones in and out. -/
def crc32c (bs : List Byte) : Nat :=
  notw 32 (bs.foldl (fun c b => crcByteR 0x82F63B78 8 (c ^^^ b.toNat)) 0xFFFFFFFF)

/-- Eight steps of a division, high bit first. -/
def crcByteL (w poly : Nat) : Nat → Nat → Nat
  | 0, c => c
  | n + 1, c => crcByteL w poly n (if bit c (w - 1) then c * 2 % 2 ^ w ^^^ poly else c * 2 % 2 ^ w)

/-- CRC-64 of ECMA-182: polynomial 0x42F0E1EBA9EA3693, high bit first, zero in and out. -/
def crc64 (bs : List Byte) : Nat :=
  bs.foldl (fun c b => crcByteL 64 0x42F0E1EBA9EA3693 8 (c ^^^ b.toNat * 2 ^ 56)) 0

/-! ## AES-256 in XTS -/

/-- The substitution box. -/
def aesSbox : List Nat :=
  [99, 124, 119, 123, 242, 107, 111, 197, 48, 1, 103, 43, 254, 215, 171, 118, 202, 130, 201, 125]
  ++ [250, 89, 71, 240, 173, 212, 162, 175, 156, 164, 114, 192, 183, 253, 147, 38, 54, 63, 247, 204]
  ++ [52, 165, 229, 241, 113, 216, 49, 21, 4, 199, 35, 195, 24, 150, 5, 154, 7, 18, 128, 226]
  ++ [235, 39, 178, 117, 9, 131, 44, 26, 27, 110, 90, 160, 82, 59, 214, 179, 41, 227, 47, 132]
  ++ [83, 209, 0, 237, 32, 252, 177, 91, 106, 203, 190, 57, 74, 76, 88, 207, 208, 239, 170, 251]
  ++ [67, 77, 51, 133, 69, 249, 2, 127, 80, 60, 159, 168, 81, 163, 64, 143, 146, 157, 56, 245]
  ++ [188, 182, 218, 33, 16, 255, 243, 210, 205, 12, 19, 236, 95, 151, 68, 23, 196, 167, 126, 61]
  ++ [100, 93, 25, 115, 96, 129, 79, 220, 34, 42, 144, 136, 70, 238, 184, 20, 222, 94, 11, 219]
  ++ [224, 50, 58, 10, 73, 6, 36, 92, 194, 211, 172, 98, 145, 149, 228, 121, 231, 200, 55, 109]
  ++ [141, 213, 78, 169, 108, 86, 244, 234, 101, 122, 174, 8, 186, 120, 37, 46, 28, 166, 180, 198]
  ++ [232, 221, 116, 31, 75, 189, 139, 138, 112, 62, 181, 102, 72, 3, 246, 14, 97, 53, 87, 185]
  ++ [134, 193, 29, 158, 225, 248, 152, 17, 105, 217, 142, 148, 155, 30, 135, 233, 206, 85, 40, 223]
  ++ [140, 161, 137, 13, 191, 230, 66, 104, 65, 153, 45, 15, 176, 84, 187, 22]

/-- The box applied. -/
def aesSub (x : Nat) : Nat := aesSbox.getD x 0

/-- The box inverted. -/
def aesInv (x : Nat) : Nat := aesSbox.idxOf x

/-- Doubling in the field of 2^8 elements. -/
def xtime (x : Nat) : Nat := if x < 128 then x * 2 else x * 2 - 256 ^^^ 0x1B

/-- The product in the field of 2^8 elements, by the low `n` bits of the first factor. -/
def gmul : Nat → Nat → Nat → Nat
  | 0, _, _ => 0
  | n + 1, a, b => (if a % 2 = 1 then b else 0) ^^^ gmul n (a / 2) (xtime b)

/-- Bytes added without carry. -/
def xorList (a b : List Nat) : List Nat := List.zipWith (· ^^^ ·) a b

/-- Sixty words of round key from a key of 32 bytes: words of four bytes, latest first. -/
def aesExpand : Nat → Nat → Nat → List (List Nat) → List (List Nat)
  | 0, _, _, ws => ws
  | n + 1, i, rcon, ws =>
    let prev := ws.getD 0 []
    let old := ws.getD 7 []
    let t := if i % 8 = 0 then
        xorList ((prev.drop 1 ++ prev.take 1).map aesSub) [rcon, 0, 0, 0]
      else if i % 8 = 4 then prev.map aesSub else prev
    aesExpand n (i + 1) (if i % 8 = 0 then xtime rcon else rcon) (xorList old t :: ws)

/-- The fifteen round keys of 16 bytes. -/
def aesKeys (key : List Byte) : List (List Nat) :=
  chunks 16 15 ((aesExpand 52 8 1 (chunks 4 8 (key.map (·.toNat))).reverse).reverse.flatten)

/-- A matrix of 4 by 4 bytes, by columns, multiplied by a circulant of four factors. -/
def aesMix (f : List Nat) (st : List Nat) : List Nat :=
  (List.range 16).map fun i =>
    (List.range 4).foldl (fun acc k => acc ^^^ gmul 8 (f.getD ((k + 4 - i % 4) % 4) 0) (st.getD (i / 4 * 4 + k) 0)) 0

/-- The rows rotated by their numbers times `d`. -/
def aesShift (d : Nat) (st : List Nat) : List Nat :=
  (List.range 16).map fun i => st.getD ((i / 4 + i % 4 * d) % 4 * 4 + i % 4) 0

/-- One block enciphered. -/
def aesEnc (rk : List (List Nat)) (blk : List Nat) : List Nat :=
  let s0 := xorList blk (rk.getD 0 [])
  let s13 := ((rk.drop 1).take 13).foldl
    (fun st k => xorList (aesMix [2, 3, 1, 1] (aesShift 1 (st.map aesSub))) k) s0
  xorList (aesShift 1 (s13.map aesSub)) (rk.getD 14 [])

/-- One block deciphered. -/
def aesDec (rk : List (List Nat)) (blk : List Nat) : List Nat :=
  let s0 := (aesShift 3 (xorList blk (rk.getD 14 []))).map aesInv
  let s13 := ((rk.drop 1).take 13).reverse.foldl
    (fun st k => (aesShift 3 (aesMix [14, 11, 13, 9] (xorList st k))).map aesInv) s0
  xorList s13 (rk.getD 0 [])

/-- The tweak multiplied by the generator of the field of 2^128 elements. -/
def xtsDouble (t : Nat) : Nat := if t < 2 ^ 127 then t * 2 else t * 2 % 2 ^ 128 ^^^ 0x87

/-- The blocks of a data unit, each under its own tweak. -/
def xtsBlocks (f : List Nat → List Nat) : Nat → List (List Nat) → List Nat
  | _, [] => []
  | t, b :: r =>
    let tb := (leBytes 16 t).map (·.toNat)
    xorList (f (xorList b tb)) tb ++ xtsBlocks f (xtsDouble t) r

/-- A 64-byte unit in AES-256-XTS under a key pair of 64 bytes, data key first, its tweak the unit number (R235). -/
def xtsUnit (enc : Bool) (keys : List Byte) (unit : Nat) (data : List Byte) : List Byte :=
  let dk := aesKeys (keys.take 32)
  let tk := aesKeys (keys.drop 32)
  let t := leNat ((aesEnc tk ((leBytes 16 unit).map (·.toNat))).map (BitVec.ofNat 8))
  (xtsBlocks (if enc then aesEnc dk else aesDec dk) t (chunks 16 4 (data.map (·.toNat)))).map (BitVec.ofNat 8)

/-! ## ECDSA over P-384 -/

/-- The field's prime. -/
def p384 : Nat := 2 ^ 384 - 2 ^ 128 - 2 ^ 96 + 2 ^ 32 - 1

/-- The order of the base point. -/
def n384 : Nat :=
  0xFFFFFFFFFFFFFFFFFFFFFFFFFFFFFFFFFFFFFFFFFFFFFFFFC7634D81F4372DDF581A0DB248B0A77AECEC196ACCC52973

/-- The curve's constant term. -/
def b384 : Nat :=
  0xB3312FA7E23EE7E4988E056BE3F82D19181D9C6EFE8141120314088F5013875AC656398D8A2ED19D2A85C8EDD3EC2AEF

/-- The base point. -/
def g384 : Nat × Nat :=
  (0xAA87CA22BE8B05378EB1C71EF320AD746E1D3B628BA79B9859F741E082542A385502F25DBF55296C3A545E3872760AB7,
   0x3617DE4A96262C6F5D9E98BF9292DC29F8F41DBD289A147CE9DA3113B5F0B8C00A60B1CE1D7E819D7A431D7C90EA0E5F)

/-- A power modulo `m`, by the low `n` bits of the exponent. -/
def powMod (m : Nat) : Nat → Nat → Nat → Nat
  | 0, _, _ => 1 % m
  | n + 1, b, e => (if e % 2 = 1 then b else 1) * powMod m n (b * b % m) (e / 2) % m

/-- The inverse modulo a prime. -/
def invMod (m x : Nat) : Nat := powMod m 384 (x % m) (m - 2)

/-- The sum of two points of the curve; `none` is the point at infinity. -/
def ecAdd (a b : Option (Nat × Nat)) : Option (Nat × Nat) :=
  match a, b with
  | none, q => q
  | p, none => p
  | some (x1, y1), some (x2, y2) =>
    if x1 = x2 ∧ (y1 + y2) % p384 = 0 then none
    else
      let l := if x1 = x2 then (3 * x1 * x1 + (p384 - 3)) * invMod p384 (2 * y1) % p384
        else (y2 + p384 - y1) * invMod p384 (x2 + p384 - x1) % p384
      let x3 := (l * l + 2 * p384 - x1 - x2) % p384
      some (x3, (l * (x1 + p384 - x3) + p384 - y1) % p384)

/-- A multiple of a point, by the low `n` bits of the factor. -/
def ecMul : Nat → Nat → Option (Nat × Nat) → Option (Nat × Nat)
  | 0, _, _ => none
  | n + 1, k, q =>
    let r := ecMul n (k / 2) (ecAdd q q)
    if k % 2 = 1 then ecAdd q r else r

/-- Whether a point satisfies the curve's equation. -/
def onCurve (x y : Nat) : Bool :=
  decide (x < p384) && decide (y < p384) && y * y % p384 == (x * x * x + (p384 - 3) * x + b384) % p384

/-- Whether a signature (r then s, 48 bytes each, high byte first) of a message verifies under a public key (x then y),
the digest being SHA-384 (R95, R558). -/
def ecdsaOk (key msg sig : List Byte) : Bool :=
  let x := beNat (key.take 48)
  let y := beNat ((key.drop 48).take 48)
  let r := beNat (sig.take 48)
  let t := beNat ((sig.drop 48).take 48)
  let e := beNat (sha384 msg)
  onCurve x y && decide (0 < r ∧ r < n384 ∧ 0 < t ∧ t < n384) &&
    (let w := invMod n384 t
     match ecAdd (ecMul 384 (e * w % n384) (some g384)) (ecMul 384 (r * w % n384) (some (x, y))) with
     | none => false
     | some (px, _) => px % n384 == r)

/-! ## Philox4x32-10 -/

/-- Ten rounds on a counter of four words under a key of two. -/
def philoxRounds : Nat → List Nat → List Nat → List Nat
  | 0, c, _ => c
  | n + 1, c, k =>
    let p0 := 0xD2511F53 * c.getD 0 0
    let p1 := 0xCD9E8D57 * c.getD 2 0
    philoxRounds n
      [p1 / 2 ^ 32 ^^^ c.getD 1 0 ^^^ k.getD 0 0, p1 % 2 ^ 32, p0 / 2 ^ 32 ^^^ c.getD 3 0 ^^^ k.getD 1 0, p0 % 2 ^ 32]
      [(k.getD 0 0 + 0x9E3779B9) % 2 ^ 32, (k.getD 1 0 + 0xBB67AE85) % 2 ^ 32]

/-- Philox4x32-10: four words from a counter of four words and a key of two. -/
def philox (counter key : List Nat) : List Nat := philoxRounds 10 counter key

end Sys2Proof.Machine
end

