-- ==== Sys2Proof/Machine/Link.lean ====
section
/-! DEFINITION. What a member sends over the fabric: packets and their headers, routes, ports, flits, credits and replay (R469–R480,
R487, R488). Payloads whose layout the spec does not give have the model's own (log entry 33). -/

namespace Sys2Proof.Machine

/-! ## Bytes of packets (R469, R474) -/

/-- Link protocol of the firmware as shipped: major, minor and lowest minor (R470). -/
def protoMajor : Nat := 2
/-- Highest minor. -/
def protoMinor : Nat := 3
/-- Lowest minor. -/
def protoLowest : Nat := 1

/-- Whether this device is the head of its pod; without a plan it is its own head (R159). -/
def State.isHead (s : State) : Bool :=
  match s.fab.plan with
  | none => true
  | some p => s.fab.device == p.head

/-- The identity record that a link end sends. -/
def State.identityBytes (s : State) (l : Nat) : List Byte :=
  let id := (s.fab.plan.map (·.podId)).getD 0
  let ver := (s.fab.plan.map (·.version)).getD 0
  leBytes 8 s.cfg.serial ++ leBytes 4 id ++ leBytes 4 ver ++ leBytes 1 (if s.fab.plan.isSome then s.fab.device else 0xFF) ++ leBytes 1 l
    ++ leBytes 1 s.aon.rackPos ++ leBytes 1 protoMajor ++ leBytes 1 protoMinor ++ leBytes 1 protoLowest ++ leBytes 1 (b2n s.isHead)
    ++ List.replicate 9 0

/-- Flits of a virtual channel in a link's receive buffer. -/
def Link.occupied (l : Link) (vc : Nat) : Nat := (l.rxBuf.filter fun f => f.vc == vc).length

/-- What a packet's header and payload hold. -/
structure Wire where
  op : Nat
  fn : Nat := 0
  ctag : Nat := 0
  tag : Nat := 0
  payload : List Byte := []

/-- The match of an item. -/
def matchBytes (m : SeMatch) : List Byte := leBytes 4 m.key ++ leBytes 2 m.layer ++ leBytes 4 m.epoch ++ leBytes 4 m.version

/-- An answer's fields. -/
def ansBytes (a : RemoteAns) : List Byte :=
  leBytes 2 a.status ++ leBytes 1 a.kind ++ leBytes 1 a.access ++ leBytes 4 a.ri ++ leBytes 8 a.va ++ leBytes 8 a.detail

/-- A barrier message. -/
def barrierWire (op : Nat) (m : BarrierMsg) : Wire :=
  { op := op, fn := m.function, ctag := m.ctag, tag := m.key
    payload := leBytes 1 m.barrier ++ leBytes 8 m.phase ++ leBytes 1 m.level ++ leBytes 1 m.die ++ leBytes 2 m.source }

/-- A grant. -/
def grantBytes (g : GrantMsg) : List Byte := matchBytes g.m ++ leBytes 2 g.subStep ++ leBytes 1 g.granter ++ leBytes 1 g.dest

/-- A management message of a code. -/
def mgmt (code : Nat) (payload : List Byte) : Wire := { op := 4, payload := leBytes 1 code ++ payload }

/-- Header and payload of a packet. -/
def State.wireOf (s : State) (p : Packet) : Wire :=
  match p with
  | .identity l => { op := 1, payload := s.identityBytes l }
  | .plan _ => { op := 2, payload := s.fab.planBytes }
  | .heartbeat => { op := 3, tag := (s.fab.plan.map (·.podId)).getD 0 }
  | .creditAudit l => { op := 5, payload := (List.range 8).flatMap fun v => leBytes 2 ((s.link l).occupied v) }
  | .timeRequest t1 => { op := 1, payload := leBytes 8 t1 }
  | .timeResponse t1 t2 t3 o => { op := 2, payload := leBytes 8 t1 ++ leBytes 8 t2 ++ leBytes 8 t3 ++ leBytes 8 (ofSigned 64 o) }
  | .barrierArrival m => barrierWire 1 m
  | .barrierRelease m => barrierWire 2 m
  | .signal m =>
    { op := 3, fn := m.function, ctag := m.ctag, tag := m.object
      payload := leBytes 2 m.queue ++ leBytes 8 m.step ++ leBytes 2 m.sender ++ leBytes 4 m.value }
  | .doorbell master q v => { op := 1, tag := q, payload := leBytes 2 master ++ leBytes 8 v }
  | .relayCredit => { op := 2 }
  | .mirror q m =>
    { op := 3, tag := q
      payload := leBytes 8 m.completed ++ leBytes 8 m.consumed ++ leBytes 8 m.status ++ leBytes 8 m.fault ++ leBytes 8 m.epoch }
  | .command f b => { op := 4, fn := f, payload := b }
  | .answer f b => { op := 5, fn := f, payload := b }
  | .podState st => { op := 6, payload := leBytes 1 st }
  | .epochSwitch n e => { op := 7, payload := leBytes 1 n ++ leBytes 4 e }
  | .reduceChunk c =>
    { op := 1, fn := c.function, ctag := c.ctag, tag := c.key
      payload := leBytes 1 c.die ++ leBytes 1 c.inst ++ leBytes 1 (b2n c.last) ++ leBytes 4 c.tag ++ c.bytes }
  | .streamAck tag a => { op := 2, tag := tag, payload := ansBytes a }
  | .grant g => { op := 1, fn := g.m.function, ctag := g.m.ctag, payload := grantBytes g }
  | .slotWrite w =>
    { op := 2, fn := w.m.function, ctag := w.m.ctag, tag := w.tag
      payload := matchBytes w.m ++ leBytes 1 w.lane ++ leBytes 2 w.sub ++ leBytes 2 w.local_ ++ leBytes 4 w.slot ++ leBytes 2 w.expert ++ w.bytes }
  | .laneReport r =>
    { op := 3, fn := r.m.function, ctag := r.m.ctag, tag := r.tag
      payload := matchBytes r.m ++ leBytes 1 r.lane ++ leBytes 2 r.sub ++ leBytes 4 r.spill }
  | .returnRow r =>
    { op := 4, fn := r.m.function, ctag := r.m.ctag, tag := r.tag, payload := matchBytes r.m ++ leBytes 2 r.expert ++ leBytes 8 r.handle ++ r.bytes }
  | .scatterAck tag a => { op := 5, tag := tag, payload := ansBytes a }
  | .remoteWrite w => { op := 1, fn := w.function, ctag := w.ctag, tag := w.tag, payload := leBytes 8 w.dstVa ++ w.bytes }
  | .gatherRequest r =>
    { op := 2, fn := r.function, ctag := r.ctag, tag := r.tag, payload := leBytes 4 r.handle ++ leBytes 4 r.offset ++ leBytes 4 r.span }
  | .gatherData tag b => { op := 3, tag := tag, payload := b }
  | .kvAck tag a => { op := 4, tag := tag, payload := ansBytes a }
  | .weightFrame n k j b => { op := 1, payload := leBytes 1 n ++ leBytes 2 k ++ leBytes 4 j ++ b }
  | .frameRequest n k j => { op := 2, payload := leBytes 1 n ++ leBytes 2 k ++ leBytes 4 j }
  | .layerReport n l => { op := 3, payload := leBytes 1 n ++ leBytes 2 l }
  | .blocked f t q i k a d =>
    { mgmt 1 (leBytes 2 q ++ leBytes 8 i ++ leBytes 1 k ++ leBytes 2 a ++ leBytes 8 d) with fn := f, ctag := t }
  | .podLayer n l => mgmt 2 (leBytes 1 n ++ leBytes 2 l)
  | .epochEnd n e st => mgmt 3 (leBytes 1 n ++ leBytes 4 e ++ leBytes 2 st)
  | .grantFull g => { mgmt 4 (grantBytes g) with fn := g.m.function, ctag := g.m.ctag }
  | .planReport d st o x => mgmt 5 (leBytes 1 d ++ leBytes 2 st ++ leBytes 8 (ofSigned 64 o) ++ leBytes 1 (b2n x))
  | .planOrder sh => mgmt 6 (leBytes 8 sh)
  | .planDone d => mgmt 7 (leBytes 1 d)
  | .mirrorAsk => mgmt 9 []
  | .mirrorDone => { op := 8 }
  | .portWord l p => mgmt 10 (leBytes 1 l ++ leBytes 1 (b2n p))
  | .placement _ b => mgmt 8 b
  | .placeDone d n st => mgmt 11 (leBytes 1 d ++ leBytes 1 n ++ leBytes 2 st)
  | .placeCommit n => mgmt 12 (leBytes 1 n)

/-- The bytes of a packet to a member: its header and its payload. -/
def State.packetBytes (s : State) (dest : Nat) (p : Packet) : List Byte :=
  let w := s.wireOf p
  leBytes 1 dest ++ leBytes 1 s.fab.device ++ [0] ++ leBytes 1 w.op ++ leBytes 2 w.fn ++ leBytes 2 w.ctag ++ leBytes 4 w.payload.length
    ++ leBytes 4 w.tag ++ w.payload

/-! ## Flits (R472, R473) -/

/-- Kind of a flit: 0 idle, 1 packet start, 2 continuation, 3 link control. -/
def TxFlit.kind (f : TxFlit) : Nat := if f.first then 1 else 2

/-- A flit's header as a number. -/
def flitHeader (kind vc seq ack nak creditVc creditCount bytes eop portSeq : Nat) : Nat :=
  kind * 2 ^ 62 + vc * 2 ^ 59 + seq % 4096 * 2 ^ 47 + ack % 4096 * 2 ^ 35 + nak * 2 ^ 34 + creditVc * 2 ^ 31 + creditCount * 2 ^ 23
    + bytes * 2 ^ 15 + eop * 2 ^ 14 + portSeq % 2 ^ 14

/-- A flit's 256 bytes. -/
def flitBytes (header : Nat) (payload : List Byte) : List Byte :=
  let b := leBytes 8 header ++ payload ++ List.replicate (240 - payload.length) 0
  b ++ leBytes 8 (crc64 b)

/-- A packet cut into flits. -/
def flitsOf (vc portSeq : Nat) (b : List Byte) : List TxFlit :=
  let n := (b.length + 239) / 240
  ((List.range n).zip (chunks 240 n b)).map fun x => ⟨vc, x.1 == 0, x.1 + 1 == n, portSeq, x.2⟩

/-- Flits of a receive buffer for a virtual channel (R475). -/
def creditAlloc (vc : Nat) : Nat :=
  match vc with
  | 0 => 16
  | 1 => 8
  | 2 => 32
  | 3 => 32
  | 4 => 96
  | 5 => 128
  | 6 => 96
  | _ => 104

/-- Credits held for a virtual channel. -/
def Link.credit (l : Link) (vc : Nat) : Nat := tabGet (creditAlloc vc) l.credits vc

/-- Flits of the replay buffer. -/
def replayFlits : Nat := 512

/-- Whether a link can send flits of a virtual channel in its present state (R470, R486). -/
def Link.carries (l : Link) (vc : Nat) : Bool :=
  match l.state with
  | .matched => true
  | .identified => vc == 0
  | .training => vc == 0 && decide (2 ≤ l.stage)
  | .quarantined => vc == 0
  | .mgmtOnly => vc == 0
  | _ => false

/-- Whether a virtual channel has a flit that the link could send now. -/
def Link.ready (l : Link) (v : Nat) : Bool := l.carries v && decide (0 < l.credit v) && l.txq.any fun f => f.vc == v

/-- Whether a small channel has had its one slot in eight of the last 64 while another channel waits (R476). -/
def Link.hadShare (l : Link) (v : Nat) : Bool :=
  decide (8 ≤ (l.recent.filter (· == v)).length) && (List.range 8).any fun w => w != v && l.ready w

/-- The direct channels in rotation. -/
def Link.direct (l : Link) : List Nat := (List.range 4).map fun i => 4 + (l.turn + 1 + i) % 4

/-- The virtual channel that a link serves next: a direct channel that has waited 12 slots, so that none waits more than 16; then 1, 2,
3 and 0 in that order within their share; then 4 to 7 in rotation (R476; log entry 95). -/
def Link.nextVc (l : Link) : Option Nat :=
  (l.direct.find? fun v => l.ready v && decide (12 ≤ tabGet 0 l.waited v)).orElse fun _ =>
    ([1, 2, 3, 0].find? fun v => l.ready v && !l.hadShare v).orElse fun _ => l.direct.find? l.ready

/-- A slot given to a channel is noted for the shares and the waits of all. -/
def Link.noteSlot (l : Link) (v : Nat) : Link :=
  { l with
    recent := (v :: l.recent).take 63
    waited := (List.range 4).filterMap fun i =>
      if 4 + i ≠ v ∧ l.ready (4 + i) then some (4 + i, tabGet 0 l.waited (4 + i) + 1) else none }

/-- One flit leaves: it takes a sequence number and a credit, and is kept in the replay buffer. -/
def Link.sendOne (l : Link) : Option (Link × List Byte) :=
  if replayFlits ≤ l.replay.length then none
  else match l.nextVc with
    | none => none
    | some v => match l.txq.find? fun f => f.vc == v with
      | none => none
      | some f =>
        let b := flitBytes (flitHeader f.kind v l.txSeq l.rxSeq 0 0 0 f.payload.length (b2n f.eop) f.portSeq) f.payload
        some ({ l.noteSlot v with
          txq := l.txq.erase f, txSeq := (l.txSeq + 1) % 4096, replay := l.replay ++ [b], turn := if 4 ≤ v then v - 4 else l.turn
          credits := tabSet l.credits v (l.credit v - 1) }, b)

/-- Flits leave a link while it has credits for them. -/
def State.pumpLink (l : Nat) : Nat → State → State
  | 0, s => s
  | n + 1, s =>
    match (s.link l).sendOne with
    | none => s
    | some (x, b) => State.pumpLink l n ((s.setLink l fun _ => x).emit (.flit l b))

/-- A packet is given to a link. -/
def State.toLink (s : State) (l vc portSeq : Nat) (b : List Byte) : State :=
  let s1 := s.setLink l fun x => { x with txq := x.txq ++ flitsOf vc portSeq b }
  if (s1.link l).carries vc then State.pumpLink l (s1.link l).txq.length s1 else s1

/-! ## Routes (R487) -/

/-- The plan by which links are judged: the one staged, else the one in force. -/
def State.planNow (s : State) : Option Plan := s.fab.staged.orElse fun _ => s.fab.plan

/-- Links from a member to its neighbours: this member's matched links, another's as the plan has them. -/
def State.circuits (s : State) (m : Nat) : List (Nat × Nat) :=
  match s.planNow.bind fun p => p.members.find? fun r => r.device == m with
  | none => []
  | some r => ((List.range 18).zip r.links).filterMap fun l => l.2.bind fun x =>
      if m = s.fab.device then (if (s.link l.1).state == .matched && !(s.link l.1).retired then some (l.1, x.1) else none) else some (l.1, x.1)

/-- Whether a member is within a number of circuits of another. -/
def State.within (s : State) (dest : Nat) : Nat → Nat → Bool
  | 0, m => m == dest
  | n + 1, m => m == dest || (s.circuits m).any fun c => c.2 != s.fab.device && s.within dest n c.2

/-- First hops to a member, as link and neighbour, within a number of circuits. -/
def State.hops (s : State) (dest n : Nat) : List (Nat × Nat) := (s.circuits s.fab.device).filter fun c => s.within dest (n - 1) c.2

/-- The route to a member within a number of circuits: the fewest, then the lower first hop, then the lower link. -/
def State.routeWithin (s : State) (dest limit : Nat) : Option (Nat × Nat) :=
  ([1, 2, 3].filter (· ≤ limit)).findSome? fun n => minBy (fun c => c.2 * 32 + c.1) (s.hops dest n)

/-- The route to a member. -/
def State.route (s : State) (dest : Nat) : Option (Nat × Nat) := s.routeWithin dest 3

/-! ## The forwarding store (R487) -/

/-- Flits of a partition. -/
def partitionFlits : Nat := 2048

/-- The messages of a partition. -/
def State.partition (s : State) (h : Nat) : List Stored := tabGet [] s.fab.store h

/-- A partition changed. -/
def State.setPartition (s : State) (h : Nat) (l : List Stored) : State := { s with fab := { s.fab with store := tabSet s.fab.store h l } }

/-- Flits that a partition holds. -/
def State.partitionHeld (s : State) (h : Nat) : Nat := ((s.partition h).map fun m => (m.bytes.length + 239) / 240).sum

/-- The message at an index of a partition goes to its next link, when it has a route and the link a credit. -/
def State.forwardAt (s : State) (h i : Nat) : State :=
  match (s.partition h)[i]? with
  | none => s
  | some m => match s.routeWithin m.dest (3 - h) with
    | none => s
    | some (l, _) =>
      if (s.link l).credit m.vc = 0 ∨ (s.link l).txq.any (fun f => f.vc == m.vc) then s
      else (s.setPartition h ((s.partition h).eraseIdx i)).toLink l m.vc 0 (putAt m.bytes 2 (leBytes 1 (h + 1)))

/-- A routed message enters a partition, and goes on at once where it can. -/
def State.storeMessage (s : State) (h : Nat) (m : Stored) : State :=
  let m1 := { m with noRouteSince := if (s.routeWithin m.dest (3 - h)).isSome then none else some s.aon.clock }
  (s.setPartition h (s.partition h ++ [m1])).forwardAt h (s.partition h).length

/-! ## Ports (R479, R480, R488) -/

/-- Whether a link carries the traffic of the port that it lies in: it is matched, and lies in a port at both ends (R479; log entry 32). -/
def State.linkCarries (s : State) (p : PortDef) (l : Nat) : Bool :=
  bit p.mask l && (s.link l).state == .matched && (s.link l).farPort && !p.removing

/-- The ports that are up to a member. -/
def State.portsTo (s : State) (m : Nat) : List (Nat × PortDef) :=
  s.fab.ports.filter fun p => p.2.neighbour == m && (List.range 18).any (s.linkCarries p.2)

/-- Whether a member is adjacent. -/
def State.adjacent (s : State) (m : Nat) : Bool := m != s.fab.device && !(s.portsTo m).isEmpty

/-- The link of a port that takes the next packet of a virtual channel: in rotation, skipping those without a credit. -/
def State.dealtLink (s : State) (p : PortDef) (vc : Nat) : Option Nat :=
  ((List.range 18).map fun i => (p.turn + 1 + i) % 18).find? fun l => s.linkCarries p l && decide (0 < (s.link l).credit vc)

/-- A direct packet is dealt to a link of a port to its destination, where one can take it. -/
def State.dealOne (s : State) (m : DirectMsg) : Option State :=
  (s.portsTo m.dest).findSome? fun p => (s.dealtLink p.2 m.vc).map fun l =>
    let seq := tabGet 0 p.2.txPortSeq m.vc
    let q : PortDef := { p.2 with txPortSeq := tabSet p.2.txPortSeq m.vc ((seq + 1) % 2 ^ 14), turn := l }
    ({ s with fab := { s.fab with ports := tabSet s.fab.ports p.1 q } }).toLink l m.vc seq m.bytes

/-- Waiting direct packets are dealt in order, each destination and channel stopping at the first that cannot be. -/
def dealAll : List DirectMsg → List DirectMsg → State → State
  | [], left, s => { s with fab := { s.fab with direct := left } }
  | m :: r, left, s =>
    if left.any fun x => x.dest == m.dest && x.vc == m.vc then dealAll r (left ++ [m]) s
    else match s.dealOne m with
      | some s1 => dealAll r left s1
      | none => dealAll r (left ++ [m]) s

/-- A packet leaves for a member on a virtual channel: by a route or by a port. -/
def State.send (s : State) (dest vc : Nat) (p : Packet) : State :=
  let b := s.packetBytes dest p
  let s1 := s.emit (.packet dest vc p)
  if vc < 4 then s1.storeMessage 0 ⟨dest, s.fab.device, vc, b, none⟩
  else dealAll (s1.fab.direct ++ [⟨dest, vc, b⟩]) [] s1

/-- A packet leaves on one link. -/
def State.sendLink (s : State) (l vc : Nat) (p : Packet) : State := (s.emit (.packet 0xFF vc p)).toLink l vc 0 (s.packetBytes 0xFF p)

/-- A neighbour is told whether a link lies in a port here, under the number that the link has there (R479; log entry 32). -/
def State.sendPortWord (s : State) (l : Nat) : State :=
  match (s.link l).neighbour with
  | some r => s.sendLink l 0 (.portWord r.link (s.fab.ports.any fun p => bit p.2.mask l && !p.2.removing))
  | none => s

/-- Flits, packets and messages that wait go on where they now can. -/
def State.pump (s : State) : State :=
  let s1 := (s.fab.links.map (·.1)).foldl (fun s l => State.pumpLink l (s.link l).txq.length s) s
  dealAll s1.fab.direct [] s1

end Sys2Proof.Machine
end

