-- ==== Sys2Proof/Machine/Xlate.lean ====
section
/-! DEFINITION. The physical address map, whose memory it is, range tables, range caches, walks, and reads and writes of
device memory through a range (R24–R26, R212–R224, R235, R238). -/

namespace Sys2Proof.Machine

/-! ## The physical address map (R24, R362, R363) -/

/-- Base of the capacity tier. -/
def capBase : Nat := 0x010000000000
/-- Base of the Commons windows. -/
def commonsBase : Nat := 0x020000000000
/-- Base of the scratchpad windows. -/
def scratchBase : Nat := 0x020100000000
/-- Bytes of a scratchpad and of a Commons slice. -/
def mib2 : Nat := 0x200000

/-- First byte of half `h`: die × 4 + 0 or 1 for the HBM window, + 2 or 3 for the capacity window. -/
def halfBase (h : Nat) : Nat :=
  (if h % 4 < 2 then 0 else capBase) + h / 4 * 2 ^ 37 + h % 2 * 2 ^ 36

/-- Bytes of one channel of half `h`. -/
def channelBytes (h : Nat) : Nat := if h % 4 < 2 then 2 ^ 31 else 2 ^ 33

/-- The half that holds an address of a tier. -/
def halfOf (pa : Nat) : Nat :=
  pa % capBase / 2 ^ 37 * 4 + (if pa < capBase then 0 else 2) + pa / 2 ^ 36 % 2

/-- Populated bytes of half `h`. -/
def State.halfBytes (s : State) (h : Nat) : Nat := (s.half h).channels * channelBytes h

/-- The physical quad that logical quad `k` of die `d` is mapped onto. -/
def State.quad (s : State) (d k : Nat) : Option Nat :=
  if (s.die d).retired then none else tabGet (some k) (s.die d).quadMap k

/-- Whether logical core `n` is mapped onto a working quad. -/
def State.coreMapped (s : State) (n : Nat) : Bool := decide (n < 512) && (s.quad (n / 64) (n % 64 / 4)).isSome

/-- Where an address lies. -/
inductive Place0 where
  | tier (half off : Nat)
  | commons (die slice off : Nat)
  | scratch (core off : Nat)
  | nowhere

/-- The region of R24 that holds an address. -/
def locate (pa : Nat) : Place0 :=
  if pa < commonsBase then .tier (halfOf pa) (pa % 2 ^ 36)
  else if pa < scratchBase then
    let o := pa - commonsBase
    if o < 8 * 2 ^ 27 ∧ o % 2 ^ 27 < 48 * mib2 then .commons (o / 2 ^ 27) (o % 2 ^ 27 / mib2) (o % mib2) else .nowhere
  else
    let o := pa - scratchBase
    if o < 512 * mib2 then .scratch (o / mib2) (o % mib2) else .nowhere

/-- Whether an address is populated and reachable (R25, R26). -/
def State.populated (s : State) (pa : Nat) : Bool :=
  match locate pa with
  | .tier h o => decide (o < s.halfBytes h)
  | .commons d _ _ => !(s.die d).retired
  | .scratch n _ => s.coreMapped n
  | .nowhere => false

/-- The populated intervals of the tiers. -/
def State.tierIntervals (s : State) : List (Nat × Nat) := (List.range 32).map fun h => (halfBase h, s.halfBytes h)

/-- The populated intervals of the windows of dies and cores. -/
def State.windowIntervals (s : State) : List (Nat × Nat) :=
  ((List.range 8).filter fun d => !(s.die d).retired).map (fun d => (commonsBase + d * 2 ^ 27, 48 * mib2))
    ++ ((List.range 512).filter s.coreMapped).map fun n => (scratchBase + n * mib2, mib2)

/-- Bytes that two intervals share. -/
def interLen (a la b lb : Nat) : Nat := min (a + la) (b + lb) - max a b

/-- Whether disjoint intervals cover a region. -/
def covers (ivs : List (Nat × Nat)) (base len : Nat) : Bool :=
  (ivs.map fun i => interLen i.1 i.2 base len).sum == len

/-- Whether any of some intervals meets a region. -/
def meets (ivs : List (Nat × Nat)) (base len : Nat) : Bool := ivs.any fun i => decide (0 < interLen i.1 i.2 base len)

/-! ## Whose memory (R210, R212, R213) -/

/-- Regions as intervals. -/
def regionIvs (l : List Region) : List (Nat × Nat) := l.map fun r => (r.base, r.length)

/-- Bytes of a range table. -/
def tableBytes : Nat := 524288

/-- The range tables. -/
def State.tableIvs (s : State) : List (Nat × Nat) := s.ctx.ctxs.map fun c => (c.2.tableBase, tableBytes)

/-- Memory of the tiers that is not the PF's. -/
def State.notPf (s : State) : List (Nat × Nat) :=
  regionIvs s.ctx.grants ++ regionIvs s.ctx.zeroing ++ s.kv.pools.map (fun p => (p.2.base, p.2.length))
    ++ (s.ctx.dumpBase.map fun b => (b, 2 ^ 28)).toList

/-- Whether a region of the tiers lies within a function's memory. -/
def State.inTierMemory (s : State) (f base len : Nat) : Bool :=
  if f = 0 then covers s.tierIntervals base len && !meets s.notPf base len
  else covers (regionIvs (s.ctx.grants.filter fun g => g.fn == f)) base len

/-- Whether a region lies within a function's memory, windows included: a region may run from the one into the other. -/
def State.inMemory (s : State) (f base len : Nat) : Bool :=
  if f = 0 then covers (s.tierIntervals ++ s.windowIntervals) base len && !meets s.notPf base len
  else covers (regionIvs (s.ctx.grants.filter fun g => g.fn == f) ++ s.windowIntervals) base len

/-! ## Range tables, root stores and caches (R215–R219) -/

/-- The 32 bytes of an entry. -/
def rangeBytes (e : RangeEntry) : List Byte :=
  leBytes 8 e.vaBase ++ leBytes 8 e.length ++ leBytes 8 e.target ++ leBytes 1 e.kind ++ leBytes 1 e.perms
    ++ leBytes 1 e.attrs ++ List.replicate 5 0

/-- The entry that 32 bytes spell. -/
def rangeOf (b : List Byte) : RangeEntry :=
  { vaBase := fieldAt b 0 8, length := fieldAt b 8 8, target := fieldAt b 16 8, kind := fieldAt b 24 1
    perms := fieldAt b 25 1, attrs := fieldAt b 26 1 }

/-- The entry at an index of the table at a base. -/
def Memory.rangeAt (m : Memory) (tb i : Nat) : RangeEntry := rangeOf (m.readN (tb + 32 * i) 32)

/-- The valid entries of a table, in index order. -/
def Memory.ranges (m : Memory) (tb : Nat) : List (Nat × RangeEntry) :=
  let idx := dedup ((m.cells.filter fun c => decide (tb ≤ c.1 ∧ c.1 < tb + tableBytes)).map fun c => (c.1 - tb) / 32)
  (idx.map fun i => (i, m.rangeAt tb i)).filter fun e => e.2.kind != 0

/-- The root keys of a table: each leaf of 128 entries with a valid entry, and the va_base of its first. -/
def rootKeys (es : List (Nat × RangeEntry)) : List (Nat × Nat) :=
  (dedup (es.map fun e => e.1 / 128)).map fun j =>
    (j, ((es.find? fun e => e.1 / 128 == j).map fun e => e.2.vaBase).getD 0)

/-- The last of some entries whose base is at or below an address, if its range contains it. -/
def lastBelow (es : List (Nat × RangeEntry)) (va : Nat) : Option (Nat × RangeEntry) :=
  match (es.filter fun e => decide (e.2.vaBase ≤ va)).getLast? with
  | none => none
  | some e => if va < e.2.vaBase + e.2.length then some e else none

/-- What a walk of a context's table finds for an address (R219). -/
def State.tableWalk (s : State) (ctag va : Nat) : Option (Nat × RangeEntry) :=
  match tabGet? s.ctx.ctxs ctag with
  | none => none
  | some c =>
    match ((tabGet [] s.ctx.roots ctag).filter fun k => decide (k.2 ≤ va)).getLast? with
    | none => none
    | some k => lastBelow ((s.mem.ranges c.tableBase).filter fun e => e.1 / 128 == k.1) va

/-- Cache entries that match an address. -/
def cacheHits (es : List CacheEntry) (ctag va : Nat) : List CacheEntry :=
  es.filter fun e => e.ctag == ctag && decide (e.range.vaBase ≤ va ∧ va < e.range.vaBase + e.range.length)

/-- The one entry of a unit's cache that matches an address; more than one do not count (R218). -/
def State.cacheLook (s : State) (unit ctag va : Nat) : Option (Nat × RangeEntry) :=
  match cacheHits (tabGet [] s.ctx.caches unit) ctag va with
  | [e] => some (e.index, e.range)
  | _ => none

/-- A hit makes its entry the most recently used; a lookup that two entries match drops them. -/
def touchCache (es : List CacheEntry) (ctag va : Nat) : List CacheEntry :=
  match cacheHits es ctag va with
  | [] => es
  | [e] => e :: es.filter fun x => !(x == e)
  | hs => es.filter fun x => !(hs.contains x)

/-- A cache of 64 entries filled with one, the least recently used leaving. -/
def fillCache (es : List CacheEntry) (e : CacheEntry) : List CacheEntry := (e :: es.filter fun x => !(x == e)).take 64

/-- Range-cache unit of a core's quad. -/
def quadUnit (core : Nat) : Nat := core / 4
/-- Range-cache unit of an engine. -/
def engineUnit (die idx : Nat) : Nat := 200 + die * 32 + idx
/-- Range-cache unit of the Dispatcher. -/
def dispUnit : Nat := 500
/-- Range-cache unit of an I/O die's relay. -/
def relayUnit (io : Nat) : Nat := 501 + io

/-! ## Translation of an access -/

/-- The outcome of a translation: its parts, a cache miss, or a fault with its kind, detail and range index. -/
inductive Xl where
  | ok (ps : List Part)
  | miss (va : Nat)
  | fault (kind detail ri va : Nat)

/-- Kinds of access (R221, R232): 1 read, 2 write, 3 fetch. -/
def permBit (access : Nat) : Nat := access - 1

/-- Whether every byte of a part is populated and reachable; in a window a part stays in one slice or scratchpad (R26). -/
def State.partPopulated (s : State) (pa n : Nat) : Bool :=
  if pa < commonsBase then covers s.tierIntervals pa n else s.populated pa

/-- The check of one part against its entry: permission, populated target, no range table under a write (R210; log entry 88), owner
of the window. -/
def State.checkPart (s : State) (ctag : Nat) (e : Nat × RangeEntry) (va n access : Nat) : Sum (Nat × Nat) Place :=
  if !bit e.2.perms (permBit access) then .inl (2, 0)
  else if e.2.kind = 2 then .inr (.host (e.2.target + (va - e.2.vaBase)) (bit e.2.attrs 2) (bit e.2.attrs 3))
  else
    let pa := e.2.target + (va - e.2.vaBase)
    let key := if bit e.2.attrs 0 then (tabGet? s.ctx.ctxs ctag).map (fun c => c.key.getD []) else none
    if !s.partPopulated pa n then .inl (1, 1)
    else if access = 2 ∧ meets s.tableIvs pa n then .inl (2, 0)
    else match locate pa with
      | .commons d sl _ =>
        if tabGet none (s.die d).sliceTag sl = some ctag then .inr (.dev pa key (bit e.2.attrs 1)) else .inl (5, d * 64 + sl)
      | .scratch c _ =>
        if (s.core c).tag = some ctag then .inr (.dev pa key (bit e.2.attrs 1)) else .inl (5, c)
      | _ => .inr (.dev pa key (bit e.2.attrs 1))

/-- How far a part runs: to the end of its range, and in a window no further than the next slice or scratchpad. -/
def partLen (e : RangeEntry) (va len : Nat) : Nat :=
  let pa := e.target + (va - e.vaBase)
  let n := min len (e.vaBase + e.length - va)
  if e.kind = 1 ∧ commonsBase ≤ pa then min n (mib2 - pa % mib2) else n

/-- An access translated part by part; `look` answers none for a miss, and none inside for no valid range. -/
def State.xlParts (s : State) (look : Nat → Option (Option (Nat × RangeEntry))) (ctag access : Nat) :
    Nat → Nat → Nat → List Part → Xl
  | 0, _, _, acc => .ok acc.reverse
  | fuel + 1, va, len, acc =>
    if len = 0 then .ok acc.reverse
    else match look va with
      | none => .miss va
      | some none => .fault 1 0 0xFFFFFFFF va
      | some (some e) =>
        let n := partLen e.2 va len
        match s.checkPart ctag e va n access with
        | .inl (k, d) => .fault k d e.1 va
        | .inr pl => s.xlParts look ctag access fuel (va + n) (len - n) (⟨va, n, e.1, pl⟩ :: acc)

/-- Parts that an access of `len` bytes can have at most. -/
def partFuel (len : Nat) : Nat := len / 65536 + 3

/-- An access through a unit's range cache. -/
def State.xlate (s : State) (unit ctag va len access : Nat) : Xl :=
  s.xlParts (fun a => (s.cacheLook unit ctag a).map some) ctag access (partFuel len) va len []

/-- An access of firmware, whose walk completes within the step: the cache where it hits, else the table. -/
def State.xlateNow (s : State) (unit ctag va len access : Nat) : Xl :=
  s.xlParts (fun a => some ((s.cacheLook unit ctag a).orElse fun _ => s.tableWalk ctag a)) ctag access (partFuel len) va len []

/-- The caches of a unit after an access of firmware, part by part: a hit makes its entry the most recently used, and a miss leaves
the range that its walk found (R218, R219). -/
def State.afterNow (s : State) (unit ctag : Nat) (ps : List Part) : State :=
  ps.foldl (fun s p =>
    let es := touchCache (tabGet [] s.ctx.caches unit) ctag p.va
    let es' := match s.cacheLook unit ctag p.va with
      | some _ => es
      | none => match s.tableWalk ctag p.va with
        | some e => fillCache es ⟨ctag, e.1, e.2⟩
        | none => es
    { s with ctx := { s.ctx with caches := tabSet s.ctx.caches unit es' } }) s

/-- Whether an access of firmware would need a walk that an invalidation under way holds (R222). -/
def State.nowHeld (s : State) (unit ctag va len access : Nat) : Bool :=
  s.ctx.invalidating.contains ctag && (match s.xlate unit ctag va len access with
    | .miss _ => true
    | _ => false)

/-- The caches after the lookups of an access. -/
def State.touch (s : State) (unit ctag va : Nat) : State :=
  { s with ctx := { s.ctx with caches := tabMod [] s.ctx.caches unit fun es => touchCache es ctag va } }

/-- A miss starts a walk, unless the cache has one outstanding; a walk of a CTAG being invalidated is held (R219, R222). -/
def State.startWalk (s : State) (unit ctag va access : Nat) (step : Option (Nat × Nat)) (agentKind agent : Nat) : State :=
  if s.ctx.walks.any (fun w => w.unit == unit) then s
  else
    let s' := s.touch unit ctag va
    let w : Walk := ⟨unit, ctag, va, access, step, agentKind, agent, s.ctx.invalidating.contains ctag⟩
    { s' with ctx := { s'.ctx with walks := s'.ctx.walks ++ [w] } }

/-! ## Data through a range (R235, R365) -/

/-- The plain bytes of a 64-byte unit. -/
def Memory.unitPlain (m : Memory) (key : List Byte) (u : Nat) : List Byte := xtsUnit false key u (m.readN (u * 64) 64)

/-- Bytes of device memory, deciphered under a key where the range is protected. -/
def Memory.devRead (m : Memory) (key : Option (List Byte)) (pa n : Nat) : List Byte :=
  match key with
  | none => m.readN pa n
  | some k =>
    if n = 0 then []
    else
      let us := (List.range ((pa + n - 1) / 64 - pa / 64 + 1)).map (pa / 64 + ·)
      ((us.flatMap (m.unitPlain k)).drop (pa % 64)).take n

/-- Units wholly written lose their poison (R365). -/
def Memory.clearPoison (m : Memory) (pa n : Nat) : Memory :=
  { m with poison := m.poison.filter fun u => !decide (pa ≤ u * 64 ∧ u * 64 + 64 ≤ pa + n) }

/-- Bytes of device memory written, enciphered under a key where the range is protected. -/
def Memory.devWrite (m : Memory) (key : Option (List Byte)) (pa : Nat) (bs : List Byte) : Memory :=
  match key with
  | none => (m.writeN pa bs).clearPoison pa bs.length
  | some k =>
    if bs.isEmpty then m
    else
      let us := (List.range ((pa + bs.length - 1) / 64 - pa / 64 + 1)).map (pa / 64 + ·)
      let plain := putAt (us.flatMap (m.unitPlain k)) (pa % 64) bs
      ((us.zip (chunks 64 us.length plain)).foldl (fun m' e => m'.writeN (e.1 * 64) (xtsUnit true k e.1 e.2)) m).clearPoison
        pa bs.length

/-- The port through which a context's accesses to host memory leave, if any can carry them (R28). -/
def State.ctxPort (s : State) (c : Context) : Option Nat :=
  if (s.port c.homePort).up ∧ (s.port c.homePort).on c.owner then some c.homePort
  else if (s.port (1 - c.homePort)).up ∧ (s.port (1 - c.homePort)).on c.owner then some (1 - c.homePort)
  else none

/-- Whether bytes of device memory cannot be read: they reach an address no longer populated, a poisoned unit, or a half that awaits
rewriting (R26, R363, R365). -/
def State.poisonAt (s : State) (pa n : Nat) : Bool :=
  !s.partPopulated pa n || s.mem.poisoned pa n || [pa, pa + (n - 1)].any fun a => match locate a with
    | .tier h _ => (s.half h).lost
    | _ => false

/-- The first byte of a run that cannot be read, as near as its unit: past the populated part of its half, in a poisoned unit, or the
first of the run. -/
def State.badByte (s : State) (pa n : Nat) : Nat :=
  if !s.partPopulated pa n then
    match locate pa with
    | .tier h _ => max pa (halfBase h + s.halfBytes h)
    | _ => pa
  else match s.mem.poison.find? fun u => decide (u * 64 < pa + n ∧ pa < u * 64 + 64) with
    | some u => max pa (u * 64)
    | none => pa

/-- Whether a unit of the parts of a read in device memory is poisoned; its address. -/
def State.partsPoison (s : State) (ps : List Part) : Option Nat :=
  (ps.find? fun p => match p.place with
    | .dev pa _ _ => s.poisonAt pa p.len
    | .host _ _ _ => false).bind fun p => match p.place with
    | .dev pa _ _ => some (s.badByte pa p.len)
    | .host _ _ _ => none

/-- An access made without a range to an address of a tier no longer populated counts as an uncorrectable error on the unit retired
there, the channel last retired in its half (R26). -/
def State.countMissing (s : State) (pa : Nat) : State :=
  if s.populated pa then s
  else match locate pa with
    | .tier h _ => match s.rel.retired.find? fun u => match u with
        | .channel k _ => k == h
        | _ => false with
      | some u => { s with rel := { s.rel with uncorrected := (u, s.aon.clock) :: s.rel.uncorrected } }
      | none => s
    | _ => s

/-- Whether any part lies in host memory. -/
def partsHost (ps : List Part) : Bool := ps.any fun p => match p.place with
  | .host _ _ _ => true
  | .dev _ _ _ => false

/-- The bytes of a part in device memory; those of a range marked expand are what the Expansion stage makes of weight data stored
compressed, of which the spec says how only for a WLOAD, so that they are free values of the memory and the address (R215, R444; log
entry 103). -/
def State.devPart (s : State) (key : Option (List Byte)) (pa len : Nat) (expand : Bool) : List Byte :=
  if expand then (List.range len).map fun i => Config.expanded key s.mem.cells (pa + i) else s.mem.devRead key pa len

/-- The bytes of the parts of a read that lie in device memory. -/
def State.readParts (s : State) (ps : List Part) : List Byte :=
  ps.flatMap fun p => match p.place with
    | .dev pa key x => s.devPart key pa p.len x
    | .host _ _ _ => []

/-- Whether a write can be carried: each part in host memory has a port (R571, cause 6). -/
def State.canWrite (s : State) (c : Context) (ps : List Part) : Bool := !partsHost ps || (s.ctxPort c).isSome

/-- An access to a scratchpad or to the Commons wakes the unit and its die on demand (R72). -/
def State.wakeAt (s : State) (pa : Nat) : State :=
  match locate pa with
  | .commons d sl _ =>
    if (s.die d).power = .active ∧ tabGet .gated (s.die d).slicePower sl = .active then s else s.orderWake (.slice d sl)
  | .scratch n _ => if (s.die (n / 64)).power = .active ∧ (s.core n).power = .active then s else s.orderWake (.core n)
  | _ => s

/-- The wakes that the parts of an access order. -/
def State.wakeParts (s : State) (ps : List Part) : State :=
  ps.foldl (fun s p => match p.place with
    | .dev pa _ _ => s.wakeAt pa
    | .host _ _ _ => s) s

/-- The die under reset whose scratchpads or Commons hold an address (R82). -/
def State.resetAt (s : State) (pa : Nat) : Option Nat :=
  match locate pa with
  | .commons d _ _ => if (s.die d).resetting then some d else none
  | .scratch n _ => if (s.die (n / 64)).resetting then some (n / 64) else none
  | _ => none

/-- Whether a write reaches a die under reset. -/
def State.resetHit (s : State) (ps : List Part) : Bool := ps.any fun p => match p.place with
  | .dev pa _ _ => (s.resetAt pa).isSome
  | .host _ _ _ => false

/-- The writes to dies under reset among the parts of a write are counted there (R82). -/
def State.countHits (s : State) (ps : List Part) : State :=
  ps.foldl (fun s p => match p.place with
    | .dev pa _ _ => match s.resetAt pa with
      | some d => s.setDie d fun x => { x with lostWrites := x.lostWrites + 1 }
      | none => s
    | .host _ _ _ => s) s

/-- A write of device memory, which wakes the unit it reaches; one to a die under reset is discarded and counted (R72, R82). -/
def State.devStore (s : State) (key : Option (List Byte)) (pa : Nat) (bs : List Byte) : State :=
  match s.resetAt pa with
  | some d => s.setDie d fun x => { x with lostWrites := x.lostWrites + 1 }
  | none => { s.wakeAt pa with mem := s.mem.devWrite key pa bs }

/-- A posted write of a context's data (R224, R571). -/
def State.hostData (s : State) (w : Writer) (c : Context) (p : Part) (addr : Nat) (ats noSnoop : Bool) (bs : List Byte) : State :=
  s.postWrite ((s.ctxPort c).getD 0) ⟨c.owner, c.pasid, addr, bs, flag noSnoop 0 + flag ats 1, .data w p.va p.ri⟩

/-- A write made part by part: device memory is changed, host memory is written through the context's port. -/
def State.writeParts (s : State) (w : Writer) (c : Context) : List Part → List Byte → State
  | [], _ => s
  | p :: r, bs =>
    let now := bs.take p.len
    let s' := match p.place with
      | .dev pa key _ => s.devStore key pa now
      | .host a x n => s.hostData w c p a x n now
    s'.writeParts w c r (bs.drop p.len)

/-- The detail of a host-access fault (R571): cause, completion status and port last tried. -/
def hostDetail (cause status port : Nat) : Nat := cause % 256 + status % 256 * 256 + port % 2 * 65536

/-- A default context, for a CTAG that names none. -/
def noContext : Context :=
  { owner := 0, tableBase := 0, pasid := none, homePort := 0, compat := false, key := none, dying := false, stale := []
    nextHandle := 1, cores := none }

/-- The context of a CTAG. -/
def State.context (s : State) (ctag : Nat) : Context := tabGet noContext s.ctx.ctxs ctag

/-! ## Translations by ATS (R225) -/

/-- Bytes of an ATS translation unit (R226). -/
def pageBytes : Nat := 4096

/-- The PASID under which a translation is held: its 20 bits, or 2^20 for none. -/
def pasidKey (p : Option Nat) : Nat := p.getD (2 ^ 20)

/-- What the address translation cache of a port says of a part's pages: translated parts, a page to ask for, or a refusal. -/
inductive AtsRes where
  | ok (ps : List Part)
  | ask (page : Nat)
  | refused (page status : Nat)

/-- A part in host memory translated page by page (R225). -/
def State.atsPart (s : State) (port pasid ri : Nat) (ns : Bool) : Nat → Nat → Nat → Nat → List Part → AtsRes
  | 0, _, _, _, acc => .ok acc
  | fuel + 1, va, addr, len, acc =>
    if len = 0 then .ok acc
    else
      let page := addr / pageBytes
      let n := min len (pageBytes - addr % pageBytes)
      match s.host.atc.find? fun e => e.port == port && e.pasid == pasid && e.page == page with
      | some e => s.atsPart port pasid ri ns fuel (va + n) (addr + n) (len - n) (acc ++ [⟨va, n, ri, .host (e.target * pageBytes + addr % pageBytes) true ns⟩])
      | none => match s.host.atsRefused.find? fun e => e.1 == (port, pasid, page) with
        | some e => .refused page e.2
        | none => .ask page

/-- The parts of an access with those of ATS ranges translated. -/
def State.atsParts (s : State) (port pasid : Nat) : List Part → List Part → AtsRes
  | [], acc => .ok acc
  | p :: r, acc =>
    match p.place with
    | .host a true ns =>
      match s.atsPart port pasid p.ri ns (p.len / pageBytes + 2) p.va a p.len [] with
      | .ok ps => s.atsParts port pasid r (acc ++ ps)
      | .ask g => .ask g
      | .refused g st => .refused g st
    | _ => s.atsParts port pasid r (acc ++ [p])

/-- A request for a translation leaves, once for each page. -/
def State.askAts (s : State) (port pasid page : Nat) : State :=
  if s.host.atsAsked.contains (port, pasid, page) then s
  else { s.emit (.atsAsk port pasid page) with host := { s.host with atsAsked := s.host.atsAsked ++ [(port, pasid, page)] } }

/-- The range index and address of the first part in host memory. -/
def firstHost (ps : List Part) : Nat × Nat :=
  ((ps.find? fun p => match p.place with
    | .host _ _ _ => true
    | .dev _ _ _ => false).map fun p => (p.ri, p.va)).getD (0xFFFFFFFF, 0)

/-- The outcome of a translation by firmware: parts ready for an access, a page that a port has to ask for, or a fault. -/
inductive Now where
  | ok (ps : List Part)
  | ask (port page : Nat)
  | fault (kind detail ri va : Nat)

/-- An access of firmware with its pages of ATS ranges translated, and a port for what lies in host memory (R28, R225, R571). -/
def State.nowParts (s : State) (unit ctag va len access : Nat) (c : Context) : Now :=
  match s.xlateNow unit ctag va len access with
  | .miss a => .fault 1 0 0xFFFFFFFF a
  | .fault k d ri a => .fault k d ri a
  | .ok ps =>
    if !partsHost ps then .ok ps
    else match s.ctxPort c with
      | none => .fault 3 (hostDetail 6 0 c.homePort) (firstHost ps).1 (firstHost ps).2
      | some port => match s.atsParts port (pasidKey c.pasid) ps [] with
        | .ok qs => .ok qs
        | .ask g => .ask port g
        | .refused _ st => .fault 3 (hostDetail 5 st port) (firstHost ps).1 (firstHost ps).2

/-- A refusal of a translation is used up by the access that it fails (R225, R571). -/
def State.useRefusal (s : State) (c : Context) (kind detail : Nat) : State :=
  if kind = 3 ∧ detail % 256 = 5 then
    { s with host := { s.host with atsRefused := s.host.atsRefused.filter fun e => e.1.2.1 != pasidKey c.pasid } }
  else s

/-! ## Scratchpads (R248, R255) -/

/-- Physical address of an offset of a core's scratchpad. -/
def scratchPa (core off : Nat) : Nat := scratchBase + core * mib2 + off % mib2

/-- One byte of a core's scratchpad as the core itself sees it, its gather buffer merged. -/
def State.ownByte (s : State) (n off : Nat) : Byte :=
  match (s.core n).gather.find? fun e => e.line == off % mib2 / 64 with
  | none => s.mem.read (scratchPa n off)
  | some e => (tabGet? e.bytes (off % 64)).getD (s.mem.read (scratchPa n off))

/-- Bytes of a core's scratchpad as the core sees them, each offset modulo 2 MiB. -/
def State.ownRead (s : State) (n : Nat) : Nat → Nat → List Byte
  | _, 0 => []
  | off, k + 1 => s.ownByte n off :: s.ownRead n (off + 1) k

/-- A read of a part in a core's own scratchpad by that core, which its gather buffer serves where it holds the bytes (R255). -/
def State.ownPart (s : State) (n : Nat) (key : Option (List Byte)) (pa len : Nat) : List Byte :=
  match key with
  | none => s.ownRead n (pa - scratchPa n 0) len
  | some k =>
    if len = 0 then []
    else
      let us := (List.range ((pa + len - 1) / 64 - pa / 64 + 1)).map (pa / 64 + ·)
      ((us.flatMap fun u => xtsUnit false k u (s.ownRead n (u * 64 - scratchPa n 0) 64)).drop (pa % 64)).take len

/-- The bytes of a part in device memory as an agent sees them: a core its own scratchpad with its gather buffer merged, every other
reader the bank alone (R255). -/
def State.seenPart (s : State) (core : Option Nat) (key : Option (List Byte)) (pa len : Nat) (expand : Bool) : List Byte :=
  match core, locate pa with
  | some n, .scratch m _ => if n = m ∧ !expand then s.ownPart n key pa len else s.devPart key pa len expand
  | _, _ => s.devPart key pa len expand

/-- Bytes written to a scratchpad's banks directly, each offset modulo 2 MiB. -/
def State.bankWrite (s : State) (n : Nat) : Nat → List Byte → State
  | _, [] => s
  | off, b :: r => ({ s with mem := s.mem.write (scratchPa n off) b }).bankWrite n (off + 1) r

/-- A gather entry written to its bank. -/
def State.flushEntry (s : State) (n : Nat) (e : GatherEntry) : State :=
  { s with mem := e.bytes.foldl (fun m b => m.write (scratchPa n (e.line * 64 + b.1)) b.2) s.mem }

/-- Every gather entry of a core written to its bank, oldest first (R256). -/
def State.flushGather (s : State) (n : Nat) : State :=
  ((s.core n).gather.foldl (fun t e => t.flushEntry n e) s).setCore n fun c => { c with gather := [] }

/-- The number from 1 on of the bundle in issue on a core, or of the last one issued (R259). -/
def CoreSt.cycleNow (c : CoreSt) : Nat := if c.issue.isSome then c.bundles + 1 else c.bundles

/-- Bytes of one line written through the gather buffer: a ninth line writes the oldest to its bank, and a line whose 64
bytes are all valid is written (R255, R256). -/
def State.gatherLine (s : State) (n line off : Nat) (bs : List Byte) : State :=
  let g := (s.core n).gather
  let put (t : Tab Byte) : Tab Byte :=
    (List.range bs.length).foldl (fun acc i => tabSet acc (off + i) (bs.getD i 0)) t
  let s1 :=
    if g.any (fun e => e.line == line) then
      s.setCore n fun c => { c with gather := c.gather.map fun e =>
        if e.line = line then { e with bytes := put e.bytes, wroteAt := c.cycleNow } else e }
    else
      let s0 := match g with
        | e :: r => if g.length < 8 then s else (s.flushEntry n e).setCore n fun c => { c with gather := r }
        | [] => s
      s0.setCore n fun c => { c with gather := c.gather ++ [⟨line, put [], c.cycleNow⟩] }
  match (s1.core n).gather.find? fun e => e.line == line with
  | some e => if e.bytes.length = 64 then
      (s1.flushEntry n e).setCore n fun c => { c with gather := c.gather.filter fun x => !(x.line == line) }
    else s1
  | none => s1

end Sys2Proof.Machine
end

