-- ==== Sys2Proof/Machine/Steps.lean ====
section
/-! DEFINITION. What becomes of a step, whichever command it meets: its end and its report (R176, R197), abort (R200),
suspension by a fault (R228–R234), the saving and freeing of its cores (R195, R275), and its relaunch. -/

namespace Sys2Proof.Machine

/-- A change of the state for each member of a list, in order. -/
def forEach {α : Type} (l : List α) (s : State) (f : State → α → State) : State := l.foldl f s

/-! ## Dispatch records -/

/-- The dispatch record of a step that has been read and whose end is not yet reported. -/
def State.step? (s : State) (q i : Nat) : Option StepRec := s.dq.steps.find? fun t => t.queue == q && t.index == i

/-- A dispatch record changed. -/
def State.modStep (s : State) (q i : Nat) (f : StepRec → StepRec) : State :=
  { s with dq := { s.dq with steps := s.dq.steps.map fun t => if t.queue = q ∧ t.index = i then f t else t } }

/-- The step a core holds. -/
def State.coreStep? (s : State) (n : Nat) : Option StepRec := (s.core n).step.bind fun k => s.step? k.1 k.2

/-- The device number of the head. -/
def State.headDevice (s : State) : Nat := (s.fab.plan.map (·.head)).getD 0

/-! ## The queue page (R138, R175) -/

/-- The group of a queue, when assigned. -/
def State.group (s : State) (q : Nat) : Option QGroup := tabGet? s.dq.groups (q / 64)

/-- Whether a descriptor belongs to a step. -/
def QDesc.of (d : QDesc) (q i : Nat) : Bool := d.queue == q && d.step == i

/-- Whether a step that runs waits at a hold barrier: at a GATE whose layer is not committed (R192, R196). -/
def State.atGate (s : State) (q i : Nat) : Bool := s.fleet.dies.any fun d => d.2.gates.any fun x => x.of q i

/-- QPG.STATUS.STATE. -/
def State.queueState (s : State) (q : Nat) : Nat :=
  match s.group q with
  | none => 0
  | some g =>
    if !(s.queue q).configured || (s.context g.ctag).dying then 0
    else
      let cur := s.step? q (s.queue q).completed
      let base := if (s.queue q).slot.isSome then 2 else 1
      match cur with
      | none => base
      | some t => match t.cond with
        | .suspending => 3
        | .suspended => 3
        | .held => 4
        | .preempted => 5
        | _ => if s.atGate t.queue t.index then 4 else base

/-- QPG.STATUS. -/
def State.queueStatus (s : State) (q : Nat) : Nat :=
  match s.group q with
  | none => 0
  | some g =>
    let x := s.queue q
    (x.consumed % 2 ^ 32) * 2 ^ 32 + (x.slot.getD 0) * 2 ^ 24 + flag x.slot.isSome 23 + s.queueState q * 2 ^ 20
      + x.cls * 2 ^ 18 + g.ctag

/-- The five fields of a queue entry, as a member sends them to the head (R204). -/
def State.queueMirror (s : State) (q : Nat) : Mirror :=
  let x := s.queue q
  { completed := x.completed, consumed := x.consumed, status := s.queueStatus q
    fault := (x.faultStep % 2 ^ 32) * 2 ^ 32 + x.faultCode, epoch := x.epochA * 2 ^ 32 + x.epochW }

/-- A member sends the head each change of a queue entry (R204). -/
def State.mirrorOut (s : State) (q : Nat) : State :=
  if s.isHead then s else s.send s.headDevice 3 (.mirror q (s.queueMirror q))

/-- The head is sent the entries of every queue of a group (R204). -/
def State.mirrorGroup (s : State) (g : Nat) : State := forEach ((List.range 64).map (64 * g + ·)) s State.mirrorOut

/-! ## Engines and their descriptors (R271–R273) -/

/-- The engine index of an instance of a kind of engine (R233, R249). -/
def engineIndex (kind inst : Nat) : Nat :=
  match kind with
  | 1 => inst
  | 2 => 8 + inst
  | 3 => 12 + inst
  | 4 => 14
  | 5 => 16 + inst
  | _ => 24 + inst

/-- The number of instances of a kind on a die (R22). -/
def engineCount (kind : Nat) : Nat :=
  match kind with
  | 1 => 8
  | 2 => 4
  | 3 => 2
  | 4 => 1
  | 5 => 8
  | 6 => 2
  | _ => 0

/-- The key under which a core counts the credits spent on an instance. -/
def creditKey (kind inst : Nat) : Nat := kind * 16 + inst

/-- The kind of an engine by its engine index; 0 for the range walker and the Expansion stages, to which nothing is enqueued. -/
def engineKind (idx : Nat) : Nat :=
  if idx < 8 then 1 else if idx < 12 then 2 else if idx < 14 then 3 else if idx = 14 then 4
  else if 16 ≤ idx ∧ idx < 24 then 5 else if 24 ≤ idx ∧ idx < 26 then 6 else 0

/-- The instance number of an engine within its kind, by its engine index. -/
def engineInst (idx : Nat) : Nat :=
  if idx < 8 then idx else if idx < 12 then idx - 8 else if idx < 14 then idx - 12 else if idx = 14 then 0
  else if idx < 24 then idx - 16 else idx - 24

/-- A descriptor leaves an engine: the enqueuing core's credit returns and one fewer is outstanding, while the core still works
for the descriptor's step. -/
def State.creditBack (s : State) (idx : Nat) (d : QDesc) : State :=
  s.setCore d.core fun c =>
    if c.step = some (d.queue, d.step) then { c with
      credits := tabMod 0 c.credits (creditKey (engineKind idx) (engineInst idx)) (· - 1)
      outstanding := c.outstanding - 1 }
    else c

/-- The reads of an engine for a context are forgotten. -/
def State.dropEngineReads (s : State) (die idx ctag : Nat) : State :=
  { s with host := { s.host with reads := s.host.reads.filter fun r => !(r.purpose == ReadPurpose.engine die idx && r.ctag == ctag) } }

/-- The streams at a Reducer's ingress that a REDUCE of a context and key takes, one from each source, and what is left (R495). -/
def takeStreams (ctag key : Nat) : List Nat → List ReduceChunk → List ReduceChunk × List ReduceChunk
  | _, [] => ([], [])
  | ended, c :: r =>
    if c.ctag = ctag ∧ c.key = key ∧ !ended.contains c.source then
      let (a, b) := takeStreams ctag key (if c.last then c.source :: ended else ended) r
      (c :: a, b)
    else
      let (a, b) := takeStreams ctag key ended r
      (a, c :: b)

/-- The engines of a die drop a step's descriptors, whose credits return; with `keep` each core records its own, and a descriptor in
hand stays to be finished (R273). -/
def State.dropDescs (s : State) (q i : Nat) (keep : Bool) : State :=
  forEach s.fleet.dies s fun s d =>
    let s1 := forEach d.2.engines s fun s e =>
      let stays (x : QDesc) : Bool := !x.of q i || (keep && e.2.inHand == some x)
      let mine := (e.2.queue ++ e.2.side).filter fun x => !stays x
      let s2 := forEach mine s fun s x =>
        let s3 := s.creditBack x.engine x
        if keep then s3.setCore x.core fun c => { c with dropped := c.dropped ++ [x] } else s3
      let s2' := forEach mine s2 fun s x => s.dropEngineReads d.1 e.1 x.ctag
      s2'.setEngine d.1 e.1 fun y => { y with
        queue := y.queue.filter stays
        side := y.side.filter fun x => !x.of q i
        inHand := y.inHand.filter stays, items := if y.inHand.all stays then y.items else []
        ingress := match y.inHand.filter fun x => !stays x with
          | some x => (takeStreams x.ctag (fieldAt x.bytes 0x2C 4) [] y.ingress).2
          | none => y.ingress }
    let gates := d.2.gates.filter fun x => x.of q i
    let s4 := forEach gates s1 fun s x =>
      let s3 := s.creditBack x.engine x
      if keep then s3.setCore x.core fun c => { c with dropped := c.dropped ++ [x] } else s3
    s4.setDie d.1 fun y => { y with gates := y.gates.filter fun x => !x.of q i }

/-! ## Release -/

/-- A core lets go of its step: it keeps its tag, its power state, its error counts and the objects of other steps. -/
def CoreSt.letGo (c : CoreSt) : CoreSt :=
  { freshCore with power := c.power, tag := c.tag, sync := c.sync
                   spent := c.spent, allowance := c.allowance, gather := [] }

/-- Whether a read is a core's own. -/
def HostRead.ofCore (r : HostRead) (n : Nat) : Bool :=
  match r.purpose with
  | .load m => m == n
  | .fetch m _ => m == n
  | _ => false

/-- A core lets go of its step, and of the reads it has outstanding. -/
def State.freeCore (s : State) (n : Nat) : State :=
  { s.setCore n CoreSt.letGo with host := { s.host with reads := s.host.reads.filter fun r => !r.ofCore n } }

/-- The sync objects of a core that a step holds are freed (R260). -/
def freeSync (t : Tab SyncObj) (q i : Nat) : Tab SyncObj := t.filter fun o => !(o.2.step == some (q, i))

/-- Whether an arrival is for a combiner entry, whatever the phase (R267). -/
def Combiner.takes (c : Combiner) (m : BarrierMsg) : Bool :=
  c.function == m.function && c.ctag == m.ctag && c.key == m.key && c.barrier == m.barrier

/-- Held arrivals for the entries of a step are discarded and counted in a record (R268). -/
def State.dropHeld (s : State) (t : StepRec) : State :=
  let mine := s.fleet.dies.flatMap fun d => d.2.combiners.filter fun c => c.queue == t.queue && c.step == t.index
  let gone := s.fleet.heldArrivals.filter fun m => mine.any fun c => c.takes m
  if gone.isEmpty then s
  else
    { s with fleet := { s.fleet with heldArrivals := s.fleet.heldArrivals.filter fun m => !(mine.any fun c => c.takes m) } }.cometF0
      4 ((t.cores.headD 0)) gone.length 0

/-- Open entries end without counters, and grants from them and those recorded for their matches lapse (R433). -/
def Weights.dropEntries (w : Weights) (es : List OpenEntry) : Weights :=
  let gone (m : SeMatch) : Bool := es.any fun e => e.m == m
  { w with
    entries := w.entries.filter fun e => !es.contains e
    grants := w.grants.filter fun g => !gone g.m
    keptGrants := w.keptGrants.filter fun g => !gone g.m }

/-- Everything a step holds is released: cores, sync objects, slices, combiner entries, walks and reads (R197, R238,
R260, R267). -/
def State.releaseStep (s : State) (t : StepRec) : State :=
  let k := (t.queue, t.index)
  let s1 := (s.dropHeld t).dropDescs t.queue t.index false
  let s2 := forEach t.cores s1 fun s n =>
    let s' := if (s.core n).step = some k then (s.flushGather n).freeCore n else s
    s'.setCore n fun c => { c with sync := freeSync c.sync t.queue t.index }
  let s3 := forEach (List.range 8) s2 fun s d =>
    if (tabGet? s.fleet.dies d).isSome then
      s.setDie d fun x => { x with
        sliceHeld := x.sliceHeld.filter fun h => !(h.2 == k)
        combiners := x.combiners.filter fun c => !(c.queue == t.queue && c.step == t.index) }
    else s
  { s3 with
    ctx := { s3.ctx with walks := s3.ctx.walks.filter fun w => !(w.step == some k) }
    wt := s3.wt.dropEntries (s3.wt.entries.filter fun e => e.queue == t.queue && e.step == t.index) }

/-! ## The report of an end (R197, R231) -/

/-- Bytes 0x60–0x7F of a step descriptor. -/
def endBytes (t : StepRec) (status : Nat) : List Byte :=
  leBytes 2 status ++ leBytes 2 0 ++ leBytes 4 t.epochW ++ leBytes 4 t.epochA ++ leBytes 4 0 ++ leBytes 8 t.launchTime
    ++ leBytes 8 t.endTime

/-- Address of bytes 0x60–0x7F of a step's descriptor. -/
def State.endVa (s : State) (t : StepRec) : Nat :=
  let qu := s.queue t.queue
  qu.ringVa + t.index % 2 ^ qu.log2 * 128 + 0x60

/-- Status code of a fault kind (R227). -/
def faultStatus (kind : Nat) : Nat :=
  match kind with
  | 1 => ST_XLATE
  | 2 => ST_PERMISSION
  | 3 => ST_XLATE
  | 5 => ST_ISOLATION
  | _ => ST_KVREFUSED

/-- The function that owns the scratchpad or Commons slice that an address of a context reaches, 0xFFFF for none (R238, R548). -/
def State.windowOwner (s : State) (ctag va : Nat) : Nat :=
  let tag : Option Nat := (s.tableWalk ctag va).bind fun e => match locate (e.2.target + (va - e.2.vaBase)) with
    | .commons d sl _ => tabGet none (s.die d).sliceTag sl
    | .scratch n _ => (s.core n).tag
    | _ => none
  ((tag.bind (tabGet? s.ctx.ctxs)).map (·.owner)).getD 0xFFFF

/-- Area and instance of the record of a fault by an agent of a step (R548). -/
def agentArea (q agentKind agent : Nat) : Nat × Nat :=
  if agentKind = 9 then (6, q / 64) else (4, if agentKind = 1 then agent else 0x800 + agent)

/-- The comet record that goes with the fault record of an access: of an isolation block, or of a target no longer populated
(R26, R239). -/
def State.accessComet (s : State) (t : StepRec) (kind detail va agentKind agent : Nat) : State :=
  let a := agentArea t.queue agentKind agent
  if kind = 5 then s.cometF1 a.1 a.2 (some t.ctag) detail t.fn (s.windowOwner t.ctag va)
  else if kind = 1 ∧ detail = 1 then s.cometF7 3 (a.2 % 4096) (words2 va)
  else s

/-- The write of bytes 0x60–0x7F, and the code of its failure, if it fails. -/
def State.writeBackStep (s : State) (t : StepRec) (status : Nat) : State × Option Nat :=
  let va := s.endVa t
  let c := s.context t.ctag
  let fail (kind detail ri a : Nat) : State × Option Nat :=
    let s1 := (s.useRefusal c kind detail).fltRecord t.fn { s.fltBlank with
      kind := kind, access := if kind = 5 then 0 else 2, status := status, ctag := t.ctag, queue := t.queue
      stepIndex := t.index, va := a, agentKind := 9, agent := s.cx.active, rangeIndex := ri, detail := detail
      flags := 2 }
    (s1.accessComet t kind detail a 9 s.cx.active, some (faultStatus kind))
  match s.nowParts dispUnit t.ctag va 32 2 c with
  | .ok ps => ((s.afterNow dispUnit t.ctag ps).writeParts ⟨t.ctag, none, 9, s.cx.active⟩ c ps (endBytes t status), none)
  | .ask _ _ => (s, none)
  | .fault k d ri a => fail k d ri a

/-- The report of one step's end: the descriptor bytes, then QPG.EPOCH or QPG.FAULT, then QPG.COMPLETED. -/
def State.reportStep (s : State) (t : StepRec) (status : Nat) : State :=
  let (s1, bad) := if t.writeBack then s.writeBackStep t status else (s, none)
  let named := t.program != 0 && (t.model.isSome || t.adapter.isSome)
  let s2 := s1.setQueue t.queue fun x =>
    let x1 := if status = ST_OK ∧ named then { x with epochW := t.epochW, epochA := t.epochA } else x
    let x2 := if status = ST_OK ∧ bad = none then x1
      else { x1 with faultStep := t.index % 2 ^ 32, faultCode := bad.getD status }
    { x2 with completed := x2.completed + 1, lastEnd := s.aon.clock }
  let s3 := { s2 with dq := { s2.dq with
    steps := s2.dq.steps.filter fun u => !(u.queue == t.queue && u.index == t.index)
    plans := s2.dq.plans.filter fun x => !(x.1 == (t.queue, t.index)) } }
  s3.mirrorOut t.queue

/-- Ends recorded are reported in ring order (R176): the current step's, if it has ended and its write-back waits neither for a walk that
an invalidation holds (R222) nor for a translation by ATS, which is asked for (R225). -/
def State.reportNext (s : State) (q : Nat) : State :=
  match s.step? q (s.queue q).completed with
  | none => s
  | some t => match t.ended with
    | none => s
    | some st =>
      if !t.writeBack then s.reportStep t st
      else if s.nowHeld dispUnit t.ctag (s.endVa t) 32 2 then s
      else match s.nowParts dispUnit t.ctag (s.endVa t) 32 2 (s.context t.ctag) with
        | .ask port page => s.askAts port (pasidKey (s.context t.ctag).pasid) page
        | _ => s.reportStep t st

/-- The ends of the queues of a context that waited for an invalidation are reported (R222). -/
def State.reportCtx (s : State) (ctag : Nat) : State :=
  forEach ((s.dq.steps.filter fun t => t.ctag == ctag && t.ended.isSome).map (·.queue)) s State.reportNext

/-- A step ends with a status: what it holds is released, its end is recorded, and the ends that ring order allows are
reported. A step ends exactly once. -/
def State.endStep (s : State) (q i status : Nat) : State :=
  match s.step? q i with
  | none => s
  | some t =>
    if t.ended.isSome then s
    else
      let s1 := s.releaseStep t
      let s2 := s1.modStep q i fun u => { u with
        ended := some status, endTime := s.aon.timebase, cores := [], saved := [], preemptedBy := none }
      (s2.reportNext q).reportNext q

/-! ## Saving and freeing a core (R195, R228, R275) -/

/-- Bytes of the register image of a core (R275). -/
def regImage : Nat := 8704

/-- The position of a core among a step's cores, counted over the dies in order. -/
def relOf (t : StepRec) (n : Nat) : Nat := t.cores.findIdx (· == n)

/-- The program of a step. -/
def State.programOf (s : State) (t : StepRec) : Option Program :=
  s.ctx.programs.find? fun p => p.ctag == t.ctag && p.handle == t.program

/-- The extents of the live set of the last safe point of a core. -/
def State.liveExtents (s : State) (t : StepRec) (n : Nat) : List (Nat × Nat) :=
  match s.programOf t, (s.core n).lastSafept with
  | some p, some l => ((p.liveSets.find? fun x => x.id == l).map (·.extents)).getD []
  | _, _ => []

/-- What a core saves. -/
def State.savedOf (s : State) (t : StepRec) (n : Nat) : SavedCore :=
  let c := s.core n
  { regs := c.issue.getD c.regs, pc := c.pc, loops := c.loops
    extents := (s.liveExtents t n).map fun e => (e.1, s.ownRead n e.1 e.2)
    dropped := c.dropped, mark := c.mark, ended := c.ended, rel := c.rel, group := c.group
    recInvalid := c.recInvalid, recSched := c.recSched, recTile := c.recTile }

/-- Bytes that the spec does not lay out, each a free value (log entry 15). -/
def freeBytes : Nat → State → List Byte × State
  | 0, s => ([], s)
  | n + 1, s =>
    let (v, s1) := s.draw
    let (r, s2) := freeBytes n s1
    (BitVec.ofNat 8 v :: r, s2)

/-- A scratchpad zeroed with valid check bits, its gather buffer emptied. -/
def State.scrubCore (s : State) (n : Nat) : State :=
  { s.setCore n (fun c => { c with gather := [] }) with mem := s.mem.zero (scratchBase + n * mib2) mib2 }

/-- An access or a signal to another context's object: a kind 5 record to the step's function, a comet record, and the
step's end. -/
def State.isolate (s : State) (q i detail va agentKind agent owner ri : Nat) : State :=
  match s.step? q i with
  | none => s
  | some t =>
    let s1 := s.fltRecord t.fn { s.fltBlank with
      kind := 5, status := ST_ISOLATION, ctag := t.ctag, queue := q, stepIndex := i, va := va, agentKind := agentKind
      agent := agent, rangeIndex := ri, detail := detail, flags := 2 }
    let a := agentArea q agentKind agent
    (s1.cometF1 a.1 a.2 (some t.ctag) detail t.fn owner).endStep q i ST_ISOLATION

/-- One core saves its live state to its part of the save area, is scrubbed and reports free; where the save faults, the
step keeps its cores (R230). -/
def State.saveCore (s : State) (q i n : Nat) : State :=
  match s.step? q i with
  | none => s
  | some t =>
    if (tabGet? t.saved n).isSome || t.coresHeld then s
    else
      let s0 := (s.flushGather n).setCore n fun x => { x with saving := false }
      let bytes := ((s0.programOf t).map (·.saveBytes)).getD 0
      let va := t.saveVa + relOf t n * bytes
      let c := s0.context t.ctag
      let need := regImage + ((s0.liveExtents t n).map (·.2)).sum
      let fail (kind detail ri a : Nat) : State :=
        if kind = 5 then s0.isolate q i detail a 1 n (s0.windowOwner t.ctag a) ri
        else
          ((((s0.useRefusal c kind detail).fltRecord t.fn { s0.fltBlank with
            kind := kind, access := 2, status := faultStatus kind, ctag := t.ctag, queue := q, stepIndex := i, va := a
            agentKind := 1, agent := n, rangeIndex := ri, detail := detail, flags := 5 }).accessComet t kind detail a 1 n).modStep q i
              fun u => { u with coresHeld := true, cond := .suspended, faultStatus := faultStatus kind }).mirrorOut q
      match s0.nowParts (quadUnit n) t.ctag va need 2 c with
      | .ok ps =>
        let sv := s0.savedOf t n
        let (bs, s1) := freeBytes need s0
        let s2 := ((s1.afterNow (quadUnit n) t.ctag ps).writeParts ⟨t.ctag, some (q, i), 1, n⟩ c ps bs).scrubCore n
        ((s2.freeCore n).setCore n fun x => { x with freed := true }).modStep q i fun u => { u with saved := tabSet u.saved n sv }
      | .ask port page => (s0.setCore n fun x => { x with saving := true }).askAts port (pasidKey c.pasid) page
      | .fault k d ri a => fail k d ri a

/-- Whether an engine has a descriptor of a step in hand. -/
def State.stepInHand (s : State) (q i : Nat) : Bool :=
  s.fleet.dies.any fun d => d.2.engines.any fun e => e.2.inHand.any fun x => x.of q i

/-- The cores of a step that have not saved. -/
def StepRec.unsaved (t : StepRec) : List Nat := t.cores.filter fun n => (tabGet? t.saved n).isNone

/-- Whether a stop order of a step has taken hold: a core has saved, or holds descriptors that engines have dropped, or the step is to be
suspended. A pre-emption order whose victim ends before a safe point lapses (R196). -/
def State.stopHolds (s : State) (t : StepRec) : Bool :=
  decide (t.unsaved.length < t.cores.length) || t.unsaved.any (fun n => !(s.core n).dropped.isEmpty) || (match t.cond with
    | .suspending => true
    | _ => false)

/-- When every core of a stopped step that has not ended is free, and no engine has a descriptor of it in hand, the cores that have
ended save too, and the step is pre-empted or suspended. -/
def State.settleStep (s : State) (q i : Nat) : State :=
  match s.step? q i with
  | none => s
  | some t =>
    if s.stopHolds t && t.unsaved.all (fun n => (s.core n).ended) && !s.stepInHand q i then
      let s1 := forEach t.unsaved s fun s n => s.saveCore q i n
      match s1.step? q i with
      | none => s1
      | some u =>
        if u.unsaved.isEmpty then
          (s1.modStep q i fun u => { u with
            cond := match u.cond with
              | .preempting => .preempted
              | .suspending => .suspended
              | c => c }).mirrorOut q
        else s1
    else s

/-- The saves of a context's cores that waited for a translation go on (R195, R225). -/
def State.resumeSaves (s : State) (ctag : Nat) : State :=
  forEach (s.dq.steps.filter fun t => t.ctag == ctag) s fun s t =>
    let ns := t.cores.filter fun n => (s.core n).saving
    if ns.isEmpty then s else (forEach ns s fun s n => s.saveCore t.queue t.index n).settleStep t.queue t.index

/-- A stop order to a step's cores: those that wait or have faulted save at once, the others at their next safe point, those that
have ended when the last of these has; engines drop the step's descriptors. -/
def State.stopCores (s : State) (q i : Nat) (faulting : Option Nat) : State :=
  match s.step? q i with
  | none => s
  | some t =>
    let s1 := s.dropDescs q i true
    let s2 := forEach t.cores s1 fun s n =>
      let s' := s.setCore n fun c => { c with stopOrdered := true }
      if ((s'.core n).waiting && !(s'.core n).ended) || faulting == some n then s'.saveCore q i n else s'
    s2.settleStep q i

/-! ## Faults (R227, R228, R234, R239) -/

/-- A fault of kind 1, 2 or 3 by an agent of a step, at a member's memory: the step is suspended, or ends when the same agent faults
again at the same address before its next safe point. -/
def State.faultStepAt (s : State) (device q i kind access detail ri va agentKind agent : Nat) : State :=
  match s.step? q i with
  | none => s
  | some t =>
    let rep := t.faults.contains (agentKind, agent, va)
    let s1 := s.fltRecord t.fn { s.fltBlank with
      kind := kind, access := access, status := faultStatus kind, ctag := t.ctag, queue := q, stepIndex := i, va := va
      agentKind := agentKind, device := device, agent := agent, rangeIndex := ri, detail := detail, flags := if rep then 18 else 1 }
    let s2 := s1.accessComet t kind detail va agentKind agent
    if rep then s2.endStep q i (faultStatus kind)
    else
      let s3 := s2.modStep q i fun u => { u with
        cond := .suspending, faults := (agentKind, agent, va) :: u.faults, faultStatus := faultStatus kind }
      (s3.stopCores q i (if agentKind = 1 then some agent else none)).mirrorOut q

/-- A fault at this device's own memory. -/
def State.faultStep (s : State) (q i kind access detail ri va agentKind agent : Nat) : State :=
  s.faultStepAt s.fab.device q i kind access detail ri va agentKind agent

/-- A fault of an access of a step, of any kind that a translation gives. -/
def State.accessFault (s : State) (q i kind access detail ri va agentKind agent : Nat) : State :=
  if kind = 5 then s.isolate q i detail va agentKind agent (((s.step? q i).map fun t => s.windowOwner t.ctag va).getD 0xFFFF) ri
  else s.faultStep q i kind access detail ri va agentKind agent

/-! ## Abort (R200, R201) -/

/-- Whether a step's cores run. -/
def StepRec.runs (t : StepRec) : Bool :=
  match t.cond with
  | .running => true
  | .preempting => true
  | .suspending => true
  | .aborting => true
  | _ => false

/-- An abort commits: a step whose cores do not run ends at once, another is marked as aborting. -/
def State.abortStep (s : State) (q i status : Nat) : State :=
  match s.step? q i with
  | none => s
  | some t =>
    if t.runs then s.modStep q i fun u => { u with cond := .aborting, faultStatus := status }
    else
      let s1 := if t.coresHeld then forEach t.cores s fun s n => s.scrubCore n else s
      s1.endStep q i status

/-- Every step of a context, or every step that meets a condition, ends with a status. -/
def State.endSteps (s : State) (p : StepRec → Bool) (status : Nat) : State :=
  forEach (s.dq.steps.filter fun t => p t && t.ended.isNone) s fun s t => s.endStep t.queue t.index status

/-! ## Relaunch (R195, R230, R234) -/

/-- An extent written back into a scratchpad. -/
def State.restoreExtents (s : State) (n : Nat) (es : List (Nat × List Byte)) : State :=
  forEach es s fun s e => s.bankWrite n e.1 e.2

/-- Hops between two dies under R21's grid of two rows of four. -/
def dieHops (a b : Nat) : Nat :=
  max (a % 4) (b % 4) - min (a % 4) (b % 4) + (max (a / 4) (b / 4) - min (a / 4) (b / 4))

/-- The engine indexes of the kind of an engine. -/
def engineSiblings (idx : Nat) : List Nat := (List.range (engineCount (engineKind idx))).map (engineIndex (engineKind idx))

/-- The working instance of a die that serves what is enqueued to an engine: itself, or the lowest-numbered of its kind. -/
def State.workingOn (s : State) (die idx : Nat) : Option Nat :=
  if (s.die die).retired then none
  else if !(s.engine die idx).retired then some idx
  else (engineSiblings idx).find? fun i => !(s.engine die i).retired

/-- The die and engine that serve what is enqueued to an engine (R541). -/
def State.server (s : State) (die idx : Nat) : Nat × Nat :=
  match s.workingOn die idx with
  | some i => (die, i)
  | none =>
    let other (d : Nat) : Option Nat := (engineSiblings idx).find? fun i => !(s.engine d i).retired
    match minBy (dieHops die) ((List.range 8).filter fun d => d != die && !(s.die d).retired && (other d).isSome) with
    | some d => (d, (other d).getD idx)
    | none => (die, idx)

/-- A descriptor placed in the queue of the engine that serves it, behind one in hand: bank 1 ahead of bank 0, each in arrival
order (R271), which wakes its die (R72). -/
def State.enqueue (s : State) (die idx : Nat) (d : QDesc) : State :=
  let e := s.server die idx
  (s.wakeDie e.1).setEngine e.1 e.2 fun e =>
    let first := e.inHand.toList
    let rest := if first.isEmpty then e.queue else e.queue.drop 1
    { e with queue := first ++ rest.filter (fun x => x.bank ≥ d.bank) ++ [d] ++ rest.filter fun x => x.bank < d.bank }

/-- A core's dropped descriptors issued again to the engines they were enqueued to. -/
def State.reissue (s : State) (n : Nat) (ds : List QDesc) : State :=
  forEach ds s fun s d =>
    (s.enqueue (n / 64) d.engine d).setCore n fun c => { c with
      credits := tabMod 0 c.credits (creditKey (engineKind d.engine) (engineInst d.engine)) (· + 1)
      outstanding := c.outstanding + 1 }

/-- A core takes a context's tag; one that served another context before has its scratchpad zeroed first (R238). -/
def State.tagCore (s : State) (n ctag : Nat) : State :=
  let s1 := if (s.core n).tag = some ctag then s else s.scrubCore n
  s1.setCore n fun c => { c with tag := some ctag }

/-- One core takes up again what it saved, ACTIVE on an ACTIVE die (R69). -/
def State.restoreCore (s : State) (q i ctag n : Nat) (sv : SavedCore) : State :=
  let s0 := (s.tagCore n ctag).setDie (n / 64) fun x => { x with power := .active }
  let s1 := s0.setCore n fun c => { c.letGo with
    power := .active, lastIssue := s.aon.clock, regs := sv.regs, pc := sv.pc, loops := sv.loops, step := some (q, i), ended := sv.ended
    mark := sv.mark, rel := sv.rel, group := sv.group, recInvalid := sv.recInvalid, recSched := sv.recSched
    recTile := sv.recTile }
  (s1.restoreExtents n sv.extents).reissue n sv.dropped

/-- A core that kept its state through a failed save goes on in place, its dropped descriptors issued again (R230, R234). -/
def State.continueCore (s : State) (n : Nat) : State :=
  let ds := (s.core n).dropped
  (s.setCore n fun c => { c with stopOrdered := false, waiting := false, dropped := [] }).reissue n ds

/-- A stopped step runs again on the same cores, with the same epochs: those that saved restore what they saved, the others go on in
place. -/
def State.relaunch (s : State) (q i : Nat) : State :=
  match s.step? q i with
  | none => s
  | some t =>
    let s0 := if t.coresHeld then forEach t.unsaved s State.continueCore else s
    let s1 := forEach t.saved s0 fun s e => s.restoreCore q i t.ctag e.1 e.2
    (s1.modStep q i fun u => { u with cond := .running, saved := [], coresHeld := false, preemptedBy := none }).mirrorOut q

end Sys2Proof.Machine
end

