-- ==== Sys2Proof/Machine/KvBase.lean ====
section
/-! DEFINITION. KV pools, records and offers as every chapter meets them (R366–R369, R379, R382, R384). -/

namespace Sys2Proof.Machine

/-- Bytes of a block of a pool. -/
def Pool.block (p : Pool) : Nat := 2 ^ p.log2
/-- Frames of a pool, N. -/
def Pool.total (p : Pool) : Nat := p.length / p.block
/-- Frames that hold the record table, T. -/
def Pool.tableFrames (p : Pool) : Nat := (64 * p.total + p.block - 1) / p.block
/-- Records of a pool, R. -/
def Pool.records (p : Pool) : Nat := 2 * (p.total - p.tableFrames)
/-- Address of a frame. -/
def Pool.framePa (p : Pool) (f : Nat) : Nat := p.base + f * p.block
/-- The frame at an address. -/
def Pool.frameOf (p : Pool) (pa : Nat) : Nat := (pa - p.base) / p.block
/-- A record. -/
def Pool.record (p : Pool) (r : Nat) : KvRec := tabGet freshKv p.recs r
/-- A record changed. -/
def Pool.setRec (p : Pool) (r : Nat) (f : KvRec → KvRec) : Pool := { p with recs := tabMod freshKv p.recs r f }
/-- A frame is sent to scrub: unlisted frames await it. -/
def Pool.toScrub (p : Pool) (f : Nat) : Pool :=
  match tabGet? p.frames f with
  | some .retired => p
  | _ => { p with frames := tabDel p.frames f }

/-- The partner of a pool number, p XOR 0x20. -/
def partnerOf (p : Nat) : Nat := if p / 32 % 2 = 0 then p + 32 else p - 32

/-- A pool, if it exists. -/
def State.pool? (s : State) (p : Nat) : Option Pool := tabGet? s.kv.pools p

/-- An existing pool changed. -/
def State.modPool (s : State) (p : Nat) (f : Pool → Pool) : State :=
  { s with kv := { s.kv with pools := tabMap (fun k x => if k = p then f x else x) s.kv.pools } }

/-- The current incarnation of a CTAG (R384). -/
def State.incarnation (s : State) (ctag : Nat) : Nat := tabGet 0 s.ctx.incarnation ctag

/-- Whether a record holds a block of a context: held or lost, with the owner's current incarnation (R368, R384). -/
def State.recLive (s : State) (r : KvRec) : Bool :=
  (r.state == .held || r.state == .lost) && r.incarnation == s.incarnation r.owner

/-- Whether a record is stale: its owner's incarnation has gone on (R384). -/
def State.recStale (s : State) (r : KvRec) : Bool := r.state != .free && !s.recLive r

/-- The pool in which a record's block lies. -/
def homeOf (p : Nat) (r : KvRec) : Nat := if r.inPartner then partnerOf p else p

/-- A move is abandoned: its reserved frame returns to scrub (R382). -/
def State.abandonMove (s : State) (p r : Nat) : State :=
  match s.pool? p with
  | none => s
  | some x =>
    let k := x.record r
    if !k.moving then s
    else
      let dest := if k.inPartner then p else partnerOf p
      (s.modPool dest fun y => y.toScrub k.moveFrame).modPool p fun y =>
        { y.setRec r (fun k => { k with moving := false, moveFrame := 0 }) with moves := y.moves.filter fun m => m.1 != r }

/-- Every move of every pool is abandoned. -/
def State.abandonMoves (s : State) : State :=
  forEach (s.kv.pools.flatMap fun p => p.2.moves.map fun m => (p.1, m.1)) s fun s m => s.abandonMove m.1 m.2

/-- The marks of an offer are cleared and the offer ends (R379). -/
def State.endOffer (s : State) (number : Nat) : State :=
  { s with kv := { s.kv with
      offers := s.kv.offers.filter fun o => o.number != number
      pools := tabMap (fun _ p =>
        { p with recs := tabMap (fun _ r => if r.offer = number then { r with offer := 0 } else r) p.recs }) s.kv.pools } }

/-- A record as the 32 bytes of its table (R369). -/
def kvBytes (r : KvRec) (clock : Nat) : List Byte :=
  let st := match r.state with
    | .free => 0
    | .held => 1
    | .stale => 2
    | .lost => 3
  leBytes 8 r.sequence ++ leBytes 6 r.framePa ++ leBytes 2 r.count ++ leBytes 2 (r.owner % 4096 + st * 4096 + flag r.moving 14 + flag r.inPartner 15)
    ++ leBytes 2 r.incarnation ++ leBytes 4 r.offer ++ leBytes 4 r.moveFrame ++ leBytes 2 r.putGen
    ++ leBytes 1 (r.hint % 4 + min 63 ((clock - r.lastGather) / 2 ^ 30) * 4) ++ [0]

/-- What the allocators do at the commit point of a context's destruction: its incarnation rises, offers by or to it are
cancelled and its moves abandoned (R384). -/
def State.destroyKv (s : State) (ctag : Nat) : State :=
  let moves := s.kv.pools.flatMap fun p => (p.2.recs.filter fun r => r.2.moving && r.2.owner == ctag).map fun r => (p.1, r.1)
  let s1 := forEach moves s fun s m => s.abandonMove m.1 m.2
  let s2 := forEach (s1.kv.offers.filter fun o => o.from_ == ctag || o.to_ == ctag) s1 fun s o => s.endOffer o.number
  { s2 with ctx := { s2.ctx with incarnation := tabSet s2.ctx.incarnation ctag ((s2.incarnation ctag + 1) % 65536) } }

end Sys2Proof.Machine
end

