-- ==== Sys2Proof/Machine/Flags.lean ====
section
/-! DEFINITION. What the registers read (R126–R138, R471, R482, R536, R537, R555), the working units and the service floor they report,
the settings in force, comet records as bytes, and the dump that holds them (R547–R557). -/

namespace Sys2Proof.Machine

/-! ## Settings (R93, R94, R102) -/

/-- A row of the settings table: factory value, least and greatest value, step, and whether a runtime value is allowed. -/
structure SettingRow where
  id      : Nat
  factory : Nat
  low     : Nat
  high    : Nat
  by_     : Nat
  runtime : Bool

/-- The settings. -/
def settingRows : List SettingRow :=
  [⟨1, 1, 0, 1, 1, false⟩, ⟨2, 3600, 900, 3600, 25, false⟩, ⟨3, 0, 0, 1, 1, false⟩, ⟨4, 0, 0, 1, 1, true⟩,
   ⟨5, 4, 0, 64, 1, true⟩, ⟨6, 256, 64, 65536, 1, true⟩, ⟨7, 0, 0, 1, 1, true⟩, ⟨8, 3, 1, 4, 1, true⟩]

/-- The row of a setting. -/
def settingRow (id : Nat) : Option SettingRow := settingRows.find? fun r => r.id == id

/-- Whether a value lies in a setting's range. -/
def SettingRow.ok (r : SettingRow) (v : Nat) : Bool := decide (r.low ≤ v ∧ v ≤ r.high ∧ (v - r.low) % r.by_ = 0)

/-- The value that the site layer supplies. -/
def siteValue (l : SiteLayer) (id : Nat) : Option Nat := (l.entries.find? fun e => e.1 == id).map (·.2)

/-- The value in force of a setting and the layer that supplies it: 1 factory, 2 site, 3 runtime. -/
def Config_.inForce (c : Config_) (r : SettingRow) : Nat × Nat :=
  match tabGet? c.runtime r.id with
  | some v => (v, 3)
  | none =>
    match (if r.id ≤ 3 then c.siteStart else c.site).bind fun l => siteValue l r.id with
    | some v => (v, 2)
    | none => (r.factory, 1)

/-- The value in force of a setting. -/
def State.setting (s : State) (id : Nat) : Nat := ((settingRow id).map fun r => (s.cfg.inForce r).1).getD 0

/-- Logical cores of a die that are mapped. -/
def State.mappedCores (s : State) (d : Nat) : List Nat := ((List.range 64).map (d * 64 + ·)).filter s.coreMapped

/-- The cores of a die that setting 0x0005 reserves for URGENT steps: the lowest-numbered (log entry 10). -/
def State.reservedCores (s : State) (d : Nat) : List Nat := (s.mappedCores d).take (s.setting 5)

/-! ## Sideband outputs (R38) -/

/-- MOD_SVC_N reads high: it is asserted, low, while the module is in SERVICE. -/
def State.modSvcN (s : State) : Bool := s.pp.state != .service

/-- PRSNT_N reads high: it is low while the module is fully seated, which MAIN_SENSE shows (log entry 94). -/
def State.prsntN (s : State) : Bool := !s.pp.mainSense

/-! ## Working units and the service floor (R129, R545) -/

/-- Cores mapped on a die. -/
def State.dieCores (s : State) (d : Nat) : Nat := 4 * ((List.range 16).filter fun k => (s.quad d k).isSome).length

/-- HBM stacks of a die in service. -/
def State.dieStacks (s : State) (d : Nat) : Nat := ((List.range 2).filter fun i => decide (0 < (s.half (d * 4 + i)).channels)).length

/-- Enabled logical cores (ID.COMPLEMENT.CORES). -/
def State.coreCount (s : State) : Nat := ((List.range 8).map s.dieCores).sum

/-- HBM stacks in service. -/
def State.stackCount (s : State) : Nat := ((List.range 8).map s.dieStacks).sum

/-- LPDDR5X packages in service. -/
def State.packageCount (s : State) : Nat :=
  ((List.range 32).filter fun h => decide (2 ≤ h % 4 ∧ 0 < (s.half h).channels)).length

/-- Dies in service, as a mask. -/
def State.dieMask (s : State) : Nat := ((List.range 8).map fun d => if (s.die d).retired then 0 else 2 ^ d).sum

/-- Links in service, as a mask. -/
def State.linkMask (s : State) : Nat := ((List.range 18).map fun l => if (s.link l).retired then 0 else 2 ^ l).sum

/-- Whether an I/O die has been retired. -/
def State.ioRetired (s : State) (i : Nat) : Bool := s.rel.retired.contains (.ioDie i)

/-- The working units reach the service floor: an I/O die with its complex, a compute die with 16 cores and a stack, and a
flash device with a slot (R545). -/
def State.aboveFloor (s : State) : Bool :=
  (!s.ioRetired 0 || !s.ioRetired 1) &&
  (List.range 8).any (fun d => !(s.die d).retired && decide (16 ≤ s.dieCores d ∧ 1 ≤ s.dieStacks d)) &&
  ((s.cfg.flashA.ok && s.cfg.flashA.slot.isSome) || (s.cfg.flashB.ok && s.cfg.flashB.slot.isSome))

/-! ## Limits that registers show (R507, R513–R519) -/

/-- The fused safe cap, in W. -/
def safeCap : Nat := 2200

/-- The live limit without the trim: PWR.CAP.LIVE_LIMIT before it is truncated to whole watts. -/
def State.liveLimit (s : State) : Nat := 8 * (if s.pwr.govClamp then min s.pwr.cap safeCap else s.pwr.cap) - s.pwr.coolant

/-- Phases in service of a die's core rail. -/
def DiePower.phases (d : DiePower) : Nat := 16 - d.phasesOut.length

/-- A die's ceiling in 1/16, and its pace. -/
def DiePower.ceiling (d : DiePower) : Nat := min d.currentCeil d.thermalCeil

/-- The pace of a die's engines (R515). -/
def State.diePace (s : State) (d : Nat) : Nat := min s.pwr.pace (s.diePower d).thermalPace

/-- The allowance of a format (0 BF16 and FP16, 1 FP8, 2 FP4) at a quota in 1/16. -/
def allowanceOf (matched : Bool) (fmt v : Nat) : Nat :=
  let a :=
    match fmt, matched with
    | 1, true => v * 21 / (16 * 23)
    | 2, true => v * 3 / (16 * 4)
    | 1, false => v * (58 + Config.fusedRatio8 % 5) / (16 * 64)
    | 2, false => v * (48 + Config.fusedRatio4 % 5) / (16 * 64)
    | _, _ => v / 16
  min 64 a

/-! ## Channels and links as registers show them -/

/-- The pair of masters that a channel is bound to (R118), once the Supervisor has written the binding table. -/
def State.boundPair (s : State) (c : Nat) : Option (Nat × Nat) :=
  if !s.cfg.bindingLocked then none
  else if c < 512 then some (masterOf (c / 2), 2)
  else if c < 516 then some (1, 2)
  else if c < 518 then some (2, 3)
  else if c < 520 then some (1, 3)
  else if c < 522 then some (2, 4)
  else if c < 524 then some (2, 6)
  else if c < 528 then some (2, 5)
  else if c < 532 then some (2, 0x12)
  else if c < 536 then some (1, 0x11)
  else none

/-- Whether a master belongs to the pair of a channel. -/
def State.bound (s : State) (c m : Nat) : Bool := (s.boundPair c).any fun p => p.1 == m || p.2 == m

/-- A number for a link's state (R471). -/
def LinkState.code (x : LinkState) : Nat :=
  match x with
  | .down => 0
  | .training => 1
  | .identified => 2
  | .matched => 3
  | .quarantined => 4
  | .mgmtOnly => 5
  | .failed => 6

/-- The port that a link lies in. -/
def State.portOf (s : State) (l : Nat) : Option (Nat × PortDef) := s.fab.ports.find? fun p => bit p.2.mask l

/-! ## Words of registers -/

/-- A field placed at a bit. -/
def at_ (v lo n : Nat) : Nat := v % 2 ^ n * 2 ^ lo

/-- ID.VERSION (R129). -/
def State.idVersion (s : State) : Nat :=
  at_ 2 48 8 + at_ 1 40 8 + at_ s.cfg.minor 32 8 + at_ s.cfg.stepping 16 16 + 8

/-- ID.COMPLEMENT (R129). -/
def State.idComplement (s : State) : Nat :=
  let reduced : Bool := decide (s.coreCount < 512 ∨ s.stackCount < 16 ∨ s.packageCount < 16 ∨ s.dieMask ≠ 255 ∨ s.linkMask ≠ 2 ^ 18 - 1)
  flag reduced 50 + at_ s.linkMask 32 18 + at_ s.dieMask 20 8 + at_ s.packageCount 15 5 + at_ s.stackCount 10 5 + at_ s.coreCount 0 10

/-- ID.COMPLEX (R129). -/
def State.idComplex (s : State) : Nat :=
  at_ s.cx.takeovers 32 32 + at_ s.aon.lead 2 1 + flag s.cx.standbyReady 1 + at_ s.cx.active 0 1

/-- The ID block as a function sees it. -/
def State.idBlock (s : State) (f off : Nat) : Nat :=
  match off with
  | 0x000 => s.idVersion
  | 0x008 => at_ s.cfg.serial 0 64
  | 0x010 => if f = 0 then at_ s.pp.phase 0 4 else 0
  | 0x018 => if f = 0 then s.idComplement else 0
  | 0x020 => if f = 0 then s.idComplex else 0
  | 0x028 => at_ f 16 8 + masterOf f
  | 0x030 => if f = 0 then at_ s.aon.rackPos 0 4 else 0
  | _ => 0

/-- The TIME block (R130). -/
def State.timeBlock (s : State) (f off : Nat) : Nat :=
  match off with
  | 0x000 => at_ s.aon.timebase 0 64
  | 0x008 => at_ s.aon.boot 0 32
  | 0x010 => if f = 0 then ofSigned 32 s.fab.offset * 2 ^ 32 + flag s.fab.slewing 1 + flag s.fab.locked 0 else 0
  | _ => 0

/-- PWR.STATE.MODULE_STATE. -/
def ModuleState.code (x : ModuleState) : Nat :=
  match x with
  | .service => 1
  | .drain => 2
  | .retain => 3
  | .standby => 4
  | .startup => 5
  | .mgmtOnly => 6
  | .off => 0

/-- PWR.STATE (R131). -/
def State.pwrState (s : State) : Nat :=
  let thermal := s.pp.thermalHold || (List.range 8).any fun d => decide ((s.diePower d).thermalCeil < 1536)
  flag thermal 7 + flag s.pwr.govClamp 6 + flag s.pwr.matched 5 + flag s.pp.warned 4 + flag s.pp.hold 3 + s.pp.state.code

/-- PWR.LIMITER (R536). -/
def State.pwrLimiter (s : State) : Nat :=
  let a (f : Nat) : Nat := allowanceOf s.pwr.matched f s.pwr.q
  at_ (a 2) 40 8 + at_ (a 1) 32 8 + at_ (a 0) 24 8 + at_ s.pwr.pace 16 4 + at_ s.pwr.q 0 11

/-- PWR.DIE of a die (R537). -/
def State.pwrDie (s : State) (d : Nat) : Nat :=
  let x := s.diePower d
  ofSigned 8 x.tempMax * 2 ^ 56 + at_ (s.die d).point 52 4 + at_ x.phases 47 5 + flag x.senseOut 46
    + flag (decide (x.thermalCeil < 1536)) 45 + min x.droops 8191 * 2 ^ 32 + at_ x.dieW 16 16 + at_ (s.diePace d) 7 4
    + at_ (x.ceiling / 16) 0 7

/-- The PWR block, the PF's only. -/
def State.pwrBlock (s : State) (off : Nat) : Nat :=
  match off with
  | 0x000 => s.pwrState
  | 0x008 => at_ (s.liveLimit / 8) 16 12 + at_ s.pwr.cap 0 12
  | 0x010 => at_ s.pwr.imain 32 16 + at_ s.pp.vauxMv 16 16 + at_ s.pp.vmainMv 0 16
  | 0x018 => at_ s.pwr.peakW 16 16 + at_ s.pwr.meanW 0 16
  | 0x020 => ofSigned 16 s.pwr.outlet * 2 ^ 16 + ofSigned 16 s.pwr.inlet
  | 0x028 => at_ s.pwr.energyMj 0 64
  | 0x030 => s.pwrLimiter
  | _ => if 0x100 ≤ off ∧ off < 0x140 ∧ off % 8 = 0 then s.pwrDie ((off - 0x100) / 8) else 0

/-- The LOG registers (R132, R555). -/
def State.logBlock (s : State) (off : Nat) : Nat :=
  match off with
  | 0x000 => at_ s.aon.logCount 0 64
  | 0x008 => at_ s.rel.dumpNumber 32 32 + at_ s.rel.dumpWhere 1 2 + flag s.rel.dumpValid 0
  | _ => 0

/-- The FLT block of a function (R133). -/
def State.fltBlock (s : State) (f off : Nat) : Nat :=
  let h := s.fn f
  match off with
  | 0x000 => h.fltBase / 4096 * 4096
  | 0x008 => flag h.fltEnable 63 + at_ h.fltLog2 0 5
  | 0x010 => h.fltProducer
  | 0x018 => h.fltConsumer
  | 0x020 => flag h.fltWriteError 1 + flag h.fltHeldBit 0
  | _ => 0

/-- RLY.LINK of a link (R471). -/
def State.rlyLink (s : State) (l : Nat) : Nat :=
  let x := s.link l
  let port := (s.portOf l).filter fun p => s.linkCarries p.2 l
  let n := x.neighbour
  at_ x.retries 48 16 + flag port.isSome 43 + at_ ((port.map (·.1)).getD 0) 38 5 + at_ ((n.map (·.device)).getD 0) 32 6
    + at_ ((n.map (·.link)).getD 0) 27 5 + at_ x.state.code 24 3 + at_ x.effMinor 16 8 + at_ ((n.map (·.major)).getD 0) 8 8
    + flag x.degraded 0

/-- RLY.PORT of a port (R482). -/
def State.rlyPort (s : State) (p : Nat) : Nat :=
  match tabGet? s.fab.ports p with
  | none => 0
  | some d =>
    let active := ((List.range 18).map fun l => if s.linkCarries d l then 2 ^ l else 0).sum
    flag true 31 + flag (decide (0 < active)) 30 + at_ d.neighbour 24 6 + at_ active 0 18

/-- The RLY block, the PF's only (R136, R471, R482). -/
def State.rlyBlock (s : State) (off : Nat) : Nat :=
  match off with
  | 0x000 => flag s.fab.plan.isSome 39 + flag s.isHead 38 + at_ s.fab.device 32 6 + at_ ((s.fab.plan.map (·.podId)).getD 0) 0 32
  | 0x008 => at_ s.fab.members 0 64
  | 0x010 => at_ s.dq.discarded 32 32 + at_ s.dq.forwarded 0 32
  | 0x018 => at_ ((s.fab.plan.map (·.version)).getD 0) 32 32 + at_ s.fab.podState 0 2
  | _ =>
    if off % 8 ≠ 0 then 0
    else if 0x100 ≤ off ∧ off < 0x190 then s.rlyLink ((off - 0x100) / 8)
    else if 0x200 ≤ off ∧ off < 0x290 then s.rlyPort ((off - 0x200) / 8)
    else 0

/-- MBX.STATUS of a channel as a master reads it (R137). -/
def State.mbxStatus (s : State) (c m : Nat) : Nat :=
  let x := s.chan c
  at_ x.owner 48 16 + at_ x.sent 16 16 + flag x.withdrawn 3 + flag x.taken 2 + flag x.full 1 + flag (s.bound c m) 0

/-- A channel page as the function whose page it is reads it, without the claim that a read of LOCK.CLAIM makes. -/
def State.mbxPage (s : State) (c m off : Nat) : Nat :=
  if off < 0x100 then leNat ((List.range 8).map fun i => tabGet 0 (s.chan c).buf (off + i))
  else match off with
    | 0x108 => s.mbxStatus c m
    | 0x128 => flag (s.chan c).emptyEn 1 + flag (s.chan c).msgEn 0
    | _ => 0

/-- A register of a queue entry, by its offset in the entry, from the five fields that a member also mirrors (R138, R204). -/
def mirrorEntry (m : Mirror) (off : Nat) : Nat :=
  match off with
  | 0x08 => m.completed
  | 0x10 => m.status
  | 0x18 => m.fault
  | 0x20 => m.epoch
  | _ => 0

/-- A queue entry as a function reads it: its own and the PF's view; to any other function, and while its group is unassigned, zero
(R139). -/
def State.qpgEntry (s : State) (f q off : Nat) : Nat :=
  match s.group q with
  | none => 0
  | some g => if f = g.fn ∨ f = 0 then mirrorEntry (s.queueMirror q) off else 0

/-- Eight bytes of a vector's entry in the MSI-X table: its address, or its data with the vector control (R125, R575). -/
def HostFn.msixWord (h : HostFn) (off : Nat) : Nat :=
  match h.vecs[off / 16]? with
  | none => 0
  | some x => if off % 16 = 0 then x.addr else if off % 16 = 8 then x.data + flag x.masked 32 else 0

/-- The pending-bit array of a function (R575). -/
def HostFn.pbaWord (h : HostFn) (off : Nat) : Nat :=
  if off = 0 then ((h.vecs.mapIdx fun i x => flag x.pending i)).sum else 0

/-! ## Comet records, the alert and the dump (R547, R550, R556, R557) -/

/-- The 64 bytes of a comet record (R547). -/
def cometBytes (r : CometRec) : List Byte :=
  let p := (r.payload.take 10).flatMap (leBytes 4)
  leBytes 8 r.time ++ leBytes 4 r.boot ++ leBytes 2 r.code ++ leBytes 1 r.severity ++ leBytes 1 r.device ++ leBytes 2 r.source
    ++ leBytes 2 r.ctag ++ leBytes 4 r.number ++ p ++ List.replicate (40 - p.length) 0

/-- Record n of the log, counting from 0, while the ring holds it (R132). -/
def AlwaysOn.record (a : AlwaysOn) (n : Nat) : Option CometRec :=
  if n < a.logCount then a.ring[a.logCount - 1 - n]? else none

/-- The Comet log window: record n at index n mod 4,096 (R132). -/
def AlwaysOn.window (a : AlwaysOn) (i : Nat) : List Byte :=
  let n := a.logCount - 1 - (a.logCount + 4095 - i) % 4096
  if i < 4096 ∧ (i < a.logCount ∨ 4096 ≤ a.logCount) then ((a.record n).map cometBytes).getD (List.replicate 64 0) else List.replicate 64 0

/-- SMB_ALERT_N is asserted: the ring holds a record at or above the severity of setting 8 whose number is at or above the BMC
mark (R550). -/
def State.smbAlert (s : State) : Bool :=
  (s.aon.ring.mapIdx fun i r => decide (s.setting 8 ≤ r.severity ∧ s.aon.bmcMark + i < s.aon.logCount)).any id

/-- A block of registers as 4 KiB. -/
def blockBytes (f : Nat → Nat) : List Byte := (List.range 512).flatMap fun i => leBytes 8 (f (8 * i))

/-- Items of a section of a dump, of one size each: the spec gives what they hold and not how they lay it out (R557, log entry 101). -/
def dumpItems (kind size : Nat) (items : List (List Nat)) : Nat × List Byte :=
  (items.length, items.flatMap fun x => (Config.dumpItem kind x ++ List.replicate size 0).take size)

/-- Whether a step's context has a protected range mapped, so that a dump leaves its core images out (R557). -/
def State.stepSecret (s : State) (t : StepRec) : Bool :=
  (s.mem.ranges (s.context t.ctag).tableBase).any fun e => e.2.kind == 1 && bit e.2.attrs 0

/-- A core in a dump: number, CTAG, queue, ring index, bundle index, object identifier and flags (R557). -/
def State.dumpCore (s : State) (n : Nat) : List Nat :=
  let c := s.core n
  match s.coreStep? n with
  | some t => [n, t.ctag, t.queue, t.index, c.pc, ((s.programOf t).map (·.objectId)).getD 0, flag (s.stepSecret t) 0]
  | none => [n]

/-- The image of a core in a dump: zeros where its step's context has a protected range mapped. -/
def State.dumpImage (s : State) (n : Nat) : List Nat :=
  if (s.coreStep? n).any s.stepSecret then [] else
  let r := (s.core n).regs
  r.x.flatMap (fun e => [e.1, e.2.toNat]) ++ r.p.flatMap (fun e => [e.1, b2n e.2]) ++ r.v.flatMap fun e => e.1 :: e.2.map (·.toNat)

/-- Dispatch records, slots and pre-emption records in a dump, a step's user_tag among them (R181, R557). -/
def State.dumpDispatch (s : State) : Nat × List Byte :=
  let slots := dumpItems 6 16 ((List.range 256).map fun n => n :: (s.dq.queues.filter fun q => q.2.slot == some n).map (·.1))
  let recs := dumpItems 6 64 (s.dq.steps.map fun t => [t.queue, t.index, t.ctag, t.program, t.userTag, t.epochW, t.epochA, t.launchTime])
  let plans := dumpItems 6 64 (s.dq.plans.map fun p => [p.1.1, p.1.2] ++ p.2.flatMap fun v => [v.1, v.2])
  (slots.1 + recs.1 + plans.1, slots.2 ++ (recs.2 ++ List.replicate (4096 * 64) 0).take (4096 * 64) ++ plans.2)

/-- The books' state of a pool or record in a dump: pool summaries, and the records that move or are offered (R369, R557). -/
def State.dumpKv (s : State) : Nat × List Byte :=
  let pools := dumpItems 9 64 (s.kv.pools.map fun p => [p.1, p.2.base, p.2.length, p.2.log2, p.2.tier])
  let recs := s.kv.pools.flatMap fun p => (p.2.recs.filter fun r => r.2.moving || r.2.offer != 0).map fun r => kvBytes r.2 s.aon.clock
  (pools.1 + min recs.length 65536, pools.2 ++ (recs.take 65536).flatten)

/-- The sections of a dump: kind, items and bytes (R557). Those of kinds 5 and 10 to 12 are free values. -/
def State.dumpSections (s : State) (v : Nat) : List (Nat × Nat × List Byte) :=
  let held := (List.range 512).filter fun n => (s.core n).step.isSome
  [(1, s.aon.ring.length, s.aon.ring.reverse.flatMap cometBytes),
   (2, 6, blockBytes (s.idBlock 0) ++ blockBytes (s.timeBlock 0) ++ blockBytes s.pwrBlock ++ blockBytes s.logBlock
     ++ blockBytes s.rlyBlock ++ blockBytes (s.fltBlock 0)),
   (3, dumpItems 3 64 ((List.range 576).map s.dumpCore)),
   (4, held.length, held.flatMap fun n =>
     if (s.coreStep? n).any s.stepSecret then List.replicate regImage 0 else (dumpItems 4 regImage [s.dumpImage n]).2),
   (5, Config.dumpSection 5 v),
   (6, s.dumpDispatch),
   (7, dumpItems 7 256 ((s.cx.journal.filter fun j => !j.replied).map fun j => [j.id, j.opcode, j.hdr.tag, b2n j.committed, j.status])),
   (8, dumpItems 8 32 ((List.range 4096).map fun t => match tabGet? s.ctx.ctxs t with
     | some c => [t, c.owner, c.pasid.getD 0, c.homePort, b2n c.pasid.isSome, b2n c.compat, b2n c.dying]
     | none => [t])),
   (9, s.dumpKv)]
  ++ [10, 11, 12].map fun i => (i, Config.dumpSection i v)

/-- Zeros up to a 4 KiB boundary. -/
def padPage (b : List Byte) : List Byte := b ++ List.replicate ((4096 - b.length % 4096) % 4096) 0

/-- Directory entries of sections from an offset on. -/
def dumpDir : Nat → List (Nat × Nat × List Byte) → List Byte
  | _, [] => []
  | off, (k, n, b) :: r =>
    leBytes 2 k ++ leBytes 2 0 ++ leBytes 4 n ++ leBytes 8 off ++ leBytes 8 b.length ++ leBytes 4 (crc32c b) ++ leBytes 4 0
      ++ dumpDir (off + (padPage b).length) r

/-- The version of a running image, by its kind. -/
def State.imageVersion (s : State) (kind : Nat) : Nat :=
  ((s.cx.running.bind fun t => t.images.find? fun i => i.kind == kind).map (·.version)).getD 0

/-- A complete dump (R556). -/
def State.dumpBytes (s : State) (cause v : Nat) : List Byte :=
  let secs := s.dumpSections v
  let body := secs.flatMap fun x => padPage x.2.2
  let dir := dumpDir 0x1000 secs
  leBytes 4 0x504D5544 ++ leBytes 2 1 ++ leBytes 2 secs.length ++ leBytes 8 s.cfg.serial ++ leBytes 4 s.aon.boot ++ leBytes 2 cause
    ++ leBytes 1 s.fab.device ++ leBytes 1 1 ++ leBytes 8 s.aon.timebase ++ leBytes 8 (0x1000 + body.length)
    ++ leBytes 8 s.aon.logCount ++ leBytes 8 s.idVersion
    ++ (leBytes 4 (s.imageVersion 1) ++ leBytes 4 (s.imageVersion 2) ++ leBytes 4 (s.imageVersion 3) ++ leBytes 4 (s.imageVersion 4))
    ++ sha256 body ++ List.replicate 24 0 ++ dir ++ List.replicate (0x1000 - 0x80 - dir.length) 0 ++ body

/-! ## Reads of the BARs (R126–R138, R572) -/

/-- The bytes of the Comet log window at an offset. -/
def State.logWindow (s : State) (off : Nat) : Nat := fieldAt (s.aon.window (off / 64)) (off % 64) 8

/-- PF BAR0 as the PF reads it, eight bytes at an offset (R127). -/
def State.pfBar0 (s : State) (off : Nat) : Nat :=
  let o := off % 4096
  match off / 4096 with
  | 0 => s.idBlock 0 o
  | 1 => s.timeBlock 0 o
  | 2 => s.pwrBlock o
  | 3 => s.logBlock o
  | 4 => s.fltBlock 0 o
  | 5 => s.rlyBlock o
  | 6 => (s.fn 0).msixWord o
  | 7 => (s.fn 0).pbaWord o
  | p =>
    if 0x10000 ≤ off ∧ off < 0x50000 then s.logWindow (off - 0x10000)
    else if 256 ≤ p ∧ p < 768 then
      (if p - 256 < 2 then s.mbxPage (p - 256) 0x100 o else if o = 0x108 then s.mbxStatus (p - 256) 0x100 else 0)
    else 0

/-- VF BAR0 as its VF reads it (R128). -/
def State.vfBar0 (s : State) (f off : Nat) : Nat :=
  let o := off % 4096
  match off / 4096 with
  | 0 => s.idBlock f o
  | 1 => s.timeBlock f o
  | 2 => (s.fn f).msixWord o
  | 3 => (s.fn f).pbaWord o
  | 4 => s.fltBlock f o
  | 8 => s.mbxPage (2 * f) (masterOf f) o
  | 9 => s.mbxPage (2 * f + 1) (masterOf f) o
  | _ => 0

/-- BAR2 of a function: queue pages by group, or by the page a VF was given (R126). -/
def State.bar2 (s : State) (f off : Nat) : Nat :=
  let page := off / 4096
  let e := off % 4096 / 64
  if f = 0 then s.qpgEntry 0 (page * 64 + e) (off % 64)
  else match s.dq.groups.find? fun g => g.2.fn == f && g.2.vfPage == page with
    | some g => s.qpgEntry f (g.1 * 64 + e) (off % 64)
    | none => 0

/-- PF BAR4, the pod window: the mirrors of the other members' entries, and this device's own (R126, R204). The window of a
member whose bit in RLY.MEMBERS is zero, and on a device that is not head any other's, reads as all ones (R140). -/
def State.bar4 (s : State) (off : Nat) : Nat :=
  let m := off / 2 ^ 22
  let q := off % 2 ^ 22 / 64
  if m = s.fab.device then s.qpgEntry 0 q (off % 64)
  else if !s.isHead || !bit s.fab.members m then 2 ^ 64 - 1
  else mirrorEntry (tabGet freshMirror s.dq.mirrors (m * 65536 + q)) (off % 64)

/-- Bytes of a register that a narrow read addresses (R12). -/
def narrowed (v off size : Nat) : Nat := v / 2 ^ (8 * off) % 2 ^ (8 * size)

/-- What a read of eight bytes of a BAR returns to a host function: all ones where the port cannot accept the request. A read of
LOCK.CLAIM is the command of its own. -/
def State.readBar (s : State) (a : Access) (bar off : Nat) : Nat :=
  match fnOf a.master with
  | none => 0
  | some f =>
    if !((s.port a.port).up && (s.port a.port).cfgReady && (s.port a.port).on f && (s.port a.port).memOn f) then 2 ^ 64 - 1
    else match bar with
      | 0 => if f = 0 then s.pfBar0 off else s.vfBar0 f off
      | 2 => s.bar2 f off
      | 4 => if f = 0 then s.bar4 off else 0
      | _ => 0

/-- What a naturally aligned read of 1, 2, 4 or 8 bytes of a BAR returns: the bytes it addresses (R12). -/
def State.readBytes (s : State) (a : Access) (bar off size : Nat) : Nat := narrowed (s.readBar a bar (off / 8 * 8)) (off % 8) size

end Sys2Proof.Machine
end

