-- ==== Sys2Proof/Machine/Resets.lean ====
section
/-! DEFINITION. The resets of R78 and what each leaves, the loss of power, the retirement of units (R363, R541–R545), the
service floor, and the entry into DRAIN (R49–R51). -/

namespace Sys2Proof.Machine

/-! ## Core, die and context resets (R78) -/

/-- A core reset: registers, scratchpad, gather buffer and sync objects; the core carries no tag (R238). -/
def State.coreReset (s : State) (n : Nat) : State :=
  (s.scrubCore n).setCore n fun c => { freshCore with power := c.power }

/-- A Commons slice zeroed and left without a tag. -/
def State.scrubSlice (s : State) (d sl : Nat) : State :=
  { s.setDie d (fun x => { x with sliceTag := tabSet x.sliceTag sl none }) with
    mem := s.mem.zero (commonsBase + d * 2 ^ 27 + sl * mib2) mib2 }

/-- Whether a step has a core or an engine descriptor on a die. -/
def State.stepOnDie (s : State) (d : Nat) (t : StepRec) : Bool :=
  t.cores.any (fun n => n / 64 == d) ||
    ((s.die d).engines.any fun e => (e.2.queue ++ e.2.side).any fun x => x.of t.queue t.index) ||
    (s.die d).gates.any fun x => x.of t.queue t.index

/-- The die's cores, Commons, sync objects and engines as a die reset leaves them, and its die fields (R78). -/
def State.dieClear (s : State) (d : Nat) : State :=
  let s1 := forEach ((List.range 64).map (d * 64 + ·)) s State.coreReset
  { s1.setDie d (fun x => { x with
      lostWrites := 0, sliceTag := [], sliceHeld := [], combiners := [], gates := [], blocked := 0, resetting := false
      engines := tabMap (fun _ e => { freshEngine with retired := e.retired}) x.engines }) with
    mem := s1.mem.zero (commonsBase + d * 2 ^ 27) (48 * mib2) }

/-- A context reset: the scratchpads and slices that carry its tag are scrubbed, its sync objects freed (R78). -/
def State.contextReset (s : State) (ctag : Nat) : State :=
  let s1 := forEach ((s.fleet.cores.filter fun c => c.2.tag == some ctag).map (·.1)) s fun s n =>
    (s.scrubCore n).setCore n fun c => { c with
      tag := none, sync := c.sync.filter fun o => !(o.2.owner == some ctag) }
  forEach s1.fleet.dies s1 fun s d =>
    forEach ((d.2.sliceTag.filter fun t => t.2 == some ctag).map (·.1)) s fun s sl => s.scrubSlice d.1 sl

/-! ## Loss of module state -/

/-- A die as a module start finds it: the sparing map is kept, the rest is fresh. -/
def DieSt.afterReset (x : DieSt) : DieSt :=
  { freshDie with
    quadMap := x.quadMap, retiredQuads := x.retiredQuads, spareRows := x.spareRows, retired := x.retired
    engines := (x.engines.filter fun e => e.2.retired).map fun e => (e.1, { freshEngine with retired := true }) }

/-- Every fault record held for a function is discarded, with one comet record for each function concerned (R134). -/
def State.discardHeld (s : State) (f : Nat) : State :=
  let n := (s.fn f).held.length + (s.fn f).beyond.length + (s.fn f).unsent.length
  if n = 0 then s
  else (s.setFn f fun h => { h with held := [], beyond := [], unsent := [] }).cometF7 5 supervisorId [f, n]

/-- A function's FLT registers and its TDI state at their reset values. -/
def HostFn.fltClear (h : HostFn) : HostFn :=
  { h with fltBase := 0, fltEnable := false, fltLog2 := 0, fltProducer := 0, fltConsumer := 0, fltWriteError := false
           fltHeldBit := false, held := [], beyond := [], unsent := [] }

/-- Every module, die and context field and every store that a module reset restores (R78, R80); `keepDump` keeps the
bytes of the reserved dump region. -/
def State.clearModule (s : State) (keepDump : Bool) : State :=
  let s1 := forEach (s.host.fns.map (·.1)) s State.discardHeld
  let kept : List Host.Cell := match keepDump, s.ctx.dumpBase with
    | true, some b => s.mem.cells.filter fun c => decide (b ≤ c.1 ∧ c.1 < b + 2 ^ 28)
    | _, _ => []
  { s1 with
    cx := { s1.cx with
      adopting := false, journal := [], deferred := [], waiting := [], answers := [], l2 := [], staged := none
      activating := false, stagedInStandbyOnly := false, stageItems := [] }
    mbx := { chans := [], sends := 0, serviceFrom := 0 }
    host := { s1.host with
      fns := tabMap (fun _ h => h.fltClear) s1.host.fns, reads := [], atc := [], atsAsked := [], atsRefused := [], atsInval := [] }
    ctx := { State.reset.ctx with dumpBase := if keepDump then s1.ctx.dumpBase else none }
    dq := State.reset.dq
    fleet := { s1.fleet with
      cores := [], dies := tabMap (fun _ x => x.afterReset) s1.fleet.dies, signals := [], arrivals := []
      releases := [], heldArrivals := [], libStaged := none, waking := [] }
    mem := { cells := kept, poison := [] }
    tiers := { halves := tabMap (fun _ h => { h with lost := false }) s1.tiers.halves, patrol := 0, selfRefresh := false }
    kv := State.reset.kv
    wt := State.reset.wt
    fab := { State.reset.fab with
      links := (s1.fab.links.filter fun l => s1.ioRetired (l.1 / 9)).map fun l => (l.1, { freshLink with state := .failed, retired := true }) }
    pwr := { s1.pwr with
      cap := State.reset.pwr.cap, q := 1536, pace := 8, trim := 0, overCount := 0, coolant := 0, meanW := 0, peakW := 0, dies := tabMap (fun _ d =>
        { freshDiePower with phasesOut := d.phasesOut, currentCeil := d.currentCeil }) s1.pwr.dies }
    cfg := { s1.cfg with runtime := [] }
    rel := { s1.rel with
      books := [], dumpHost := none
      retired := s1.rel.retired.filter fun u => match u with
        | .link l => s1.ioRetired (l / 9)
        | _ => true } }

/-- The configuration space of a port, as a reset of the port leaves it (R41): its link is down, nothing is enabled on it, and its
IDE keys are gone; the PERST_N pin stays as it is driven. -/
def HostPort.cleared (x : HostPort) : HostPort := { HostPort.off with perst := x.perst }

/-- The I/O and compute dies lose power: everything that a module reset restores, the dump region, the host links and
configuration spaces, the functions' vectors and TDI states, the library and the complexes (R54, R68, R573). -/
def State.powerDown (s : State) : State :=
  let s1 := s.clearModule false
  { s1 with
    host := { s1.host with fns := [], portA := s1.host.portA.cleared, portB := s1.host.portB.cleared }
    fleet := { s1.fleet with bank0 := none, bank1 := none, bankInForce := 0 }
    cx := { s1.cx with
      stateA := .absent, stateB := .absent, standbyReady := false, running := none, powerA := false, powerB := false } }

/-- The phase code moves to a phase, and the Keeper reports it to the BMC (R84). -/
def State.toPhase (s : State) (n : Nat) : State := { s with pp := { s.pp with phase := n } }.emit (.phaseReport n)

/-- What a start may have to go back to, as it stands now (R573). -/
def State.startMark (s : State) : StartMark :=
  { cfg := s.cfg, dies := s.fleet.dies, lanes := s.fleet.lanes, edgesDown := s.fleet.edgesDown, halves := s.tiers.halves
    links := s.fab.links, rel := s.rel }

/-- Nothing that the phases of an abandoned start made is kept (R573). -/
def State.abandon (s : State) : State :=
  match s.mark with
  | none => s
  | some m =>
    { s with
      cfg := m.cfg, rel := m.rel, mark := none
      fleet := { s.fleet with dies := m.dies, lanes := m.lanes, edgesDown := m.edgesDown }
      tiers := { s.tiers with halves := m.halves }
      fab := { s.fab with links := m.links } }

/-- The power of an I/O die. -/
def State.setIo (s : State) (i : Nat) (on : Bool) : State :=
  if i = 0 then { s with cx := { s.cx with powerA := on } } else { s with cx := { s.cx with powerB := on } }

/-- An I/O die is powered. -/
def State.ioPowered (s : State) (i : Nat) : Bool := if i = 0 then s.cx.powerA else s.cx.powerB

/-- An I/O die is powered, so that the mailboxes are. -/
def State.ioUp (s : State) : Bool := s.ioPowered 0 || s.ioPowered 1

/-- The complex of an I/O die set to a state. -/
def State.setComplex (s : State) (i : Nat) (st : ComplexState) : State :=
  if i = 0 then { s with cx := { s.cx with stateA := st } } else { s with cx := { s.cx with stateB := st } }

/-- The state of the complex of an I/O die. -/
def State.complex (s : State) (i : Nat) : ComplexState := if i = 0 then s.cx.stateA else s.cx.stateB

/-- The module enters STANDBY at the end of phase 0x2. -/
def State.toStandby (s : State) : State :=
  let s1 := s.powerDown
  { s1 with pp := { s1.pp with state := .standby, stopping := false } }.toPhase 2

/-- The phases of a module start begin: the lead I/O die is powered, and its complex starts (R84, R85). -/
def State.startPhase3 (s : State) : State :=
  { s with pp := { s.pp with state := .startup }, mark := some s.startMark }.setIo s.cx.active true |>.toPhase 3

/-- A module reset and start: PCIe links, configuration space, locks, the commanded hold's bit, the sparing map and the dump region
stay; both complexes start again, unless their die is retired (R78, R80, R85, R131). -/
def State.moduleReset (s : State) : State :=
  let s1 := s.clearModule true
  let other := 1 - s1.cx.active
  { (s1.setComplex other .absent) with
    cx := { (s1.setComplex other .absent).cx with standbyReady := false }
    pp := { s1.pp with stopping := false, interrupted := 0 } }.startPhase3

/-- A cold reset: beyond a module reset it clears locks, the binding table, cold fields and the sparing map, and powers the
I/O dies down; phases 0x2 to 0x9 follow (R78, R86). -/
def State.coldReset (s : State) : State :=
  let s1 := s.powerDown
  { s1 with
    mark := none
    pp := { s1.pp with state := .startup, hold := false, stopping := false, interrupted := 0 }
    cfg := { s1.cfg with bindingLocked := false }
    cx := { s1.cx with takeovers := 0 }
    fleet := { s1.fleet with dies := [], lanes := [], edgesDown := [] }
    tiers := { halves := [], patrol := 0, selfRefresh := false }
    fab := { s1.fab with links := [] }
    pwr := { s1.pwr with energyMj := 0, dies := [], railPhases := [] }
    rel := { State.reset.rel with dumpValid := false } }.toPhase 2

/-- The module falls to management only: host mailbox messages wait (R84, R88, R546). -/
def State.mgmtOnly (s : State) : State :=
  let s1 := s.clearModule true
  { s1 with mbx := s.mbx, mark := none, pp := { s1.pp with state := .mgmtOnly, stopping := false } }.toPhase 15

/-! ## Retirement (R242, R363, R541–R544) -/

/-- The instance of a unit in a comet record's numbering (R548), with its area. -/
def unitArea (u : UnitRef) : Nat × Nat :=
  match u with
  | .core n => (4, n)
  | .slice d s => (4, 0x800 + d * 32 + s % 32)
  | .die d => (4, 0x800 + d * 32)
  | .quad d q => (4, d * 64 + q * 4)
  | .engine d i => (4, 0x800 + d * 32 + i)
  | .channel h _ => (3, h)
  | .half h => (3, h)
  | .rowBlock d _ _ => (4, 0x800 + d * 32)
  | .laneGroup e _ _ => (4, 0xC00 + e)
  | .edge e => (4, 0xC00 + e)
  | .link l => (7, l)
  | .ioDie i => (2, 8 + i)

/-- The number of a unit in a record's payload. -/
def unitNumber (u : UnitRef) : Nat :=
  match u with
  | .core n => n
  | .slice d s => d * 64 + s
  | .die d => d
  | .quad d q => d * 32 + q
  | .engine d i => d * 32 + i
  | .channel h c => h * 64 + c
  | .half h => h
  | .rowBlock d s r => (d * 64 + s) * 512 + r
  | .laneGroup e dir g => (e * 2 + dir) * 32 + g
  | .edge e => e
  | .link l => l
  | .ioDie i => i

/-- A unit noted as retired, with its record of event 0xF4. -/
def State.noteRetired (s : State) (u : UnitRef) (cause spare : Nat) : State :=
  let s1 := if s.rel.retired.contains u then s else { s with rel := { s.rel with retired := u :: s.rel.retired } }
  s1.cometF4 (unitArea u).1 (unitArea u).2 (unitNumber u) cause spare

/-- Frames of the pools that lie wholly or partly in a region. -/
def Pool.framesIn (p : Pool) (base len : Nat) : List Nat :=
  (List.range (p.length / 2 ^ p.log2)).filter fun f => decide (0 < interLen (p.base + f * 2 ^ p.log2) (2 ^ p.log2) base len)

/-- The blocks of a pool whose frames lay in a region are lost, and its frames in an unpopulated region are retired (R363). -/
def Pool.loseHalf (p : Pool) (hb full size : Nat) : Pool :=
  let gone := p.framesIn (hb + size) (full - size)
  { p with
    recs := tabMap (fun _ r =>
      if decide (hb ≤ r.framePa ∧ r.framePa < hb + full) ∧ r.state = .held then { r with state := .lost } else r) p.recs
    frames := gone.foldl (fun t f => tabSet t f .retired) p.frames }

/-- A half re-forms over one channel fewer, or leaves service: its content is lost, and addresses beyond its size are
unpopulated (R363). A dump region in it is lost until the next module start (R553). -/
def State.halfShrink (s : State) (h channels : Nat) : State :=
  let s1 := s.setHalf h fun x => { x with channels := channels, lost := true }
  let hb := halfBase h
  let dump := match s.ctx.dumpBase with
    | some b => decide (hb ≤ b ∧ b < hb + 2 ^ 36)
    | none => false
  { s1 with
    mem := { (s1.mem.zero hb (2 ^ 36)) with poison := s1.mem.poison }
    kv := { s1.kv with pools := tabMap (fun _ p => p.loseHalf hb (2 ^ 36) (s1.halfBytes h)) s1.kv.pools }
    ctx := { s1.ctx with dumpBase := if dump then none else s1.ctx.dumpBase }
    rel := { s1.rel with dumpValid := s1.rel.dumpValid && !(dump && s1.rel.dumpWhere == 1) } }

/-- Whether no HBM stack of a die is left in service (R541). -/
def State.noStack (s : State) (d : Nat) : Bool := (s.half (d * 4)).channels == 0 && (s.half (d * 4 + 1)).channels == 0

/-- A channel is retired: when half of a stack's or package's channels are gone, the whole half leaves service (R541). -/
def State.retireChannel (s : State) (h ch cause : Nat) : State :=
  let whole := if h % 4 < 2 then 32 else 8
  let left := (s.half h).channels - 1
  let s1 := s.noteRetired (.channel h ch) cause 0xFFFFFFFF
  if left ≤ whole / 2 then (s1.noteRetired (.half h) cause 0xFFFFFFFF).halfShrink h 0 else s1.halfShrink h left

/-- A die and its cores and slices at OFF: no unit is shallower than its die (R69). -/
def State.dieOff (s : State) (d : Nat) : State :=
  let s1 := forEach ((List.range 64).map (d * 64 + ·)) s fun s n => s.setCore n fun c => { c with power := .off }
  s1.setDie d fun x => { x with power := .off, slicePower := (List.range 48).map fun sl => (sl, .off) }

/-- A compute die is retired: its steps end with ST_DIERESET, its units leave service; for a transit-domain fault (cause 4)
its memories leave service too (R543). -/
def State.retireDie (s : State) (d cause : Nat) : State :=
  if (s.die d).retired then s
  else
    let s1 := s.endSteps (fun t => s.stepOnDie d t) ST_DIERESET
    let s2 := ((s1.dieClear d).setDie d fun x => { x with retired := true }).dieOff d |>.noteRetired (.die d) cause 0xFFFFFFFF
    if cause = 4 then forEach [d * 4, d * 4 + 1, d * 4 + 2, d * 4 + 3] s2 fun s h => s.halfShrink h 0 else s2

/-- A compute die without a working HBM stack is retired (R541). -/
def State.dieWithoutStack (s : State) (d : Nat) : State := if s.noStack d then s.retireDie d 9 else s

/-- An I/O die is retired: its host port and its nine links leave service; its always-on share stops leading (R544). -/
def State.retireIo (s : State) (i cause : Nat) : State :=
  let s1 := s.noteRetired (.ioDie i) cause 0xFFFFFFFF
  let s2 := (s1.setPort i HostPort.cleared).setIo i false
  let s3 := forEach ((List.range 9).map (i * 9 + ·)) s2 fun s l => s.setLink l fun x => { x with state := .failed, retired := true }
  { s3 with
    cx := { (s3.setComplex i .heldInReset).cx with standbyReady := false }
    aon := { s3.aon with
      lead := if s3.aon.lead = i then 1 - i else s3.aon.lead
      lostA := s3.aon.lostA || i == 0, lostB := s3.aon.lostB || i == 1 } }

/-- A logical quad is marked for retirement (R242); the spare is mapped once no step holds its cores. -/
def State.retireQuad (s : State) (d k cause : Nat) : State :=
  if (s.die d).retiring.contains k then s
  else (s.setDie d fun x => { x with retiring := k :: x.retiring }).noteRetired (.quad d k) cause 0xFFFFFFFF

/-- The physical quads of a die that are neither mapped nor retired. -/
def State.spareQuads (s : State) (d : Nat) : List Nat :=
  (List.range 18).filter fun p =>
    !((List.range 16).any fun k => s.quad d k == some p) && !(s.die d).retiredQuads.contains p

/-- A marked quad's cores are reset and a spare physical quad is mapped; with none left the quad stays unmapped, and a die
below 16 working cores is retired (R242, R243, R541). -/
def State.mapSpare (s : State) (d k : Nat) : State :=
  let s1 := forEach ((List.range 4).map (d * 64 + 4 * k + ·)) s State.coreReset
  let old := s1.quad d k
  let s2 := s1.setDie d fun x => { x with
    retiredQuads := old.toList ++ x.retiredQuads, retiring := x.retiring.filter (· != k) }
  let spare := (s2.spareQuads d).head?
  let s3 := (s2.setDie d fun x => { x with quadMap := tabSet x.quadMap k spare }).cometF4 4 (d * 64 + 4 * k) (d * 32 + k) 1
    (spare.getD 0xFFFFFFFF)
  if s3.dieCores d < 16 then s3.retireDie d 1 else s3

/-! ## Fatal errors (R551–R556) -/

/-- Where a dump is written: 0 nowhere, 1 the reserved device region, 2 the host region selected (R553, R555). -/
def State.dumpWhere (s : State) : Nat :=
  if s.rel.dumpHost.isSome && (s.fnPort 0).isSome then 2 else if s.ctx.dumpBase.isSome then 1 else 0

/-- The bytes of a dump are written to its region. -/
def State.dumpOut (s : State) (b : List Byte) : State :=
  match s.dumpWhere, s.rel.dumpHost, s.ctx.dumpBase with
  | 2, some r, _ => s.postWrite ((s.fnPort 0).getD 0) ⟨0, r.pasid, r.addr, b, 0, .dump⟩
  | 1, _, some base => { s with mem := s.mem.writeN base b }
  | _, _, _ => s

/-- The dump is written, LOG.DUMP set and record 0x0502 written, which says whether a region was available (R552). -/
def State.writeDump (s : State) (cause : Nat) : State :=
  let w := s.dumpWhere
  let number := s.aon.logCount + s.aon.intake.length
  let v := s.draw
  let s1 := (v.2.dumpOut (s.dumpBytes cause v.1)).comet 0x0502 3 supervisorId none [w]
  { s1 with rel := { s1.rel with
      dumpValid := decide (0 < w), dumpWhere := w, dumpNumber := number % 2 ^ 32
      dump := if w = 0 then s1.rel.dump else some (cause, s.aon.timebase, s.aon.logCount) } }

/-- A fatal error of a cause of R551: the 0x0501 record, every step stopped, the dump, and a module reset, or management
only for the last cause. -/
def State.fatal (s : State) (cause : Nat) : State :=
  let s1 := s.comet 0x0501 4 supervisorId none [cause]
  let s2 := s1.writeDump cause
  if cause = 5 then s2.mgmtOnly else s2.moduleReset

/-- A retirement that leaves the module below the service floor is fatal (R545). -/
def State.checkFloor (s : State) : State := if s.aboveFloor then s else s.fatal 5

/-- A unit is retired, with all that follows (R541). -/
def State.retire (s : State) (u : UnitRef) (cause : Nat) : State :=
  match u with
  | .core n => s.retireQuad (n / 64) (n % 64 / 4) cause
  | .quad d k => s.retireQuad d k cause
  | .channel h c => ((s.retireChannel h c cause).dieWithoutStack (h / 4)).checkFloor
  | .half h => (((s.noteRetired u cause 0xFFFFFFFF).halfShrink h 0).dieWithoutStack (h / 4)).checkFloor
  | .die d => (s.retireDie d cause).checkFloor
  | .ioDie i => (s.retireIo i cause).checkFloor
  | .engine d i =>
    let moved := (s.engine d i).queue
    let s1 := (s.noteRetired u cause 0xFFFFFFFF).setEngine d i fun e => { e with retired := true, queue := [] }
    forEach moved s1 fun s x => s.enqueue (x.core / 64) x.engine x
  | .rowBlock d sl _ =>
    let used := tabGet 0 (s.die d).spareRows sl
    if used < 16 then
      (s.noteRetired u cause used).setDie d fun x => { x with spareRows := tabSet x.spareRows sl (used + 1) }
    else (s.retireDie d cause).checkFloor
  | .link l => (s.noteRetired u cause 0xFFFFFFFF).setLink l fun x => { x with state := .failed, retired := true }
  | .laneGroup e dir _ =>
    { s.noteRetired u cause 0xFFFFFFFF with fleet := { s.fleet with lanes := tabMod 0 s.fleet.lanes (e * 2 + dir) (· + 1) } }
  | .edge e => { s.noteRetired u cause 0xFFFFFFFF with fleet := { s.fleet with edgesDown := e :: s.fleet.edgesDown } }
  | .slice _ _ => s.noteRetired u cause 0xFFFFFFFF

/-! ## DRAIN (R49–R51) -/

/-- Whether a core of a running step has not stopped at a safe point. -/
def State.coreMoving (s : State) (n : Nat) : Bool :=
  let c := s.core n
  c.step.isSome && !c.waiting && !c.ended && !c.halted

/-- The cores that have not stopped. -/
def State.moving (s : State) : List Nat := (s.fleet.cores.map (·.1)).filter s.coreMoving

/-- Whether a step runs on a core that has not stopped: a pre-empted step keeps cores that another runs on. -/
def State.stepMoving (s : State) (t : StepRec) : Bool :=
  t.cores.any fun n => s.coreMoving n && (s.core n).step == some (t.queue, t.index)

/-- The engines with a descriptor in hand, as instances in area 0x4 (R49, R548). -/
def State.movingEngines (s : State) : List Nat :=
  s.fleet.dies.flatMap fun d => (d.2.engines.filter fun e => e.2.inHand.isSome && !e.2.retired).map fun e => 0x800 + d.1 * 32 + e.1

/-- The steps with a core that has not stopped are interrupted (R51). -/
def State.interruptMoving (s : State) : State :=
  let hit := s.dq.steps.filter fun t => s.stepMoving t && !t.interrupted
  let s1 := forEach hit s fun s t => s.modStep t.queue t.index fun u => { u with interrupted := true }
  let s2 := forEach s1.moving s1 fun s n => s.setCore n fun c => { c with halted := true }
  { s2 with pp := { s2.pp with interrupted := s2.pp.interrupted + hit.length } }

/-- Copies of a weight swap that a DRAIN or a die's reset meets stop: the layer starts again from its staging (R465). -/
def State.stopCopies (s : State) (p : Model → Bool) : State :=
  let stop (m : Model) : Model :=
    if !p m then m
    else match m.phase with
      | .copying => { m with phase := .staging }
      | .restoring => if m.restoreStep = 1 then { m with restoreStep := 0 } else m
      | _ => m
  { s with wt := { s.wt with models := tabMap (fun _ m => stop m) s.wt.models } }

/-- Whether the layer that a model's swap is at has a shard on a die. -/
def Model.layerOn (m : Model) (die : Nat) : Bool :=
  (m.openImage.toList ++ m.image.toList).any fun i => i.shards.any fun h => h.layer == m.podCommitted && h.die == die

/-- Tulle's fillers stop (R526). -/
def State.stopFillers (s : State) : State :=
  { s with pwr := { s.pwr with dies := tabMap (fun _ d => { d with filling := 0 }) s.pwr.dies } }

/-- A DRAIN begins. A die reset in progress halts, and its die is left OFF (R82); tier moves are abandoned (R382) and weight
copies stop (R465). -/
def State.enterDrain (s : State) (warned : Bool) : State :=
  let s1 := forEach (s.fleet.dies.filter fun d => d.2.resetting) s fun s d => s.dieOff d.1
  let s1 := s1.abandonMoves.stopCopies fun _ => true
  let s2 := { s1.stopFillers with pp := { s1.pp with state := .drain, drainEntry := s1.aon.clock, warned := warned, interrupted := 0 } }
  if warned then s2 else s2.interruptMoving

/-- Main ceases to be good, for a cause of R58, whatever the module is doing. A loss in SERVICE is an unwarned one, with record
0x0102, whenever PWRFAIL_N asserted (log entry 91); outside SERVICE it leaves no such record (log entry 92). -/
def State.mainLost (s : State) (cause : Nat) : State :=
  let s1 := { s with pp := { s.pp with
    mainGood := false, mainCeased := true, mainCeasedAt := s.aon.clock, mainAbsentAt := s.aon.clock
    rideMin := if s.pp.state = ModuleState.retain then 8000000 else 7000000 } }
  match s1.pp.state with
  | .service => (s1.comet 0x0102 3 s1.aon.lead none [s1.pp.vmainMv, cause]).enterDrain false
  | .drain => if s1.pp.warned then { s1.interruptMoving with pp := { s1.interruptMoving.pp with warned := false } } else s1
  | .retain => { s1 with pp := { s1.pp with windowRestarts := s1.pp.windowRestarts + 1 } }
  | .startup =>
    if 3 ≤ s1.pp.phase then (s1.cometF7 0 s1.aon.lead [s1.pp.phase]).toStandby.abandon else s1
  | .mgmtOnly => s1.toStandby
  | _ => s1

end Sys2Proof.Machine
end

