-- ==== Sys2Proof/Machine/Library.lean ====
section
/-! DEFINITION. Micro-programs as words, micro-program libraries and their checks (R328–R335). -/

namespace Sys2Proof.Machine

/-! ## Programs (R328, R330) -/

/-- The pages that a function record names. -/
structure Pages where
  k      : List Lane
  tables : List (Option (List Lane))

/-- The share of a step in the counted length. -/
def stepCount (w : Nat) : Nat :=
  match bits w 27 5 with
  | 3 => 2
  | 5 => bits w 11 4 + 1
  | _ => 1

/-- The words of a program up to its END, within a limit of 64 words; none when it has no END. -/
def programWords : Nat → List Lane → Option (List Lane)
  | 0, _ => none
  | _ + 1, [] => none
  | fuel + 1, w :: r => if bits w.toNat 27 5 = 0 then some [w] else (programWords fuel r).map fun t => w :: t

/-! ## Libraries (R331–R334) -/

/-- A record of a function and variant. -/
def libRecord (l : Library) (id variant : Nat) : Option FuncRec := l.funcs.find? fun f => f.id == id && f.variant == variant

/-- The record that a context runs: the K1-compatible variant where the flag is set and there is one (R336). -/
def libPick (l : Library) (id : Nat) (compat : Bool) : Option FuncRec :=
  match if compat then libRecord l id 1 else none with
  | some f => some f
  | none => libRecord l id 0

/-- The pages of a function. -/
def libPages (l : Library) (f : FuncRec) : Pages :=
  ⟨l.pages.getD f.constPg [], f.tables.map fun t => if t = 0xFFFF then none else l.pages[t]?⟩

/-- The words of a function's program. -/
def libProgram (l : Library) (f : FuncRec) : Option (List Lane) := programWords 64 (l.words.drop f.first)

/-- Whether a step word is defined, has no RSV bit set and takes no constant past entry 1,023. -/
def wordOk (w : Nat) : Bool :=
  let z (lo n : Nat) : Bool := bits w lo n == 0
  match bits w 27 5 with
  | 0 => z 24 3 && z 15 6 && z 0 15
  | 1 => z 3 12 && (!bit w 2 || (z 15 3 && !bit w 1))
  | 2 => z 15 9 && z 10 5
  | 3 => z 18 3 && z 10 5 && decide (bits w 0 10 + 2 ≤ 1023)
  | 4 => z 15 6 && z 0 4 && decide (bits w 4 4 < 10)
  | 5 => z 15 6 && z 10 1 && decide (bits w 0 10 + bits w 11 4 + 1 ≤ 1023)
  | 6 => z 15 3 && z 9 6 && decide (bits w 0 4 < 10)
  | 7 => z 10 1 && decide (bits w 11 3 < 6) && (if bit w 14 then z 18 3 else z 0 10)
  | _ => false

/-- The ids of R322. -/
def contractIds : List Nat := (List.range 16).map (· + 1)

/-- Records stand in ascending id and variant. -/
def funcsAscend : List FuncRec → Bool
  | a :: b :: r => decide (a.id * 256 + a.variant < b.id * 256 + b.variant) && funcsAscend (b :: r)
  | _ => true

/-- A library keeps R332 and the first list of R334. -/
def libSound (l : Library) : Bool :=
  funcsAscend l.funcs && l.words.all (fun w => wordOk w.toNat) && decide (l.pages.length ≤ 256) &&
  l.funcs.all (fun f =>
    (match libProgram l f with
    | none => false
    | some ws => (ws.map fun w => stepCount w.toNat).sum == f.steps) &&
    decide (f.steps ≤ 64 ∧ f.constPg < l.pages.length) && f.tables.all (fun t => t == 0xFFFF || decide (t < l.pages.length)) &&
    (f.variant == 0 || (libRecord l f.id 0).isSome)) &&
  (l.gateSlot == 0 || l.funcs.any fun f => f.id == l.gateSlot)

/-- The program and pages of a contract function in a variant. -/
def libShape (l : Library) (id variant : Nat) : Option (List Lane × List Lane × List (Option (List Lane))) :=
  (libRecord l id variant).map fun f => ((libProgram l f).getD [], (libPages l f).k, (libPages l f).tables)

/-- Whether a library has every contract id, and computes each as the running library does (R334). -/
def libKeeps (l : Library) (running : Option Library) : Bool :=
  contractIds.all fun id => (libRecord l id 0).isSome && (match running with
    | none => true
    | some r => (libRecord r id 0).isNone || (libShape l id 0 == libShape r id 0 && libShape l id 1 == libShape r id 1))

end Sys2Proof.Machine
end

