-- ==== Sys2Proof/Machine/Settings.lean ====
section
/-! DEFINITION. The defaults image (R93–R102, R574), image sets (R558–R560) and the effect of a start-up phase (R84–R92). -/

namespace Sys2Proof.Machine

/-! ## Site layers (R95–R98, R101, R574) -/

/-- The layer that the bytes of a layout spell, without its rsv bytes. -/
def siteOf (b : List Byte) : SiteLayer :=
  { version := fieldAt b 8 4, serial := fieldAt b 16 8
    entries := (List.range (fieldAt b 6 2)).map fun i => (fieldAt b (64 + 16 * i) 2, fieldAt b (64 + 16 * i + 8) 8) }

/-- Setting numbers strictly ascend. -/
def ascending : List (Nat × Nat) → Bool
  | [] => true
  | [_] => true
  | a :: b :: r => decide (a.1 < b.1) && ascending (b :: r)

/-- The layout of a site layer of R95 holds: magic, kind, format, lengths, entry order and rsv bytes. -/
def siteLayout (b : List Byte) : Bool :=
  let n := fieldAt b 6 2
  fieldAt b 0 4 == 0x4644454B && fieldAt b 4 1 == 2 && fieldAt b 5 1 == 1 && fieldAt b 12 4 == n * 16 &&
    decide (b.length = 64 + n * 16 + 96) && zeroAt b 32 32 &&
    (List.range n).all (fun i => zeroAt b (64 + 16 * i + 2) 6) && ascending (siteOf b).entries

/-- Every value of a known setting lies in its factory range. -/
def siteInRange (l : SiteLayer) : Bool :=
  l.entries.all fun e => match settingRow e.1 with
    | none => true
    | some r => r.ok e.2

/-- Entries whose setting the firmware does not know, each skipped with its record (R98, R574). -/
def State.skipUnknown (s : State) (l : SiteLayer) : State :=
  forEach (l.entries.filter fun e => (settingRow e.1).isNone) s fun s e => s.cometF7 5 supervisorId [7, l.version, e.1]

/-- The Supervisor-only region that firmware reads: flash device A's, or B's when A has failed (R96, R99, R101). -/
def Config_.region (c : Config_) : SiteRegion := if c.flashA.ok then c.flashA.region else c.flashB.region

/-- The enrolled site key (R99). -/
def Config_.siteKey (c : Config_) : Option (List Byte) := c.region.key

/-- The bytes of the site layer in flash (R101). -/
def Config_.siteBytes (c : Config_) : Option (List Byte) := c.region.layer

/-- The site layer in flash. -/
def Config_.siteStored (c : Config_) : Option SiteLayer := c.region.layer.map siteOf

/-- The highest site layer version accepted (R96). -/
def Config_.siteFloor (c : Config_) : Nat := c.region.floor

/-- The Supervisor-only region of both flash devices changed, or of the one that remains when the other has failed (R101). -/
def Config_.setRegion (c : Config_) (f : SiteRegion → SiteRegion) : Config_ :=
  { c with
    flashA := if c.flashA.ok then { c.flashA with region := f c.flashA.region } else c.flashA
    flashB := if c.flashB.ok then { c.flashB with region := f c.flashB.region } else c.flashB }

/-- A site key enrolled, with its digest, or removed (R99). -/
def Config_.setSiteKey (c : Config_) (k : Option (List Byte)) : Config_ :=
  c.setRegion fun r => { r with key := k, digest := (k.map sha384).getD [] }

/-- An accepted site layer stored, with the version floor raised to it (R101). -/
def Config_.storeSite (c : Config_) (b : List Byte) : Config_ :=
  c.setRegion fun r => { r with layer := some b, floor := (siteOf b).version }

/-- The signature of a site layer verifies under the enrolled site key (R95, R96). -/
def Config_.siteSigned (c : Config_) (b : List Byte) : Bool :=
  let n := 64 + 16 * fieldAt b 6 2
  c.siteKey.any fun k => ecdsaOk k (b.take n) (b.drop n)

/-- The rsv bytes of a site layer are zero (R95). -/
def siteRsv (b : List Byte) : Bool :=
  zeroAt b 32 32 && (List.range (fieldAt b 6 2)).all fun i => zeroAt b (64 + 16 * i + 2) 6

/-- The first condition of R96 that the bytes of a site layer do not meet, numbered as R574 numbers them; 0 for none. -/
def State.siteReason (s : State) (b : List Byte) : Nat :=
  let l := siteOf b
  if !s.cfg.siteSigned b then 1 else if !(l.serial == 0 || l.serial == s.cfg.serial) then 2
  else if l.version < s.cfg.siteFloor then 3 else if !ascending l.entries then 4 else if !siteRsv b then 5
  else if !siteInRange l then 6 else 0

/-- A site layer in flash is applied at phase 0x5, or discarded with a record of the first condition of R96 that fails (R97). -/
def State.applySite (s : State) : State :=
  match s.cfg.siteBytes with
  | none => { s with cfg := { s.cfg with site := none } }
  | some b =>
    let l := siteOf b
    if s.siteReason b = 0 then { s.skipUnknown l with cfg := { s.cfg with site := some l } }
    else { s.cometF7 5 supervisorId [s.siteReason b, l.version, 0] with cfg := { s.cfg with site := none } }

/-! ## Image sets (R558–R560) -/

/-- Whether an image lists a partner of a kind at a version under an entry kind. -/
def imageLists (i : ImageRec) (entry partner version : Nat) : Bool :=
  i.manifest.any fun m => m.kind == entry && (entry == 1 || m.partner == partner) && decide (m.min ≤ version ∧ version ≤ m.max)

/-- A set is sound: every two of its images pair and every image pairs with the running stepping. -/
def setSound (t : ImageSet) (stepping : Nat) : Bool :=
  t.images.all fun a => imageLists a 1 0 stepping && t.images.all fun b => a.kind == b.kind || imageLists a 2 b.kind b.version

/-- The image of a kind. -/
def setImage (t : ImageSet) (kind : Nat) : Option ImageRec := t.images.find? fun i => i.kind == kind

/-- A set that may start: signed, with one image of each kind, sound and not below the security floor. -/
def State.setOk (s : State) (t : ImageSet) : Bool :=
  t.sigOk && t.images.map (·.kind) == [1, 2, 3, 4] && setSound t s.cfg.stepping && decide (s.cfg.securityFloor ≤ t.security) &&
    t.library.all fun l => libSound l && libKeeps l none

/-- The flash device of a slot number. -/
def Config_.flash (c : Config_) (i : Nat) : Flash := if i = 0 then c.flashA else c.flashB

/-- The set in a slot that may start. -/
def State.slotSet (s : State) (i : Nat) : Option ImageSet :=
  if (s.cfg.flash i).ok then (s.cfg.flash i).slot.filter s.setOk else none

/-- The images of a set come into force. -/
def State.runSet (s : State) (i : Nat) (t : ImageSet) : State :=
  { s with
    cfg := { s.cfg with startedFrom := i, minor := t.minor }
    cx := { s.cx with running := some t }
    fleet := { s.fleet with bank0 := t.library, bank1 := none, bankInForce := 0 } }

/-- The phase code moves on, and the other I/O die is powered as phase 0x8 begins (R84). -/
def State.startPhaseTo (s : State) (n : Nat) : State :=
  (if n = 8 then s.setIo (1 - s.cx.active) true else s).toPhase n

/-- Phase 0x4: the preferred slot, else the other with a record for each slot refused, else management only (R89). -/
def State.loadImages (s : State) : State :=
  let p := s.cfg.preferred
  match s.slotSet p with
  | some t => (s.runSet p t).startPhaseTo 5
  | none =>
    let s1 := s.cometF7 5 supervisorId [p]
    match s1.slotSet (1 - p) with
    | some t => (s1.runSet (1 - p) t).startPhaseTo 5
    | none => (s1.cometF7 5 supervisorId [1 - p]).mgmtOnly

end Sys2Proof.Machine
end

