-- ==== Sys2Proof/Machine/Power.lean ====
section
/-! DEFINITION. The power path, the sideband pins, the always-on domain, start-up and the power states of units (R38–R92).
An event whose condition does not hold in a state does not occur in it, and leaves the state as it is (log entry 5). -/

namespace Sys2Proof.Machine

/-! ## Sideband pins and power inputs (R41–R46) -/

/-- PWRFAIL_N counts as asserted (R42, R49, R53). -/
def execPwrfailNAssert (s : State) : Out :=
  .next (
    if s.pp.aonPowered && !s.pp.pwrfail then
      let s1 := { s with pp := { s.pp with pwrfail := true } }.comet 0x0101 2 s.aon.lead none [s.pp.vmainMv, s.pp.vauxMv]
      match s.pp.state with
      | .service => s1.enterDrain true
      | .retain => { s1 with pp := { s1.pp with windowRestarts := s1.pp.windowRestarts + 1 } }
      | _ => s1
    else s)

/-- PWRFAIL_N counts as deasserted, which starts its part of the 20 ms window (R42, R53). -/
def execPwrfailNDeassert (s : State) : Out :=
  .next (
    if s.pp.aonPowered && s.pp.pwrfail then { s with pp := { s.pp with pwrfail := false, pwrfailHighSince := s.aon.clock } }
    else s)

/-- The hot-swap stage opens, which counts as main ceasing to be good (R44). -/
def State.openStage (s : State) (why : HotSwap) : State :=
  { s with pp := { s.pp with hotSwap := why, hotSwapAt := s.aon.clock, mainCeased := true } }

/-- VMAIN leaves 40–60 V (R43, R50, R51, R53, R573). -/
def execMainCeasesGood (mv : Nat) (s : State) : Out :=
  .next (
    if s.pp.aonPowered && s.pp.mainGood && decide (mv < 40000 ∨ 60000 < mv) then
      if 60000 < mv then ({ s with pp := { s.pp with vmainMv := mv } }.openStage .overvoltage).mainLost 2
      else { s with pp := { s.pp with vmainMv := mv } }.mainLost 1
    else s)

/-- VMAIN lies in 40–60 V, or in 41–59 V once main has stopped being good, with MAIN_SENSE made: main is good, and its windows
begin (R43, R44). -/
def execMainGood (mv : Nat) (s : State) : Out :=
  .next (
    if s.pp.aonPowered && !s.pp.mainGood && s.pp.hotSwap != .overcurrent && decide (40000 ≤ mv ∧ mv ≤ 60000) &&
        (!s.pp.mainCeased || decide (41000 ≤ mv ∧ mv ≤ 59000)) then
      { s with pp := { s.pp with
          vmainMv := mv, mainSense := true, hotSwap := .closed, mainGood := true, mainGoodSince := s.aon.clock } }
    else s)

/-- MAIN_SENSE breaks: the hot-swap stage opens, which counts as main ceasing to be good (R44, R57). -/
def execMainSenseBreak (s : State) : Out :=
  .next (
    if s.pp.aonPowered && s.pp.mainSense then
      let s1 := { s with pp := { s.pp with mainSense := false } }.openStage .sense
      if s.pp.mainGood then s1.mainLost 4 else s1
    else s)

/-- VMAIN exceeds 60.0 V: the stage opens (R44). -/
def execHotSwapOvervoltage (mv : Nat) (s : State) : Out :=
  .next (
    if s.pp.aonPowered && s.pp.hotSwap == .closed && decide (60000 < mv) then
      let s1 := { s with pp := { s.pp with vmainMv := mv } }.openStage .overvoltage
      if s.pp.mainGood then s1.mainLost 2 else s1
    else s)

/-- Input current exceeds 110 A for 1 ms: the stage opens and stays open, with record 0x0109 (R44, R58). -/
def execHotSwapOvercurrent (peakMa : Nat) (s : State) : Out :=
  .next (
    if s.pp.aonPowered && s.pp.hotSwap == .closed && decide (110000 < peakMa) then
      let s1 := (s.openStage .overcurrent).comet 0x0109 3 s.aon.lead none [peakMa]
      if s.pp.mainGood then s1.mainLost 3 else s1
    else s)

/-- What lets the open stage close again: MAIN_SENSE remade, after an overvoltage VMAIN below 59.0 V with MAIN_SENSE made, after an
overcurrent VMAIN below 5.0 V for 1 s, which cannot have passed sooner than 1 s after the opening (R44). -/
def PowerPath.mayClose (p : PowerPath) (remade : Bool) (mv now : Nat) : Bool :=
  match p.hotSwap with
  | .closed => false
  | .overvoltage => decide (mv < 59000) && (p.mainSense || remade)
  | .overcurrent => remade || decide (mv < 5000 ∧ 1000000000 ≤ now - p.hotSwapAt)
  | .sense => remade

/-- The stage closes again (R44). -/
def execHotSwapReclose (remade : Bool) (mv : Nat) (s : State) : Out :=
  .next (
    if s.pp.aonPowered && s.pp.mayClose remade mv s.aon.clock then
      { s with pp := { s.pp with hotSwap := .closed, vmainMv := mv, mainSense := s.pp.mainSense || remade } }
    else s)

/-! ## DRAIN, RETAIN, STANDBY, OFF (R47–R58) -/

/-- Every core and, in a warned DRAIN, every engine has stopped and the memories are in self-refresh: RETAIN is entered with record 0x0103, and
STANDBY after it when a MODULE_STOP is under way (R49, R74). -/
def execDrainComplete (s : State) : Out :=
  .next (
    if s.pp.state == .drain && s.moving.isEmpty && (!s.pp.warned || s.movingEngines.isEmpty) then
      let s1 := { s with
        pp := { s.pp with state := .retain, retainEntry := s.aon.clock, windowRestarts := 0 }
        tiers := { s.tiers with selfRefresh := true } }
      let s2 := s1.comet 0x0103 2 s.aon.lead none (words2 (s.aon.clock - s.pp.drainEntry) ++ [s.pp.interrupted])
      if s.pp.stopping then { s2.toStandby with pp := { s2.toStandby.pp with hold := true } } else s2
    else s)

/-- The 1.5 ms bound of a warned DRAIN expires: what has not stopped is stopped as in an unwarned loss (R50, R58). -/
def execDrainForced (s : State) : Out :=
  .next (
    let units := s.moving ++ s.movingEngines
    if s.pp.state == .drain && s.pp.warned && !units.isEmpty && decide (1500000 ≤ s.aon.clock - s.pp.drainEntry) then
      let s1 := s.comet 0x0104 3 s.aon.lead none (units.length :: units.take 7)
      let s2 := s1.interruptMoving
      { s2 with pp := { s2.pp with warned := false } }
    else s)

/-- The cores that a DRAIN stopped go on, and interrupted steps end with ST_POWERFAIL (R49, R51). -/
def State.resumeSteps (s : State) : State :=
  let s1 := s.endSteps (fun t => t.interrupted) ST_POWERFAIL
  let stopped := (s1.fleet.cores.filter fun c => c.2.halted && c.2.stopOrdered).map (·.1)
  let s2 := forEach (s1.fleet.cores.map (·.1)) s1 fun s n => s.setCore n fun c => { c with halted := false }
  forEach stopped s2 fun s n => match (s.core n).step with
    | none => s
    | some k => (s.saveCore k.1 k.2 n).settleStep k.1 k.2

/-- The conditions of R53 hold with no hold set: the module returns to SERVICE with record 0x0105. -/
def execRetainExit (s : State) : Out :=
  .next (
    if s.pp.state == .retain && decide (10000000 ≤ s.aon.clock - s.pp.retainEntry) && s.pp.mainGood &&
        decide (20000000 ≤ s.aon.clock - s.pp.mainGoodSince) && !s.pp.pwrfail &&
        decide (20000000 ≤ s.aon.clock - s.pp.pwrfailHighSince) && !s.pp.hold && !s.pp.thermalHold then
      let s1 := { s with pp := { s.pp with state := .service }, tiers := { s.tiers with selfRefresh := false } }
      (s1.comet 0x0105 1 s.aon.lead none (words2 (s.aon.clock - s.pp.retainEntry) ++ [s.pp.windowRestarts])).resumeSteps
    else s)

/-- The bulk capacitance falls below 30 V in RETAIN, no sooner than R48 promises after main ceased to be good: RETAIN state is lost,
the commanded hold too, and the module is in STANDBY, also while VAUX is not good and the hold-up feeds the always-on domain (R48,
R54, R75; log entry 93). -/
def execMainAbsentInRetain (s : State) : Out :=
  .next (
    if s.pp.state == .retain && !s.pp.mainGood && decide (s.pp.rideMin ≤ s.aon.clock - s.pp.mainCeasedAt) then
      let s1 := s.comet 0x0106 3 s.aon.lead none (words2 (s.aon.clock - s.pp.mainCeasedAt) ++ [b2n s.pp.vauxGood])
      { s1.toStandby with pp := { s1.toStandby.pp with hold := false, mainAbsentAt := s.aon.clock } }
    else s)

/-- Main has been good for 20 ms in STANDBY with no hold: a module start (R54, R77, R535). -/
def execStandbyModuleStart (s : State) : Out :=
  .next (
    if s.pp.state == .standby && s.pp.mainGood && decide (20000000 ≤ s.aon.clock - s.pp.mainGoodSince) && !s.pp.hold &&
        !s.pp.thermalHold then s.startPhase3
    else s)

/-- The module without power: flash and fuses alone are kept (R47, R55). -/
def State.unpowered (s : State) : State :=
  { State.reset with
    pending := s.pending, out := s.out, drawn := s.drawn
    aon := { State.reset.aon with boot := s.aon.boot, rackPin := s.aon.rackPin }
    cfg := { s.cfg with site := none, siteStart := none, runtime := [], bindingLocked := false } }

/-- Both inputs have been absent beyond the always-on hold-up of at least 30 ms: OFF (R46, R55). -/
def execHoldupExpired (s : State) : Out :=
  .next (
    if s.pp.aonPowered && !s.pp.mainGood && !s.pp.vauxGood &&
        decide (30000000 ≤ s.aon.clock - max s.pp.mainAbsentAt s.pp.vauxCeasedAt) &&
        (s.pp.state == .standby || s.pp.state == .startup || s.pp.state == .mgmtOnly) then s.unpowered
    else s)

/-- VAUX leaves 10.8–13.2 V: record 0x0107 and no other effect (R45, R56, R58). -/
def execVauxCeasesGood (mv : Nat) (s : State) : Out :=
  .next (
    if s.pp.aonPowered && s.pp.vauxGood && decide (mv < 10800 ∨ 13200 < mv) then
      { s with pp := { s.pp with vauxGood := false, vauxMv := mv, vauxCeasedAt := s.aon.clock } }.comet 0x0107 2 s.aon.lead none [mv]
    else s)

/-- VAUX is good again: record 0x0108 and no other effect (R45, R56, R58). -/
def execVauxGoodAgain (mv : Nat) (s : State) : Out :=
  .next (
    if s.pp.aonPowered && !s.pp.vauxGood && decide (10800 ≤ mv ∧ mv ≤ 13200) then
      { s with pp := { s.pp with vauxGood := true, vauxMv := mv } }.comet 0x0108 1 s.aon.lead none [mv]
    else s)

/-! ## Host ports (R27, R28, R41, R87, R135) -/

/-- The link and the configuration space of a port are reset: what the host enabled there, its translations and its IDE keys go. -/
def State.portReset (s : State) (p : Nat) : State :=
  let s1 := s.setPort p HostPort.cleared
  { s1 with host := { s1.host with
      atc := s1.host.atc.filter fun e => e.port != p
      atsAsked := s1.host.atsAsked.filter fun e => e.1 != p } }

/-- PERST_A_N or PERST_B_N asserts: that port's link and configuration space are reset, and nothing else (R41). -/
def execPerstAssert (port : Nat) (s : State) : Out :=
  .next (if port < 2 then (s.portReset port).setPort port fun x => { x with perst := true } else s)

/-- PERST_A_N or PERST_B_N deasserts: the port is released from fundamental reset (R87). -/
def execPerstDeassert (port : Nat) (s : State) : Out :=
  .next (if port < 2 then s.setPort port fun x => { x with perst := false } else s)

/-- A posted write that its port had not acknowledged when the link went down (R135, R571): it is sent again on the other port where
that can carry it. A fault record's sets WRITE_ERROR and waits for a port, a message waits as its vector's pending bit, a write of a
step's data that no port can carry fails the access with cause 7, and a dump is written again to the reserved region (R553). -/
def State.postLost (s : State) (port : Nat) (w : Posted) : State :=
  match w.what with
  | .fault _ =>
    let s1 := s.setFn w.fn fun h => { h with fltWriteError := true }
    match s1.fnPort w.fn with
    | some p => s1.postWrite p w
    | none => s1.setFn w.fn fun h => { h with unsent := h.unsent ++ [w] }
  | .msix v => match s.fnPort w.fn with
    | some p => s.sendMsix w.fn v p
    | none => s.setFn w.fn (·.pend v)
  | .data by_ va ri =>
    if (s.port (1 - port)).up && (s.port (1 - port)).on w.fn then s.postWrite (1 - port) w
    else match by_.step with
      | some k => s.faultStep k.1 k.2 3 2 (hostDetail 7 0 port) ri va by_.agentKind by_.agent
      | none => s
  | .dump => match s.fnPort w.fn with
    | some p => s.postWrite p w
    | none => match s.ctx.dumpBase with
      | some base => { s with mem := s.mem.writeN base w.bytes, rel := { s.rel with dumpWhere := 1 } }
      | none => { s with rel := { s.rel with dumpWhere := 0, dumpValid := false } }

/-- A host port's link goes down with a number of its latest posted writes not acknowledged: accesses take the other port (R28), and
those writes are lost on this one (R135, R571); translated requests end with it. -/
def execHostPortLinkDown (loss : LinkLoss) (s : State) : Out :=
  .next (
    if loss.port < 2 ∧ (s.port loss.port).up then
      let s1 := s.setPort loss.port fun x => { x with up := false, posted := [] }
      forEach ((s.port loss.port).posted.take loss.lost).reverse { s1 with host := { s1.host with
          atc := s1.host.atc.filter fun e => e.port != loss.port
          atsAsked := s1.host.atsAsked.filter fun e => e.1 != loss.port } } fun s w => s.postLost loss.port w
    else s)

/-- Phase 0x3 is not under way, so the configuration space of a powered I/O die may be ready (R87). -/
def State.pastPhase3 (s : State) : Bool := !(s.pp.state == .startup && s.pp.phase == 3)

/-- The messages of a function's vectors that waited for a port leave, unless the vector is masked (R135, R575). -/
def State.flushVectors (s : State) (f : Nat) : State :=
  match s.fnPort f with
  | none => s
  | some p =>
    forEach (List.range 4) s fun s v =>
      match (s.fn f).vecs[v]? with
      | some x =>
        if x.pending && !x.masked && !(s.fn f).fnMask then
          (s.setFn f fun h => { h with vecs := h.vecs.mapIdx fun i y => if i = v then { y with pending := false } else y }).sendMsix f v p
        else s
      | none => s

/-- What waited for a port that carries a function's writes leaves: fault records that failed, at their places in the ring, and the
messages of its vectors (R135). -/
def State.flushFn (s : State) (f : Nat) : State :=
  (match s.fnPort f with
  | none => s
  | some p => forEach (s.fn f).unsent (s.setFn f fun h => { h with unsent := [] }) fun s w => s.postWrite p w).flushVectors f

/-- A host port's link comes up: its configuration space is ready once phase 0x3 has ended, and messages held for want of a
port are sent (R87, R135). -/
def execHostPortLinkUp (port : Nat) (s : State) : Out :=
  .next (
    if port < 2 ∧ !(s.port port).up ∧ !(s.port port).perst ∧ s.ioPowered port ∧ !s.ioRetired port then
      let s1 := s.setPort port fun x => { x with up := true, cfgReady := s.pastPhase3 }
      forEach (s1.host.fns.map (·.1)) s1 State.flushFn
    else s)

/-! ## The always-on domain and the timebase (R59–R65, R84) -/

/-- The always-on domain powers on: the timebase reads 0, the boot count rises, and a cold start begins (R64, R84). -/
def execAlwaysOnPowerOn (main : MainInput) (vauxMv rackPos : Nat) (s : State) : Out :=
  .next (
    let good := main.sense && decide (40000 ≤ main.mv ∧ main.mv ≤ 60000)
    let aux := decide (10800 ≤ vauxMv ∧ vauxMv ≤ 13200)
    if !s.pp.aonPowered && (good || aux) then
      let s1 := s.unpowered
      { s1 with
        pp := { s1.pp with
          state := .startup, vmainMv := main.mv, vauxMv := vauxMv, mainSense := main.sense, mainGood := good
          hotSwap := if !main.sense then .sense else if 60000 < main.mv then .overvoltage else .closed
          vauxGood := aux, aonPowered := true }
        aon := { s1.aon with boot := (s.aon.boot + 1) % 2 ^ 32, rackPin := rackPos % 16 } }.toPhase 1
    else s)

/-- Every 100 µs the leading Keeper sends a heartbeat to the other share (R60). -/
def execKeeperHeartbeat (s : State) : Out :=
  .next (
    if s.pp.aonPowered then
      { s with aon := { s.aon with heartbeatAt := s.aon.clock } }.emit (.shareHeartbeat s.aon.lead)
    else s)

/-- Whether the share that does not lead may take the lead. -/
def AlwaysOn.otherFit (a : AlwaysOn) : Bool := if a.lead = 0 then !a.lostB else !a.lostA

/-- The heartbeat has been absent for 500 µs: the other share takes the lead, its log continuing (R60). -/
def execLeadShareTakeover (s : State) : Out :=
  .next (
    if s.pp.aonPowered && s.aon.otherFit && decide (500000 ≤ s.aon.clock - s.aon.heartbeatAt) then
      let old := s.aon.lead
      let s1 := { s with aon := { s.aon with
        lead := 1 - old, lostA := s.aon.lostA || old == 0, lostB := s.aon.lostB || old == 1
        heartbeatAt := s.aon.clock, ring := s.aon.ringFollow } }
      s1.cometF5 0 (1 - old) old (1 - old) 1
    else s)

/-- What a tick adds to the timebase: 40, or on a slew tick, at most one in 64, 80 or 0 (R65). -/
def AlwaysOn.tickAdd (a : AlwaysOn) : Nat :=
  if a.slewTicks < 63 ∨ a.slewLeft = 0 then 40 else if 0 < a.slewLeft then 80 else 0

/-- One tick of the 25 MHz clock (R17, R65). -/
def AlwaysOn.tick (a : AlwaysOn) : AlwaysOn :=
  let slew := decide (63 ≤ a.slewTicks ∧ a.slewLeft ≠ 0)
  { a with
    timebase := (a.timebase + a.tickAdd) % 2 ^ 64
    clock := a.clock + 40
    slewLeft := if slew then (if 0 < a.slewLeft then max 0 (a.slewLeft - 40) else min 0 (a.slewLeft + 40)) else a.slewLeft
    slewTicks := if slew then 0 else min 64 (a.slewTicks + 1) }

/-- A tick advances the timebase (R65); TIME.STATUS.SLEWING reads 1 while slew ticks are still to be applied. -/
def execTimebaseTick (s : State) : Out :=
  .next (
    if s.pp.aonPowered then
      { s with aon := s.aon.tick, fab := { s.fab with slewing := decide (s.aon.tick.slewLeft ≠ 0) } }
    else s)

/-! ## Clocks and power states (R62–R73) -/

/-- The voltage of a die's core rail. -/
def State.railNow (s : State) (d : Nat) : Nat := (s.diePower d).railMv.getD (Config.fusedMv d (s.die d).point)

/-- The rail has reached a point's voltage: at once when the clock falls, else at 10 mV/µs from the order (R66). -/
def State.railReady (s : State) (d p : Nat) : Bool :=
  decide (p ≤ (s.die d).point ∨ 100 * (Config.fusedMv d p - s.railNow d) ≤ s.aon.clock - (s.die d).orderedAt)

/-- The idle core PLL has locked at the point ordered, and for a rise the rail has reached the point's voltage: the die switches
clocks (R66). -/
def execCoreClockSwitch (die : Nat) (s : State) : Out :=
  .next (
    match (s.die die).ordered with
    | some p =>
      if s.railReady die p then
        (s.setDie die fun x => { x with pll := 1 - x.pll, point := p, ordered := none }).setDiePower die fun x => { x with railMv := none }
      else s
    | none => s)

/-- Core clock frequency of a die, in MHz (R507). -/
def State.dieMhz (s : State) (d : Nat) : Nat := 600 + 60 * (s.die d).point

/-- A core has had nothing to issue for the idle delay of setting 0x0006, in core cycles (R71, R102). -/
def State.idleLong (s : State) (n : Nat) : Bool :=
  let c := s.core n
  (c.step.isNone || c.waiting || c.ended) && decide (s.setting 6 * 1000 ≤ (s.aon.clock - c.lastIssue) * s.dieMhz (n / 64))

/-- A die with no ACTIVE core and no engine descriptor is demoted too, with its slices (R68, R69). -/
def State.gateDie (s : State) (d : Nat) : State :=
  if (s.die d).power = .active ∧ (List.range 64).all (fun k => (s.core (d * 64 + k)).power != .active) ∧
      (s.die d).engines.all (fun e => e.2.queue.isEmpty) then
    s.setDie d fun x => { x with power := .gated, slicePower := tabMap (fun _ p => if p = .active then .gated else p) x.slicePower }
  else s

/-- An ACTIVE core with nothing to issue for the idle delay goes to GATED (R71). -/
def execIdleDemoteGated (core : Nat) (s : State) : Out :=
  .next (
    if core < 512 ∧ (s.core core).power = .active ∧ s.idleLong core then
      (s.setCore core fun c => { c with power := .gated }).gateDie (core / 64)
    else s)

/-- A unit that was ordered to wake reaches ACTIVE; a core or slice brings its die to ACTIVE, since no unit is shallower than
its die (R67–R69). A unit that wakes from OFF holds zeros (R73). -/
def execWakeComplete (u : UnitRef) (s : State) : Out :=
  .next (
    if s.fleet.waking.contains u then
      let s1 := { s with fleet := { s.fleet with waking := s.fleet.waking.filter fun v => !(v == u) } }
      match u with
      | .core n => (s1.setDie (n / 64) fun x => { x with power := .active }).setCore n fun c => { c with power := .active, lastIssue := s.aon.clock }
      | .slice d sl => s1.setDie d fun x => { x with power := .active, slicePower := tabSet x.slicePower sl .active }
      | .die d => s1.setDie d fun x => { x with power := .active }
      | _ => s1
    else s)

/-- Whether a core holds an allocated sync object or is assigned to a step (R73). -/
def State.coreLive (s : State) (n : Nat) : Bool :=
  (s.core n).sync.any (fun o => o.2.owner.isSome) || (s.core n).step.isSome ||
    s.dq.steps.any fun t => t.ended.isNone && t.cores.contains n

/-- A core to RETAIN, or to OFF, where its scratchpad and sync objects are lost; refused OFF, it enters RETAIN with a
record. -/
def State.coreDown (s : State) (n : Nat) (target : UnitState) : State :=
  match target with
  | .off =>
    if s.coreLive n then (s.setCore n fun c => { c with power := .retain }).cometF7 4 n [n]
    else (s.scrubCore n).setCore n fun c => { c with power := .off, sync := [] }
  | t => s.setCore n fun c => { c with power := t }

/-- A slice to RETAIN, or to OFF, where its content is lost; one that holds context data enters RETAIN with a record. -/
def State.sliceDown (s : State) (d sl : Nat) (target : UnitState) : State :=
  match target with
  | .off =>
    if (tabGet none (s.die d).sliceTag sl).isSome then
      (s.setDie d fun x => { x with slicePower := tabSet x.slicePower sl .retain }).cometF7 4 (0x800 + d * 32) [d * 64 + sl]
    else
      let s1 := s.setDie d fun x => { x with slicePower := tabSet x.slicePower sl .off }
      { s1 with mem := s1.mem.zero (commonsBase + d * 2 ^ 27 + sl * mib2) mib2 }
  | t => s.setDie d fun x => { x with slicePower := tabSet x.slicePower sl t }

/-- Firmware gives no order that would take a core reserved for URGENT work below RETAIN, or a die that has one below GATED (R71). -/
def State.belowFloor (s : State) (u : UnitRef) (target : UnitState) : Bool :=
  match u with
  | .core n => target == .off && (s.reservedCores (n / 64)).contains n
  | .die d => !(s.reservedCores d).isEmpty
  | _ => false

/-- What is on a die's core rail and not kept when the rail is off: its engine queues, GATEs and combiner entries (R68). -/
def DieSt.railOff (x : DieSt) : DieSt :=
  { x with combiners := [], gates := [], engines := tabMap (fun _ e => { freshEngine with retired := e.retired }) x.engines }

/-- A firmware order of RETAIN or OFF (R71, R73). -/
def execPowerStateOrder (u : UnitRef) (target : UnitState) (s : State) : Out :=
  .next (
    if (target = .retain ∨ target = .off) ∧ s.pp.state = .service ∧ !s.belowFloor u target then
      match u with
      | .core n => if n < 512 then s.coreDown n target else s
      | .slice d sl => if d < 8 ∧ sl < 48 then s.sliceDown d sl target else s
      | .die d =>
        if d < 8 then
          let cores := (List.range 64).map (d * 64 + ·)
          let refused := cores.any s.coreLive || (List.range 48).any fun sl => (tabGet none (s.die d).sliceTag sl).isSome
          let s1 := forEach cores s fun s n => s.coreDown n target
          let s2 := forEach (List.range 48) s1 fun s sl => s.sliceDown d sl target
          if target = .off ∧ !refused then s2.setDie d fun x => { x.railOff with power := .off }
          else s2.setDie d fun x => { x with power := .retain }
        else s
      | _ => s
    else s)

/-! ## Start-up phases (R84–R92, R573) -/

/-- Units that failed in a phase are retired, quads with a spare at once (R91). -/
def State.retireAtStart (s : State) (us : List UnitRef) : State :=
  forEach us s fun s u =>
    match u with
    | .core n => (s.retireQuad (n / 64) (n % 64 / 4) 7).mapSpare (n / 64) (n % 64 / 4)
    | .quad d k => (s.retireQuad d k 7).mapSpare d k
    | .channel h c => s.retireChannel h c 7
    | .half h => (s.noteRetired u 7 0xFFFFFFFF).halfShrink h 0
    | .die d => s.retireDie d 7
    | .engine d i => (s.noteRetired u 7 0xFFFFFFFF).setEngine d i fun e => { e with retired := true }
    | .link l => (s.noteRetired u 7 0xFFFFFFFF).setLink l fun x => { x with state := .failed, retired := true }
    | .ioDie i => s.retireIo i 7
    | _ => s.noteRetired u 7 0xFFFFFFFF

/-- Dies with no working HBM stack or fewer than 16 working cores are retired whole (R91). -/
def State.retireWeakDies (s : State) (cores : Bool) : State :=
  forEach (List.range 8) s fun s d =>
    if !(s.die d).retired && ((s.dieStacks d == 0) || (cores && decide (s.dieCores d < 16))) then s.retireDie d 1 else s

/-- The reserved dump region: the top 256 MiB of the first capacity half whose top 256 MiB is populated (R553). -/
def State.placeDump (s : State) : State :=
  match s.ctx.dumpBase with
  | some _ => s
  | none =>
    let h := ((List.range 8).flatMap fun d => [d * 4 + 2, d * 4 + 3]).find? fun h => s.halfBytes h == 2 ^ 36
    { s with ctx := { s.ctx with dumpBase := h.map fun h => halfBase h + 2 ^ 36 - 2 ^ 28 } }

/-- Both tiers written with zeros and valid check bits, the dump region apart when it is already placed (R84, R80). -/
def State.zeroTiers (s : State) : State :=
  let keep : Nat → Bool := fun a => match s.ctx.dumpBase with
    | some b => decide (b ≤ a ∧ a < b + 2 ^ 28)
    | none => false
  { s with
    mem := { cells := s.mem.cells.filter fun c => keep c.1 || decide (commonsBase ≤ c.1), poison := [] }
    tiers := { s.tiers with halves := tabMap (fun _ h => { h with lost := false }) s.tiers.halves } }

/-- A phase that ends below the service floor ends in management only (R91). -/
def State.floorOr (s t : State) : State := if s.aboveFloor then t else s.mgmtOnly

/-- The guaranteed floor of a cap, in 1/16 (R519). -/
def qFloor (cap : Nat) : Nat := min 1024 (1024 * (9406 * cap - 13220000) / 20640000)

/-- The election, once each time the always-on domain starts: the lead share is IA's unless its Keeper failed its self-test, a share
whose Keeper failed stays out of the lead, and RACK_POS is read and reported (R40, R59, R60). -/
def State.elect (s : State) (r : PhaseReport) : State :=
  if s.aon.elected then s
  else
    { s with aon := { s.aon with
        lead := if r.iaPass then 0 else 1, lostA := !r.iaPass, lostB := !r.ibPass, elected := true, rackPos := s.aon.rackPin
        heartbeatAt := s.aon.clock } }.emit (.rackReport s.aon.rackPin)

/-- The end of each start-up phase's work. -/
def State.phaseEnd (s : State) (r : PhaseReport) : State :=
  match s.pp.phase with
  | 1 => s.startPhaseTo 2
  | 2 =>
    if s.aon.elected || r.iaPass || r.ibPass then
      let s1 := s.elect r
      let s2 := { s1 with cx := { s1.cx with active := s1.aon.lead } }
      if s.pp.mainGood && !s.pp.thermalHold then s2.startPhase3
      else { s2 with pp := { s2.pp with state := .standby, phase := 2 } }
    else s
  | 3 =>
    let s1 := s.setComplex s.cx.active .active
    let s2 := { s1 with
      cx := { s1.cx with dispBeat := s1.aon.clock, supBeat := s1.aon.clock }
      host := { s1.host with
        portA := { s1.host.portA with cfgReady := s1.host.portA.up }
        portB := { s1.host.portB with cfgReady := s1.host.portB.up } } }
    s2.startPhaseTo 4
  | 4 => s.loadImages
  | 5 =>
    let s0 := { s with cfg := { s.cfg with runtime := [] } }.applySite
    let s1 := { s0 with cfg := { s0.cfg with siteStart := s0.cfg.site } }
    let s2 := { s1 with
      cfg := { s1.cfg with bindingLocked := true }
      pwr := { s1.pwr with
        cap := s1.setting 2, matched := s1.setting 3 == 1, govBeat := s1.aon.clock
        q := if s1.setting 3 = 1 then qFloor (s1.setting 2) else s1.pwr.q } }
    s2.startPhaseTo 6
  | 6 =>
    let s1 := ((s.retireAtStart r.failedUnits).retireWeakDies false).zeroTiers.placeDump
    s1.floorOr (s1.startPhaseTo 7)
  | 7 =>
    let s1 := (s.retireAtStart r.failedUnits).retireWeakDies true
    s1.floorOr (s1.startPhaseTo (if s.complex (1 - s.cx.active) = .heldInReset ∨ s.ioRetired (1 - s.cx.active) then 9 else 8))
  | 8 =>
    let s1 := if r.otherOk then
        { s.setComplex (1 - s.cx.active) .standby with cx := { (s.setComplex (1 - s.cx.active) .standby).cx with standbyReady := true } }
      else s.retireAtStart [.ioDie (1 - s.cx.active)]
    s1.floorOr (s1.startPhaseTo 9)
  | 9 =>
    let s1 := s.retireAtStart r.failedUnits
    let s2 := forEach r.trained s1 fun s l =>
      if l < 18 ∧ !(s.link l).retired then s.setLink l fun x => { x with state := .identified, stage := 3, attempts := 0 } else s
    s2.floorOr ({ s2 with pp := { s2.pp with state := .service }, mark := none, mbx := { s2.mbx with serviceFrom := s2.mbx.sends } }.toPhase 10)
  | _ => s

/-- A start-up phase completes its work (R84). -/
def execStartPhaseEnd (r : PhaseReport) (s : State) : Out :=
  .next (if s.pp.state = .startup then s.phaseEnd r else s)

/-- The lead I/O die fails phase 0x3, 0x4 or 0x5 within its bound: it is powered down with its host port, and the other leads from phase 0x3; when it fails as well, no
complex is left and the module enters management only (R90, R551, R569). -/
def execStartPhaseTimeout (s : State) : Out :=
  .next (
    if s.pp.state = .startup ∧ 3 ≤ s.pp.phase ∧ s.pp.phase ≤ 5 then
      let old := s.cx.active
      if s.complex (1 - old) = .heldInReset then
        ((s.setComplex old .heldInReset).comet 0x0501 4 s.aon.lead none [s.pp.phase]).mgmtOnly
      else
        let s1 := (((s.setComplex old .heldInReset).setPort old HostPort.cleared).setIo old false).cometF7 5 supervisorId [s.pp.phase, old]
        ({ s1 with cx := { s1.cx with active := 1 - old } }.setIo (1 - old) true).toPhase 3
    else s)

end Sys2Proof.Machine
end

