-- ==== Sys2Proof/Machine/CmdBase.lean ====
section
/-! DEFINITION. What every Phoger command shares: who sent it, its opcode, its answers, its journal entry, and the first
checks of R149 (R144–R159). -/

namespace Sys2Proof.Machine

/-! ## Senders -/

/-- The number under which the relay carries a command that the head's BMC sent (log entry 9). -/
def bmcRelay : Nat := 256

/-- The function on whose behalf a command runs; none for the BMC. -/
def senderFn (x : Sender) : Option Nat :=
  match x with
  | .host f => some f
  | .bmc => none
  | .relay f => if f < bmcRelay then some f else none
  | .gone => none

/-- The physical function. -/
def isPf (x : Sender) : Bool := senderFn x == some 0

/-- The board management controller, here or at the head. -/
def isBmc (x : Sender) : Bool :=
  match x with
  | .bmc => true
  | .relay f => decide (bmcRelay ≤ f)
  | _ => false

/-! ## The catalogue (R167) -/

/-- Opcode of a command. -/
def cmdOpcode (c : Command) : Nat :=
  match c with
  | .capsQuery .. => 0x0001
  | .settingRead .. => 0x0002
  | .settingWrite .. => 0x0003
  | .sitekeyEnrol .. => 0x0004
  | .sitelayerWrite .. => 0x0005
  | .moduleSuspend => 0x0101
  | .moduleResume => 0x0102
  | .moduleStop => 0x0103
  | .moduleStart => 0x0104
  | .moduleReset .. => 0x0105
  | .dieReset .. => 0x0106
  | .memGrant .. => 0x0201
  | .memRevoke .. => 0x0202
  | .ctxCreate .. => 0x0203
  | .ctxDestroy .. => 0x0204
  | .rangeMap .. => 0x0205
  | .rangeInvalidateAll .. => 0x0206
  | .keySlotSet .. => 0x0207
  | .stepResume .. => 0x0208
  | .stepAbort .. => 0x0209
  | .qgroupAssign .. => 0x0301
  | .qgroupRelease .. => 0x0302
  | .queueConfigure .. => 0x0303
  | .programLoad .. => 0x0304
  | .programUnload .. => 0x0305
  | .poolCreate .. => 0x0401
  | .poolDestroy .. => 0x0402
  | .kvOffer .. => 0x0403
  | .kvAccept .. => 0x0404
  | .kvHint .. => 0x0405
  | .epochBegin .. => 0x0501
  | .epochCommit .. => 0x0502
  | .epochAbort .. => 0x0503
  | .adapterLoad .. => 0x0504
  | .adapterUnload .. => 0x0505
  | .placementApply .. => 0x0506
  | .planLoad .. => 0x0601
  | .portDefine .. => 0x0602
  | .portRemove .. => 0x0603
  | .podStateSet .. => 0x0604
  | .capSet .. => 0x0701
  | .matchedSet .. => 0x0702
  | .logRead .. => 0x0801
  | .dumpRegionSet .. => 0x0802
  | .fwStage .. => 0x0803
  | .fwActivate => 0x0804

/-- Commands marked "Any": taken in DRAIN and RETAIN too (R148). -/
def cmdAny (c : Command) : Bool :=
  match c with
  | .capsQuery .. => true
  | .settingRead .. => true
  | .moduleSuspend => true
  | .moduleResume => true
  | .moduleStop => true
  | .moduleReset .. => true
  | .dieReset .. => true
  | .logRead .. => true
  | _ => false

/-- Commands marked "Pod" (R159). -/
def cmdPod (c : Command) : Bool :=
  match c with
  | .epochBegin .. => true
  | .epochCommit .. => true
  | .epochAbort .. => true
  | .placementApply .. => true
  | .planLoad .. => true
  | .podStateSet .. => true
  | _ => false

/-- Who may send a command (R167, R74): PF, VF and BMC. -/
def cmdSender (c : Command) (x : Sender) : Bool :=
  let pf := isPf x
  let bmc := isBmc x
  match c with
  | .capsQuery .. => true
  | .settingRead .. => pf || bmc
  | .moduleSuspend => pf || bmc
  | .moduleResume => pf || bmc
  | .moduleStop => pf || bmc
  | .moduleStart => bmc
  | .moduleReset k => bmc || (pf && k == 1)
  | .logRead .. => pf || bmc
  | .fwActivate => pf || bmc
  | .ctxCreate .. => !bmc
  | .ctxDestroy .. => !bmc
  | .rangeMap .. => !bmc
  | .rangeInvalidateAll .. => !bmc
  | .keySlotSet .. => !bmc
  | .stepResume .. => !bmc
  | .stepAbort .. => !bmc
  | .queueConfigure .. => !bmc
  | .programLoad .. => !bmc
  | .programUnload .. => !bmc
  | .kvOffer .. => !bmc
  | .kvAccept .. => !bmc
  | .kvHint .. => !bmc
  | .adapterLoad .. => !bmc
  | .adapterUnload .. => !bmc
  | _ => pf

/-- The pod states in which a command is accepted (R167): 0 STARTUP, 1 SERVICE, 2 TEST, 3 RECOVERY. -/
def cmdPodStates (c : Command) : List Nat :=
  match c with
  | .epochBegin .. => [1, 2]
  | .epochCommit .. => [1, 2]
  | .placementApply .. => [0, 2, 3]
  | .planLoad .. => [0, 3]
  | .portDefine .. => [0, 2, 3]
  | .portRemove .. => [0, 2, 3]
  | _ => [0, 1, 2, 3]

/-- Whether a host buffer reference holds an identifier within its width (R146). -/
def hbufWide (b : Hbuf) : Bool := (match b.pasid with
  | some p => decide (2 ^ 20 ≤ p)
  | none => false) || decide (2 ^ 64 ≤ b.addr) || decide (2 ^ 32 ≤ b.length)

/-- Check 4: a bit above an identifier's width, an enumeration value that is not listed, a length that a field's bytes
contradict (R13, R14, R18, R168). -/
def cmdMalformed (c : Command) : Bool :=
  let tag (t : Nat) : Bool := decide (4096 ≤ t)
  let q (n : Nat) : Bool := decide (65536 ≤ n)
  match c with
  | .capsQuery f => decide (65536 ≤ f)
  | .settingRead i => decide (65536 ≤ i)
  | .settingWrite i v => decide (65536 ≤ i ∨ 2 ^ 64 ≤ v)
  | .sitekeyEnrol a k g => !(a == 1 || a == 2) || k.length != 96 || g.length != 96 || (a == 2 && !zeroAt k 0 96)
  | .sitelayerWrite b => hbufWide b
  | .moduleReset k => !(k == 1 || k == 2)
  | .dieReset d => decide (256 ≤ d)
  | .memGrant f b l => decide (256 ≤ f ∨ 2 ^ 64 ≤ b ∨ 2 ^ 64 ≤ l)
  | .memRevoke f b l => decide (256 ≤ f ∨ 2 ^ 64 ≤ b ∨ 2 ^ 64 ≤ l)
  | .ctxCreate h k p b => decide (2 < h ∨ 2 < k ∨ 2 ^ 64 ≤ b) || (match p with
    | some x => decide (2 ^ 20 ≤ x)
    | none => false)
  | .ctxDestroy t => tag t
  | .rangeMap t i es => tag t || decide (2 ^ 32 ≤ i) || es.any fun e =>
      decide (2 < e.kind ∨ 8 ≤ e.perms ∨ 16 ≤ e.attrs ∨ 2 ^ 64 ≤ e.vaBase ∨ 2 ^ 64 ≤ e.length ∨ 2 ^ 64 ≤ e.target)
  | .rangeInvalidateAll t => tag t
  | .keySlotSet t k => tag t || k.length != 64
  | .stepResume t n i => tag t || q n || decide (2 ^ 64 ≤ i)
  | .stepAbort t n i => tag t || q n || decide (2 ^ 64 ≤ i)
  | .qgroupAssign g t f v => decide (1024 ≤ g ∨ 256 ≤ f ∨ 256 ≤ v) || tag t
  | .qgroupRelease g => decide (1024 ≤ g)
  | .queueConfigure n k l r => q n || decide (3 < k ∨ 256 ≤ l ∨ 2 ^ 64 ≤ r)
  | .programLoad t v l => tag t || decide (2 ^ 64 ≤ v ∨ 2 ^ 64 ≤ l)
  | .programUnload t p => tag t || decide (2 ^ 32 ≤ p)
  | .poolCreate p g t b l => decide (64 ≤ p ∨ 256 ≤ g ∨ 1 < t ∨ 2 ^ 64 ≤ b ∨ 2 ^ 64 ≤ l)
  | .poolDestroy p => decide (64 ≤ p)
  | .kvOffer a r => tag r.ctag || tag r.toCtag || !(a == 1 || a == 2) || (a == 1 && r.offer != 0) ||
      decide (64 ≤ r.pool ∨ 2 ^ 64 ≤ r.sequence ∨ 2 ^ 32 ≤ r.offer)
  | .kvAccept t o n => tag t || decide (2 ^ 32 ≤ o ∨ 2 ^ 64 ≤ n)
  | .kvHint t p h n => tag t || decide (64 ≤ p ∨ 3 < h ∨ 2 ^ 64 ≤ n)
  | .epochBegin m e b => decide (256 ≤ m ∨ 2 ^ 32 ≤ e) || hbufWide b
  | .epochCommit m e => decide (256 ≤ m ∨ 2 ^ 32 ≤ e)
  | .epochAbort m e => decide (256 ≤ m ∨ 2 ^ 32 ≤ e)
  | .adapterLoad t a r e v l => tag t || decide (65536 ≤ a ∨ 65536 ≤ r ∨ 2 ^ 32 ≤ e ∨ 2 ^ 64 ≤ v ∨ 2 ^ 64 ≤ l)
  | .adapterUnload t a => tag t || decide (65536 ≤ a)
  | .placementApply m b => decide (256 ≤ m) || hbufWide b
  | .planLoad b => hbufWide b
  | .portDefine p m => decide (32 ≤ p ∨ 2 ^ 18 ≤ m)
  | .portRemove p => decide (32 ≤ p)
  | .podStateSet p => decide (3 < p)
  | .capSet c => decide (65536 ≤ c)
  | .matchedSet m => decide (1 < m)
  | .logRead f n => decide (2 ^ 64 ≤ f ∨ 256 ≤ n)
  | .dumpRegionSet b => hbufWide b
  | .fwStage b => hbufWide b
  | _ => false

/-! ## Answers (R145, R155, R169) -/

/-- What a command comes to: refused with a status, done with the payload of its reply, accepted for later, held until it
can commit, or answered before it took effect. -/
inductive CmdRes where
  | refuse (status : Nat) (s : State)
  | ok (payload : List Byte) (s : State)
  | accept (s : State)
  | wait (s : State)
  | done (s : State)

/-- An answer queued for a sender; one whose function has had an FLR is discarded (R124). -/
def State.answer (s : State) (h : CmdHdr) (op kind status : Nat) (payload : List Byte) : State :=
  match h.sender with
  | .gone => s
  | x => { s with cx := { s.cx with answers := s.cx.answers ++ [⟨x, kind, op, h, status, payload⟩] } }

/-- The bytes of an answer: header and payload. -/
def answerBytes (a : Answer) : List Byte :=
  leBytes 2 a.opcode ++ leBytes 1 a.kind ++ [0] ++ leBytes 1 a.hdr.major ++ leBytes 1 a.hdr.minor
    ++ leBytes 2 a.payload.length ++ leBytes 4 a.hdr.tag ++ leBytes 2 a.status ++ leBytes 1 a.hdr.target ++ [0] ++ a.payload

/-- Answers of a sender that wait. -/
def State.answersOf (s : State) (x : Sender) : Nat := (s.cx.answers.filter fun a => a.dest == x).length

/-- Opcodes of the deferred commands (R167). -/
def deferredOps : List Nat := [0x0005, 0x0106, 0x0204, 0x0304, 0x0502, 0x0504, 0x0506, 0x0601, 0x0803, 0x0804]

/-- Deferred commands of a sender that are outstanding, those forwarded to a member among them (R154, R157). -/
def State.deferredOf (s : State) (x : Sender) : Nat :=
  (s.cx.deferred.filter fun d => d.hdr.sender == x).length +
    (s.fab.forwardedCmds.filter fun e => e.hdr.sender == x && deferredOps.contains e.opcode).length

/-- The journal entry of a command, with its reply once that is known (R115). -/
def State.journal (s : State) (h : CmdHdr) (op : Nat) (c : Option Command) (committed : Bool) (status : Nat) (payload : List Byte) : State :=
  { s with cx := { s.cx with
      journal := s.cx.journal ++ [⟨s.cx.nextId, h, op, c, committed, false, status, payload⟩], nextId := s.cx.nextId + 1 } }

/-- A message or command is journalled and refused (R115, R151). -/
def State.refuseAs (s : State) (h : CmdHdr) (op : Nat) (c : Option Command) (status : Nat) : State :=
  (s.journal h op c true status []).answer h op 2 status []

/-- A deferred command ends: its notice is queued and it is no longer outstanding (R153). -/
def State.notice (s : State) (d : Deferred) (status : Nat) (payload : List Byte) : State :=
  let s1 := { s with cx := { s.cx with deferred := s.cx.deferred.filter fun x => x.id != d.id } }
  s1.answer d.hdr (cmdOpcode d.cmd) 3 status (if status = ST_OK then payload else [])

/-- The deferred command of an item number. -/
def State.item (s : State) (id : Nat) : Option Deferred := s.cx.deferred.find? fun d => d.id == id

/-- Payload bytes padded to a multiple of eight (R169). -/
def pad8 (b : List Byte) : List Byte := b ++ List.replicate ((8 - b.length % 8) % 8) 0

/-! ## Objects (checks 8, R150) -/

/-- A context named by a command of its owner; a VF that names another function's is refused as if there were none, with a
comet record when there is one. -/
def State.ownCtx (s : State) (x : Sender) (ctag : Nat) (anyForPf : Bool) : Sum (Nat × State) Context :=
  match (tabGet? s.ctx.ctxs ctag).filter (fun c => !c.dying) with
  | none => .inl (ST_ABSENT, s)
  | some c =>
    if senderFn x = some c.owner ∨ (anyForPf ∧ isPf x) then .inr c
    else if isPf x then .inl (ST_OWNER, s)
    else .inl (ST_ABSENT, s.cometF0 5 (masterOf ((senderFn x).getD 0)) ctag (masterOf ((senderFn x).getD 0)))

/-- A VF has named an object that exists and belongs to another function: a record names the VF (R150). -/
def State.foreignNamed (s : State) (x : Sender) (owner : Option Nat) (object : Nat) : State :=
  match senderFn x, owner with
  | some f, some o => if f ≠ 0 ∧ f ≠ o then s.cometF0 5 (masterOf f) object (masterOf f) else s
  | _, _ => s

/-- A queue that is no queue of the context is named: the record of R150 when its group belongs to another function. -/
def State.queueNamed (s : State) (x : Sender) (q : Nat) : State := s.foreignNamed x ((s.group q).map (·.fn)) (q / 64)

/-- A queue of a context, named by a command of its owner. -/
def State.queueOfCtx (s : State) (ctag q : Nat) : Bool := (s.group q).any fun g => g.ctag == ctag

/-- Whether a queue has a step that has not ended (R174). -/
def Queue.unended (x : Queue) : Bool := x.configured && decide (x.completed < x.producer)

/-! ## When a command is taken (R88, R148, R155, R222) -/

/-- The Supervisor executes commands: a complex is active and no adoption pause is in force (R113). -/
def State.supervisorRuns (s : State) : Bool := s.complex s.cx.active == .active && !s.cx.adopting

/-- Whether the agent of a master identity other than a host function's works: a role's while a complex has that role, the others while an
I/O die is powered (R104, R113). -/
def State.masterRuns (s : State) (m : Nat) : Bool :=
  s.ioUp && match m with
    | 0x0001 => s.complex s.cx.active == .active
    | 0x0002 => s.complex s.cx.active == .active
    | 0x0003 => s.complex s.cx.active == .active
    | 0x0011 => s.complex (1 - s.cx.active) == .standby
    | 0x0012 => s.complex (1 - s.cx.active) == .standby
    | 0x0013 => s.complex (1 - s.cx.active) == .standby
    | _ => true

/-- Places in a sender's queue that replies still to come will take: those of commands taken and not committed, and those that members
give (log entry 97). -/
def State.placesOf (s : State) (x : Sender) : Nat :=
  ((s.cx.waiting ++ s.cx.held).filter fun w => w.hdr.sender == x).length +
    (s.fab.forwardedCmds.filter fun e => e.hdr.sender == x && !e.notice).length

/-- A command of a sender waits to commit, so that its later ones do (R151, R222). -/
def State.channelWaits (s : State) (x : Sender) : Bool := (s.cx.waiting ++ s.cx.held).any fun w => w.hdr.sender == x

/-- Whether the Supervisor takes a sender's command in the present state. -/
def State.takes (s : State) (x : Sender) (any : Bool) : Bool :=
  s.supervisorRuns && decide (s.answersOf x + s.placesOf x < 16) &&
    (match s.pp.state with
    | .service => true
    | .drain => any
    | .retain => any
    | _ => false)

/-- Whether a member other than this device is reachable (R136). -/
def State.memberUp (s : State) (m : Nat) : Bool := bit s.fab.members m

/-- A target that is this device (R144). -/
def State.isSelf (s : State) (target : Nat) : Bool := target == 0xFF || target == s.fab.device

/-- The bytes of a message's header, for a command that is forwarded. -/
def cmdHeader (h : CmdHdr) (op len : Nat) : List Byte :=
  leBytes 2 op ++ [1, 0] ++ leBytes 1 h.major ++ leBytes 1 h.minor ++ leBytes 2 len ++ leBytes 4 h.tag ++ [0, 0]
    ++ leBytes 1 h.target ++ [0]

end Sys2Proof.Machine
end

