-- ==== Sys2Proof/Machine/Queues.lean ====
section
/-! DEFINITION. Doorbells and their relay, slots, and what a descriptor says (R139–R141, R173–R190, R202–R205). -/

namespace Sys2Proof.Machine

/-! ## Accesses from the host (R27, R105, R572) -/

/-- Whether an access of a master reaches the register surface: one of a host function is accepted by the port it arrives through, and
another's while its agent works (R104). -/
def State.accepts (s : State) (a : Access) : Bool :=
  match fnOf a.master with
  | none => s.masterRuns a.master
  | some f =>
    decide (a.port < 2) && (s.port a.port).up && (s.port a.port).cfgReady && (s.port a.port).on f && (s.port a.port).memOn f

/-! ## Doorbells (R139, R178) -/

/-- A refusal record of kind 4. -/
def State.refusal (s : State) (f status ctag q value agentKind agent master : Nat) (unassigned relayed : Bool) : State :=
  s.fltRecord f { s.fltBlank with
    kind := 4, status := status, ctag := ctag, queue := q, stepIndex := value, agentKind := agentKind, agent := agent
    detail := flag unassigned 0 + flag relayed 1 + master % 65536 * 2 ^ 48 }

/-- A doorbell write that has reached this device's queue. -/
def State.doorbell (s : State) (master q value agentKind agent : Nat) (relayed : Bool) : State :=
  match s.group q with
  | none =>
    (s.refusal ((fnOf master).getD 0) ST_STATE 0 q value agentKind agent master true relayed).cometF0 6 (q / 64) q master
  | some g =>
    let x := s.queue q
    if fnOf master ≠ some g.fn then
      (s.refusal g.fn ST_DENIED g.ctag q value agentKind agent master false relayed).cometF0 6 (q / 64) q master
    else if s.queueState q = 0 then s.refusal g.fn ST_STATE g.ctag q value agentKind agent master false relayed
    else if value = x.producer then s
    else if value < x.producer ∨ 2 ^ x.log2 < value - x.completed then
      s.refusal g.fn ST_RANGE g.ctag q value agentKind agent master false relayed
    else
      let s1 := s.setQueue q fun x => { x with
        producer := value, latched := true, latchOrder := if x.latched then x.latchOrder else s.dq.latches }
      { s1 with dq := { s1.dq with latches := s1.dq.latches + 1 } }

/-- The queue group that a function's page shows: page g for the PF, the position of a VF's group (R141). -/
def State.pageGroup (s : State) (f page : Nat) : Option Nat :=
  if f = 0 then (if page < 1024 then some page else none)
  else (s.dq.groups.find? fun g => g.2.fn == f && g.2.vfPage == page).map (·.1)

/-- A doorbell at a host port of this device. -/
def State.portDoorbell (s : State) (a : Access) (page entry value : Nat) : State :=
  match fnOf a.master with
  | none => s
  | some f => match s.pageGroup f page with
    | none => s
    | some g => s.doorbell a.master (g * 64 + entry) value 9 s.cx.active false

/-- DOORBELL_WRITE (R139, R141, R178). -/
def execDoorbellWrite (a : Access) (page entry value : Nat) (s : State) : Out :=
  .next (if s.accepts a ∧ entry < 64 ∧ value < 2 ^ 64 then s.portDoorbell a page entry value else s)

/-! ## The relay at the head (R140, R202–R205) -/

/-- The key of a member's queue in the mirror. -/
def mirrorKey (member q : Nat) : Nat := member * 65536 + q

/-- A doorbell in the window of a member that cannot be reached is discarded, counted and logged. -/
def State.windowDiscard (s : State) (q master : Nat) : State :=
  { s with dq := { s.dq with discarded := (s.dq.discarded + 1) % 2 ^ 32 } }.cometF0 6 (q / 64) q master

/-- A doorbell in another member's pod window: pending in the relay table, where it replaces an earlier value. -/
def State.windowDoorbell (s : State) (master member q value : Nat) : State :=
  if !s.isHead || !s.memberUp member then s.windowDiscard q master
  else if s.dq.relay.any (fun r => r.member == member && r.queue == q) then
    { s with dq := { s.dq with relay := s.dq.relay.map fun r =>
      if r.member = member ∧ r.queue = q then { r with value := value, master := master } else r } }
  else
    { s with dq := { s.dq with
      relay := s.dq.relay ++ [⟨member, q, master, value, s.dq.relayOrder⟩], relayOrder := s.dq.relayOrder + 1 } }

/-- POD_WINDOW_DOORBELL (R140, R202). -/
def execPodWindowDoorbell (a : Access) (member page entry value : Nat) (s : State) : Out :=
  .next (
    if s.accepts a ∧ a.master = masterOf 0 ∧ member < 64 ∧ page < 1024 ∧ entry < 64 ∧ value < 2 ^ 64 then
      if member = s.fab.device then s.portDoorbell a page entry value
      else s.windowDoorbell a.master member (page * 64 + entry) value
    else s)

/-- Relay credits of a member at the head (R203). -/
def relayCredits : Nat := 64
/-- Relay credits that serve only URGENT queues. -/
def urgentRelay : Nat := 8

/-- Whether the mirror shows a queue as URGENT. -/
def State.mirrorUrgent (s : State) (member q : Nat) : Bool :=
  bits (tabGet freshMirror s.dq.mirrors (mirrorKey member q)).status 18 2 == 0

/-- The pending entry of a member that is forwarded next: URGENT queues first, then in the order marked, while a credit that
may serve it is free. -/
def State.nextForward (s : State) (member : Nat) : Option RelayEntry :=
  let mine := s.dq.relay.filter fun r => r.member == member
  let used := tabGet 0 s.dq.inFlight member
  match minBy (·.order) (mine.filter fun r => s.mirrorUrgent member r.queue) with
  | some r => if used < relayCredits then some r else none
  | none => if used < relayCredits - urgentRelay then minBy (·.order) mine else none

/-- The switch that leaves for a member: every doorbell marked before it has gone (R456). -/
def State.nextSwitch (s : State) (member : Nat) : Option SwitchOut :=
  s.dq.switches.find? fun w => w.member == member && s.dq.relay.all fun r => r.member != member || decide (w.before ≤ r.order)

/-- A switch is forwarded when it may be. -/
def State.forwardSwitch (s : State) (member : Nat) : State :=
  match s.nextSwitch member with
  | none => s
  | some w => { s with dq := { s.dq with switches := s.dq.switches.filter fun x => !(x == w) } }.send member 3 (.epochSwitch w.model w.epoch)

/-- RELAY_FORWARD (R202, R203): a pending doorbell is forwarded, and a switch once no doorbell is left before it. -/
def execRelayForward (member : Nat) (s : State) : Out :=
  .next (
    if s.isHead && s.memberUp member then
      State.forwardSwitch (match s.nextForward member with
      | none => s
      | some r =>
        let s1 := { s with dq := { s.dq with
          relay := s.dq.relay.filter fun x => !(x.member == member && x.queue == r.queue)
          inFlight := tabMod 0 s.dq.inFlight member (· + 1)
          relaySent := tabMod 0 s.dq.relaySent member (· + 1)
          forwarded := (s.dq.forwarded + 1) % 2 ^ 32 } }
        s1.send member 3 (.doorbell r.master r.queue r.value)) member
    else s)

/-- FORWARDED_DOORBELL_RECEIVE (R202, R203): the doorbell is applied as at this device's own port, and the credit returns. -/
def execForwardedDoorbellReceive (master queue value ioDie : Nat) (s : State) : Out :=
  .next (
    if queue < 65536 ∧ value < 2 ^ 64 ∧ ioDie < 2 ∧ !s.isHead then
      (s.doorbell master queue value 10 ioDie true).send s.headDevice 3 .relayCredit
    else s)

/-- RELAY_CREDIT_RETURN (R203). -/
def execRelayCreditReturn (member : Nat) (s : State) : Out :=
  .next (
    if 0 < tabGet 0 s.dq.inFlight member then
      { s with dq := { s.dq with
          inFlight := tabMod 0 s.dq.inFlight member (· - 1), relayAcked := tabMod 0 s.dq.relayAcked member (· + 1) } }
    else s)

/-- MIRROR_UPDATE (R204): the five fields of an entry are applied together. -/
def execMirrorUpdate (member queue : Nat) (m : Mirror) (s : State) : Out :=
  .next (
    if s.isHead && decide (member < 64 ∧ queue < 65536) then
      { s with dq := { s.dq with mirrors := tabSet s.dq.mirrors (mirrorKey member queue) m } }
    else s)

/-! ## Slots (R185–R189) -/

/-- Steps of a queue that have been read and have not ended. -/
def State.readSteps (s : State) (q : Nat) : List StepRec := s.dq.steps.filter fun t => t.queue == q

/-- The Dispatcher works: the module is in SERVICE and no adoption pause is in force (R49, R113). -/
def State.dispatching (s : State) : Bool := s.pp.state == .service && s.supervisorRuns

/-- Position of a CTAG in the rotation of a class: the one after the CTAG last served comes first. -/
def State.rotation (s : State) (cls ctag : Nat) : Nat :=
  match tabGet? s.dq.lastServed cls with
  | none => ctag
  | some l => (ctag + 4095 - l % 4096) % 4096

/-- The CTAG of a queue. -/
def State.queueCtag (s : State) (q : Nat) : Nat := ((s.group q).map (·.ctag)).getD 0

/-- The order of R189 as one number: class, then rotation of contexts, then the order of latching. -/
def State.serveKey (s : State) (cls q : Nat) : Nat :=
  cls * 2 ^ 80 + s.rotation cls (s.queueCtag q) * 2 ^ 64 + (s.queue q).latchOrder

/-- Configured queues in the order of R189. -/
def State.queueOrder (s : State) (p : Nat → Queue → Bool) : List Nat :=
  sortBy (fun q => s.serveKey (s.queue q).cls q) ((s.dq.queues.filter fun x => x.2.configured && p x.1 x.2).map (·.1))

/-- The lowest free slot. -/
def State.freeSlot (s : State) : Option Nat :=
  (List.range 256).find? fun n => !(s.dq.queues.any fun x => x.2.slot == some n)

/-- Whether a slotted queue's read steps all await layer 0 of a swap (R458). -/
def State.allHeld (s : State) (q : Nat) : Bool :=
  !(s.readSteps q).isEmpty && (s.readSteps q).all fun t => match t.cond with
    | .held => true
    | _ => false

/-- Whether a queue has unread steps below its cut in a swap whose drain is unfinished (R458). -/
def State.belowCut (s : State) (q : Nat) : Bool :=
  s.wt.models.any fun m => (match m.2.phase with
    | .none_ => false
    | .opened => false
    | .restoring => false
    | _ => true) && m.2.frontier == 0 && decide ((s.queue q).consumed < tabGet 0 m.2.cuts q)

/-- The slotted queue that a parked queue displaces, by the order of R186, with R458's addition: the lowest class, then one with no step
read, then the one whose latch has been clear longest, a set latch counting as clear from now on. -/
def State.displaced (s : State) (q : Nat) : Option Nat :=
  let cls := (s.queue q).cls
  let low := s.dq.queues.filter fun x => x.2.slot.isSome && decide (cls < x.2.cls)
  let key (x : Nat × Queue) : Nat :=
    (3 - x.2.cls) * 2 ^ 100 + b2n (!(s.readSteps x.1).isEmpty) * 2 ^ 99
      + (if x.2.latched then s.aon.clock + 1 else x.2.clearSince) % 2 ^ 80 * 2 ^ 16 + x.1
  match minBy key low with
  | some x => some x.1
  | none =>
    if s.belowCut q then
      (minBy key (s.dq.queues.filter fun x => x.2.slot.isSome && x.2.cls == cls && s.allHeld x.1)).map (·.1)
    else none

/-- A latched doorbell of a queue has been found with the queue in a slot. -/
def Queue.scanned (x : Queue) (now : Nat) : Queue := { x with latched := false, clearSince := now }

/-- The scan meets one queue with a latched doorbell: a slotted one is found, a parked one is mapped if it can be (R185). The latch clears at
the scan that finds the queue in a slot or maps it; a queue displaced after that, with descriptors unread, waits for a new doorbell (log
entry 104). -/
def State.mapQueue (s : State) (q : Nat) : State :=
  if (s.queue q).slot.isSome then s.setQueue q (·.scanned s.aon.clock)
  else match s.freeSlot with
    | some n => (s.setQueue q fun x => { x.scanned s.aon.clock with slot := some n }).mirrorOut q
    | none => match s.displaced q with
      | none => s
      | some v =>
        let n := (s.queue v).slot
        let s1 := (s.setQueue v fun x => { x with slot := none }).mirrorOut v
        (s1.setQueue q fun x => { x.scanned s.aon.clock with slot := n }).mirrorOut q

/-- IDLE_SLOT_HANDOVER (R187). -/
def execIdleSlotHandover (queue : Nat) (s : State) : Out :=
  .next (
    let x := s.queue queue
    if s.dispatching && x.slot.isSome && !x.latched && (s.readSteps queue).isEmpty && !x.reading &&
        decide (1000000 ≤ s.aon.clock - max x.clearSince x.lastEnd) then
      match s.queueOrder fun _ y => y.latched && y.slot.isNone && y.cls == x.cls with
      | [] => s
      | w :: _ =>
        let s1 := (s.setQueue queue fun x => { x with slot := none }).mirrorOut queue
        (s1.setQueue w fun y => { y.scanned s.aon.clock with slot := x.slot }).mirrorOut w
    else s)

/-- CLASS_PROMOTION (R189). -/
def execClassPromotion (queue stepIndex : Nat) (s : State) : Out :=
  .next (
    match s.step? queue stepIndex with
    | some t =>
      let waited := s.aon.clock - t.readAt
      let c := (s.queue queue).cls
      let waits : Bool := match t.cond with
        | .awaiting => t.ended.isNone
        | .held => t.ended.isNone
        | _ => false
      if s.dispatching && waits && ((c == 2 && decide (20000000 ≤ waited)) || (c == 3 && decide (100000000 ≤ waited))) then
        s.modStep queue stepIndex fun u => { u with promoted := true }
      else s
    | none => s)

/-! ## Epochs of a step (R192, R456–R458, R464) -/

/-- Whether a model's switch has been taken and its swap not ended. -/
def Model.swapping (m : Model) : Bool :=
  match m.phase with
  | .checking => true
  | .staging => true
  | .copying => true
  | .waiting => true
  | _ => false

/-- Whether a model's epoch is open to be named. -/
def Model.isOpen (m : Model) : Bool :=
  match m.phase with
  | .none_ => false
  | .restoring => false
  | _ => true

/-- The weight epoch that a step binds, 0 for a step that names no model; none where the epoch asked for is not there. -/
def State.weightEpoch (s : State) (t : StepRec) : Option Nat :=
  match t.model with
  | none => some 0
  | some n =>
    let m := s.model n
    let above := m.swapping && decide (tabGet 0 m.cuts t.queue ≤ t.index)
    if !m.resident then none
    else if t.wantW ≠ 0 then
      if t.wantW = m.service ∧ !above then some m.service
      else if m.isOpen ∧ t.wantW = m.opened then some m.opened
      else none
    else if above then some m.opened
    else if m.service = 0 then none
    else some m.service

/-- The adapter epoch that a step binds, 0 for none named; none where it is not resident in the step's context. -/
def State.adapterEpoch (s : State) (t : StepRec) : Option Nat :=
  match t.adapter with
  | none => some 0
  | some n =>
    match (tabGet? s.wt.adapters n).filter fun a => a.ctag == t.ctag with
    | none => none
    | some a => match a.resident with
      | none => none
      | some e => if t.wantA = 0 ∨ t.wantA = e.epoch then some e.epoch else none

/-- Whether a step that would bind an epoch waits at a hold barrier: the new epoch before layer 0, the old one while a restore
runs. -/
def State.holdBarrier (s : State) (t : StepRec) (epoch : Nat) : Bool :=
  match t.model with
  | none => false
  | some n =>
    let m := s.model n
    (m.isOpen && epoch == m.opened && m.opened != m.service && m.frontier == 0) || (match m.phase with
      | .restoring => epoch == m.service
      | _ => false)

/-! ## Descriptors (R180–R184, R231) -/

/-- The dispatch record that a descriptor's bytes make. -/
def State.stepOf (s : State) (q i ctag fn : Nat) (b : List Byte) : StepRec :=
  { queue := q, index := i, ctag := ctag, fn := fn, program := fieldAt b 4 4
    model := if fieldAt b 8 1 = 0xFF then none else some (fieldAt b 8 1)
    adapter := if fieldAt b 0x0A 2 = 0xFFFF then none else some (fieldAt b 0x0A 2)
    wantW := fieldAt b 0x0C 4, wantA := fieldAt b 0x10 4, depValid := bit (fieldAt b 2 2) 0
    depQueue := fieldAt b 0x24 2, depCount := fieldAt b 0x28 8, argsVa := fieldAt b 0x18 8, argsLen := fieldAt b 0x20 4
    saveVa := fieldAt b 0x30 8, userTag := fieldAt b 0x38 8, inlineArgs := bytesAt b 0x40 32, cond := .awaiting
    readAt := s.aon.clock, promoted := false, launchTime := 0, epochW := 0, epochA := 0, libBank := 0, bank := 0, cores := []
    launchSeq := 0, preemptedBy := none, saved := [], coresHeld := false, faults := [], faultStatus := 0
    interrupted := false, kindNoted := false, ended := none, endTime := 0, writeBack := true }

/-- Check 1 of R182. -/
def descOk (b : List Byte) (t : StepRec) : Bool :=
  fieldAt b 0 2 == 1 && decide (fieldAt b 2 2 < 2) && zeroAt b 9 1 && zeroAt b 0x14 4 && zeroAt b 0x26 2 &&
  decide (t.argsVa % 64 = 0 ∧ t.argsVa < 2 ^ 52 ∧ t.argsLen % 64 = 0 ∧ t.argsLen ≤ 65536 ∧ t.saveVa % 4096 = 0 ∧
    t.saveVa < 2 ^ 52) && (t.argsVa != 0 || t.argsLen == 0) && (t.saveVa != 0 || t.program == 0)

/-- Whether a program handle is loaded in a step's context. -/
def State.programLoaded (s : State) (t : StepRec) : Bool :=
  t.program == 0 || s.ctx.programs.any fun p => p.ctag == t.ctag && p.handle == t.program && p.loaded

/-- The checks of R182 after the read: the status of the first that fails. -/
def State.descStatus (s : State) (b : List Byte) (t : StepRec) : Option Nat :=
  if !descOk b t then some ST_MALFORMED
  else if t.depValid ∧ !s.queueOfCtx t.ctag t.depQueue then some ST_ISOLATION
  else if t.depValid ∧ t.depQueue = t.queue ∧ t.index < t.depCount then some ST_MALFORMED
  else if !s.programLoaded t then some ST_PROGRAM
  else if (s.weightEpoch t).isNone ∨ (s.adapterEpoch t).isNone then some ST_EPOCH
  else none

/-- A step counts as read, with its record. -/
def State.readStep (s : State) (t : StepRec) : State :=
  let s1 := s.setQueue t.queue fun x => { x with consumed := x.consumed + 1, reading := false }
  { s1 with dq := { s1.dq with steps := s1.dq.steps ++ [t] } }.mirrorOut t.queue

/-- A descriptor whose read failed: the step counts as read and ends, with no write-back. -/
def State.readFailed (s : State) (q i status : Nat) : State :=
  let t := s.stepOf q i (s.queueCtag q) (((s.group q).map (·.fn)).getD 0) []
  (s.readStep { t with writeBack := false, model := none, adapter := none }).endStep q i status

/-- The fault record of a failed descriptor read: access 1 whatever its kind, as R231 says, where R232 gives 0 for kinds 4 to 6 (log
entry 89). -/
def State.descFault (s : State) (q i kind detail ri va : Nat) : State :=
  let f := ((s.group q).map (·.fn)).getD 0
  let t := s.stepOf q i (s.queueCtag q) f []
  let s1 := ((s.useRefusal (s.context t.ctag) kind detail).fltRecord f { s.fltBlank with
    kind := kind, access := 1, status := faultStatus kind, ctag := s.queueCtag q, queue := q
    stepIndex := i, va := va, agentKind := 9, agent := s.cx.active, rangeIndex := ri, detail := detail, flags := 2 })
  (s1.accessComet t kind detail va 9 s.cx.active).readFailed q i (faultStatus kind)

/-- Address of the descriptor that the Dispatcher reads next. -/
def Queue.descVa (x : Queue) : Nat := x.ringVa + x.consumed % 2 ^ x.log2 * 128

/-- The bytes of a descriptor have come: it is checked, and waits, or its step ends (R182). -/
def State.descRead (s : State) (q : Nat) (b : List Byte) : State :=
  let i := (s.queue q).consumed
  let t := s.stepOf q i (s.queueCtag q) (((s.group q).map (·.fn)).getD 0) b
  match s.descStatus b t with
  | none => s.readStep t
  | some st =>
    let s1 := s.readStep t
    let s2 := if st = ST_ISOLATION then
        (s1.fltRecord t.fn { s1.fltBlank with
          kind := 5, status := st, ctag := t.ctag, queue := q, stepIndex := i, agentKind := 9, agent := s1.cx.active
          detail := t.depQueue, flags := 2 }).cometF1 6 (q / 64) (some t.ctag) t.depQueue t.fn 0xFFFF
      else s1
    s2.endStep q i st

/-- The read of a descriptor ends, with the bytes of a ring in host memory given (R182, R231). -/
def State.descDone (s : State) (q : Nat) (data : HostData) : State :=
  let x := s.queue q
  let i := x.consumed
  let va := x.descVa
  let s0 := { s with host := { s.host with reads := s.host.reads.filter fun r => !(r.purpose == ReadPurpose.descriptor q) } }
  match s0.xlateNow dispUnit (s.queueCtag q) va 128 1 with
  | .fault k d ri a => s0.descFault q i k d ri a
  | .miss a => s0.descFault q i 1 0 0xFFFFFFFF a
  | .ok ps =>
    let s0 := s0.afterNow dispUnit (s.queueCtag q) ps
    let ri := (ps.head?.map (·.ri)).getD 0
    if partsHost ps then
      match data with
      | .ok b => s0.descRead q b
      | .failed cause st => s0.descFault q i 3 (hostDetail cause st (s.context (s.queueCtag q)).homePort) ri va
      | .poisoned => s0.descFault q i 3 (hostDetail 3 0 (s.context (s.queueCtag q)).homePort) ri va
    else match s0.partsPoison ps with
      | some pa => (s0.readFailed q i ST_ECC).cometF3 6 (q / 64) q pa (q, i)
      | none => s0.descRead q (s0.readParts ps)

/-- DESCRIPTOR_READ_COMPLETE (R182, R231). -/
def execDescriptorReadComplete (queue : Nat) (data : HostData) (s : State) : Out :=
  .next (
    let size : Bool := match data with
      | .ok b => b.length == 128
      | _ => true
    if (s.queue queue).reading && size && s.supervisorRuns then s.descDone queue data else s)

end Sys2Proof.Machine
end

