-- ==== Sys2Proof/Machine/HostAccess.lean ====
section
/-! DEFINITION. Accesses of a step's agents through ranges: the range cache and its walks, address translation by ATS, reads of
host memory, and stores that pass through a gather buffer (R218–R225, R255, R571). -/

namespace Sys2Proof.Machine

/-- Where an access stands: ready with its parts, waiting for a walk, a translation or data, or failed. -/
inductive Stage where
  | ok (s : State) (ps : List Part)
  | stall (s : State)
  | fault (kind detail ri va : Nat)

/-- An access is translated through a unit's cache; a miss starts a walk, and a page of an ATS range is asked for. -/
def State.stage (s : State) (unit ctag va len access : Nat) (step : Option (Nat × Nat)) (agentKind agent : Nat) : Stage :=
  match s.xlate unit ctag va len access with
  | .miss a => .stall (s.startWalk unit ctag a access step agentKind agent)
  | .fault k d ri a => .fault k d ri a
  | .ok ps =>
    let s1 := forEach ps s fun s p => s.touch unit ctag p.va
    if partsHost ps then
      let c := s.context ctag
      match s.ctxPort c with
      | none => .fault 3 (hostDetail 6 0 c.homePort) (firstHost ps).1 (firstHost ps).2
      | some port =>
        match s1.atsParts port (pasidKey c.pasid) ps [] with
        | .ok qs => .ok s1 qs
        | .ask g => .stall (s1.askAts port (pasidKey c.pasid) g)
        | .refused _ st => .fault 3 (hostDetail 5 st port) (firstHost ps).1 (firstHost ps).2
    else .ok s1 ps

/-! ## Reads -/

/-- Where a read stands: its bytes, waiting, failed, or met by a poisoned unit at an address. -/
inductive Got where
  | bytes (s : State) (b : List Byte)
  | stall (s : State)
  | fault (kind detail ri va : Nat)
  | poison (pa : Nat)

/-- Bytes of the parts that lie in host memory. -/
def hostLen (ps : List Part) : Nat :=
  (ps.map fun p => match p.place with
    | .host _ _ _ => p.len
    | .dev _ _ _ => 0).sum

/-- The bytes of a read: device memory as the reader sees it, host memory from the completions' data. -/
def State.mergeParts (s : State) (core : Option Nat) : List Part → List Byte → List Byte
  | [], _ => []
  | p :: r, host => match p.place with
    | .dev pa key x => s.seenPart core key pa p.len x ++ s.mergeParts core r host
    | .host _ _ _ => host.take p.len ++ s.mergeParts core r (host.drop p.len)

/-- The requests that an agent has issued for an access, one for each part in host memory. -/
def State.readsOf (s : State) (purpose : ReadPurpose) (ctag va : Nat) : List HostRead :=
  s.host.reads.filter fun r => r.purpose == purpose && r.ctag == ctag && r.accessVa == va

/-- The bytes that the completions of an access brought, once all have come. -/
def readsData (rs : List HostRead) : Option (List Byte) :=
  rs.foldr (fun r a => match r.data, a with
    | some b, some bs => some (b ++ bs)
    | _, _ => none) (some [])

/-- A read request leaves through a port (R224, R225). -/
def State.requestRead (s : State) (port fn : Nat) (pasid : Option Nat) (r : HostRead) (noSnoop : Bool) : State :=
  let s1 := s.emit (.hostRead port fn pasid r.addr r.length (flag noSnoop 0 + flag r.xlated 1))
  { s1 with host := { s1.host with reads := s1.host.reads ++ [r], nextRead := s1.host.nextRead + 1 } }

/-- The read requests of an access leave through a port, one for each part in host memory (R224). -/
def State.issueRead (s : State) (port ctag va : Nat) (ps : List Part) (purpose : ReadPurpose) : State :=
  let c := s.context ctag
  forEach ps s fun s p => match p.place with
    | .dev _ _ _ => s
    | .host a x n =>
      if p.len = 0 then s
      else s.requestRead port c.owner c.pasid ⟨s.host.nextRead, port, ctag, a, p.len, s.aon.clock, purpose, none, p.va, p.ri, x, va⟩ n

/-- A read of `len` bytes by an agent of a step. Data that completions brought are used as they came. A core's own load is served from
its gather buffer (R255). -/
def State.readVa (s : State) (unit ctag va len access : Nat) (purpose : ReadPurpose) (step : Option (Nat × Nat))
    (agentKind agent : Nat) : Got :=
  let own := if agentKind = 1 ∧ access = 1 then some agent else none
  let rs := s.readsOf purpose ctag va
  if rs.isEmpty then
    match s.stage unit ctag va len access step agentKind agent with
    | .stall s' => .stall s'
    | .fault k d ri a => .fault k d ri a
    | .ok s' ps => match s.partsPoison ps with
      | some pa => .poison pa
      | none =>
        if partsHost ps then .stall (s'.issueRead ((s.ctxPort (s.context ctag)).getD 0) ctag va ps purpose)
        else .bytes (s'.wakeParts ps) (s'.mergeParts own ps [])
  else match readsData rs with
    | none => .stall s
    | some b =>
      if b.length = len then .bytes s b
      else match s.stage unit ctag va len access step agentKind agent with
        | .stall s' => .stall s'
        | .fault k d ri a => .fault k d ri a
        | .ok s' ps => match s.partsPoison ps with
          | some pa => .poison pa
          | none => .bytes (s'.wakeParts ps) (s'.mergeParts own ps b)

/-- The reads of an agent are done with. -/
def State.dropReads (s : State) (purpose : ReadPurpose) : State :=
  { s with host := { s.host with reads := s.host.reads.filter fun r => !(r.purpose == purpose) } }

/-! ## Stores (R224, R255) -/

/-- Bytes written through the gather buffer of a core, line by line. -/
def State.gatherWrite (s : State) (n : Nat) : Nat → Nat → List Byte → State
  | 0, _, _ => s
  | fuel + 1, off, bs =>
    if bs.isEmpty then s
    else
      let k := 64 - off % 64
      (s.gatherLine n (off % mib2 / 64) (off % 64) (bs.take k)).gatherWrite n fuel (off + k) (bs.drop k)

/-- Bytes written to a scratchpad: fewer than 64 through its gather buffer, 64 or more to its banks. -/
def State.scratchWrite (s : State) (n off : Nat) (bs : List Byte) : State :=
  if bs.length < 64 then s.gatherWrite n 3 off bs else s.bankWrite n off bs

/-- Bytes of a protected range written to a scratchpad, unit by unit: each unit as the gather buffer and the bank hold it is
deciphered, changed and enciphered, and passes through the buffer whole (R235, R255). -/
def State.sealedWrite (s : State) (n off : Nat) (key : List Byte) (bs : List Byte) : State :=
  let us := (List.range ((off + bs.length - 1) / 64 - off / 64 + 1)).map (off / 64 + ·)
  let plain := us.flatMap fun u => xtsUnit false key (scratchPa n (u * 64) / 64) (s.ownRead n (u * 64) 64)
  forEach (us.zip (chunks 64 us.length (putAt plain (off % 64) bs))) s fun s e =>
    s.gatherLine n (e.1 % 32768) 0 (xtsUnit true key (scratchPa n (e.1 * 64) / 64) e.2)

/-- A write made part by part, as `writeParts`, where a part narrower than 64 bytes in a scratchpad passes its gather buffer. A write
that no synchronisation orders with another agent's read is seen whole by every later read, the new value of the choices of R23
(log entry 90). -/
def State.storeParts (s : State) (w : Writer) : List Part → List Byte → State
  | [], _ => s
  | p :: r, bs =>
    let now := bs.take p.len
    let s' := match p.place with
      | .dev pa key _ => match key, locate pa, s.resetAt pa with
        | none, .scratch n off, none => (s.wakeAt pa).scratchWrite n off now
        | some k, .scratch n off, none =>
          if now.isEmpty ∨ 64 ≤ now.length then s.devStore key pa now else (s.wakeAt pa).sealedWrite n off k now
        | _, _, _ => s.devStore key pa now
      | .host a x n => if now.isEmpty then s else s.hostData w (s.context w.ctag) p a x n now
    s'.storeParts w r (bs.drop p.len)

/-- Every narrow write that an agent may have left in a gather buffer reaches its bank, as an acknowledgement needs (R257). -/
def State.settleWrites (s : State) : State := forEach s.fleet.cores s fun s n => s.flushGather n.1

/-- An access of a step fails; a refusal of its translation is used up by it (R225, R571). -/
def State.failAccess (s : State) (q i kind access detail ri va agentKind agent : Nat) : State :=
  (s.useRefusal (((s.step? q i).map fun t => s.context t.ctag).getD noContext) kind detail).accessFault q i kind access detail ri va
    agentKind agent

/-! ## Walks and translations that return -/

/-- A cache takes the range that a walk found. -/
def State.fill (s : State) (w : Walk) (e : Nat × RangeEntry) : State :=
  { s with ctx := { s.ctx with caches := tabMod [] s.ctx.caches w.unit fun es => fillCache es ⟨w.ctag, e.1, e.2⟩ } }

/-- A walk that found no range: a translation fault of the access that missed; none for a TOUCH. -/
def State.walkFault (s : State) (w : Walk) : State :=
  match w.step with
  | none => s
  | some k =>
    if w.unit = dispUnit ∧ w.agentKind = 9 then s.descFault k.1 k.2 1 0 0xFFFFFFFF w.va
    else s.faultStep k.1 k.2 1 w.access 0 0xFFFFFFFF w.va w.agentKind w.agent

/-- RANGE_WALK_COMPLETE (R219–R223): the oldest walk of a unit that no invalidation holds. -/
def execRangeWalkComplete (unit : Nat) (s : State) : Out :=
  .next (
    match s.ctx.walks.find? fun w => w.unit == unit && !w.held with
    | none => s
    | some w =>
      let s1 := { s with ctx := { s.ctx with walks := s.ctx.walks.filter fun x => !(x == w) } }
      match s1.tableWalk w.ctag w.va with
      | some e => s1.fill w e
      | none => s1.walkFault w)

/-- A translation asked for under a PASID has been answered: the reports of ends and the saves of cores that waited for it go on. -/
def State.translated (s : State) (pasid : Nat) : State :=
  forEach ((s.ctx.ctxs.filter fun c => pasidKey c.2.pasid == pasid).map (·.1)) s fun s ct => (s.resumeSaves ct).reportCtx ct

/-- ATS_TRANSLATION_COMPLETION (R225): a translation asked for arrives, into the 4,096 of its port; a status other than success refuses
it. -/
def execAtsTranslationCompletion (port pasid page status target : Nat) (s : State) : Out :=
  .next (
    if s.host.atsAsked.contains (port, pasid, page) then
      let h := { s.host with atsAsked := s.host.atsAsked.filter fun e => !(e == (port, pasid, page)) }
      if status = 0 then
        let mine := (⟨port, pasid, page, target⟩ :: h.atc.filter fun (e : AtcEntry) => e.port == port && !(e.pasid == pasid && e.page == page)).take 4096
        { s with host := { h with atc := mine ++ h.atc.filter fun (e : AtcEntry) => e.port != port } }.translated pasid
      else { s with host := { h with atsRefused := h.atsRefused ++ [((port, pasid, page), status)] } }.translated pasid
    else s)

/-- Whether translated requests on a port have still to complete. -/
def State.atsBusy (s : State) (port : Nat) : Bool := s.host.reads.any fun r => r.port == port && r.xlated && r.data.isNone

/-- Invalidations of a port are completed once no translated request remains. -/
def State.atsSettle (s : State) (port : Nat) : State :=
  if s.host.atsInval.contains port && !s.atsBusy port then
    let n := (s.host.atsInval.filter (· == port)).length
    forEach (List.range n) { s with host := { s.host with atsInval := s.host.atsInval.filter (· != port) } }
      fun s _ => s.emit (.atsDone port)
  else s

/-- ATS_INVALIDATION_REQUEST (R225): the translations of some pages are dropped; the request is completed at once, or after the
last translated request on the port. -/
def execAtsInvalidationRequest (port pasid page pages : Nat) (s : State) : Out :=
  .next (
    if (s.port port).up then
      let s1 := { s with host := { s.host with
        atc := s.host.atc.filter fun e => !(e.port == port && e.pasid == pasid && decide (page ≤ e.page ∧ e.page < page + pages))
        atsInval := s.host.atsInval ++ [port] } }
      s1.atsSettle port
    else s)

end Sys2Proof.Machine
end

