-- ==== Sys2Proof/Machine/Launch.lean ====
section
/-! DEFINITION. The Dispatcher's round, the choice of cores, pre-emption, launch, relaunch and the end of a core's part
(R189–R196, R238, R243, R260, R267, R274, R278). -/

namespace Sys2Proof.Machine

/-! ## The choice of cores (R191, R238, R242, R243) -/

/-- The class by which a step is served: its queue's, or INTERACTIVE once promoted (R189). -/
def State.stepClass (s : State) (t : StepRec) : Nat := if t.promoted then min 1 (s.queue t.queue).cls else (s.queue t.queue).cls

/-- Whether another step, pre-empted or suspended, or ordered to be, keeps a core from a step: only the step that pre-empted it
may take the core (R195, R228; log entry 86). -/
def State.keptFor (s : State) (t : StepRec) (n : Nat) : Bool :=
  s.dq.steps.any fun u => u.ended.isNone && u.cores.contains n && !(u.queue == t.queue && u.index == t.index) &&
    (match u.cond with
    | .preempting => u.preemptedBy != some (t.queue, t.index)
    | .preempted => u.preemptedBy != some (t.queue, t.index)
    | .suspending => u.preemptedBy != some (t.queue, t.index)
    | .suspended => u.preemptedBy != some (t.queue, t.index)
    | _ => false)

/-- Whether a step may ever run on a core: mapped, its quad not marked for retirement, within the set that firmware permits the context
(log entry 105), and reserved only if the step is URGENT. -/
def State.usable (s : State) (t : StepRec) (n : Nat) : Bool :=
  let d := n / 64
  s.coreMapped n && !(s.die d).retiring.contains (n % 64 / 4) && !(s.die d).resetting && (s.context t.ctag).cores.all (·.contains n) &&
    ((s.queue t.queue).cls == 0 || !(s.reservedCores d).contains n)

/-- Whether a core may be chosen for a step now: it holds no step, and is not kept for another. -/
def State.eligible (s : State) (t : StepRec) (n : Nat) : Bool := s.usable t n && (s.core n).step.isNone && !s.keptFor t n

/-- The cores of a die that a step would take of those not taken already: the lowest-numbered eligible ones, as many as it needs (log
entry 10). -/
def State.pickDie (s : State) (taken : List Nat) (t : StepRec) (p : Program) (d : Nat) : List Nat :=
  ((s.mappedCores d).filter fun n => s.eligible t n && !taken.contains n).take (p.coresPerDie.getD d 0)

/-- The cores of every die that a step would take, ascending. -/
def State.pick (s : State) (taken : List Nat) (t : StepRec) (p : Program) : List Nat := (List.range 8).flatMap (s.pickDie taken t p)

/-- The cores chosen for a step on every die; none when a die has too few. -/
def State.chooseCores (s : State) (taken : List Nat) (t : StepRec) (p : Program) : Option (List Nat) :=
  if (List.range 8).all fun d => (s.pickDie taken t p d).length == p.coresPerDie.getD d 0 then some (s.pick taken t p) else none

/-- The slices a program declares on a die. -/
def Program.slices (p : Program) (d : Nat) : List Nat :=
  let c := p.commons.getD d (0, 0)
  (List.range c.2).map (c.1 + ·)

/-- Whether every slice that a step declares is free of steps of other contexts (R238). -/
def State.slicesFree (s : State) (t : StepRec) (p : Program) : Bool :=
  (List.range 8).all fun d => (p.slices d).all fun sl =>
    (s.die d).sliceHeld.all fun h => h.1 != sl || (match s.step? h.2.1 h.2.2 with
      | none => true
      | some u => u.ctag == t.ctag || u.ended.isSome)

/-- The dies that take a combiner entry for each barrier of a step: those with cores, and the root die. -/
def coreDies (cores : List Nat) : List Nat := dedup (cores.map (· / 64))

/-- Whether the combiners have room for a step (R267). -/
def State.combinersFree (s : State) (p : Program) (cores : List Nat) : Bool :=
  (coreDies cores).all fun d => decide ((s.die d).combiners.length + p.barriers.length ≤ 128)

/-! ## Pre-emption (R193, R195, R460) -/

/-- Whether a step may be a victim of another. -/
def State.mayPreempt (s : State) (t v : StepRec) : Bool :=
  let a := (s.queue t.queue).cls
  let b := (s.queue v.queue).cls
  let newOld : Bool := match t.model with
    | none => false
    | some m => v.model == some m && (s.model m).swapping && s.weightEpoch t == some (s.model m).opened &&
        v.epochW != (s.model m).opened
  v.ended.isNone && !t.promoted && ((a == 0 && decide (2 ≤ b)) || (a == 1 && b == 3)) && !newOld &&
    (match v.cond with
    | .running => true
    | _ => false)

/-- Cores of a step on a die. -/
def StepRec.coresOn (t : StepRec) (d : Nat) : Nat := (t.cores.filter fun n => n / 64 == d).length

/-- Cores of a victim on a die that a step may run on. -/
def State.frees (s : State) (t v : StepRec) (d : Nat) : Nat := (v.cores.filter fun n => n / 64 == d && s.usable t n).length

/-- Cores that a die is short of, given victims. -/
def State.shortOn (s : State) (taken : List Nat) (t : StepRec) (p : Program) (victims : List StepRec) (d : Nat) : Nat :=
  p.coresPerDie.getD d 0 - (s.pickDie taken t p d).length - (victims.map fun v => s.frees t v d).sum

/-- Victims added in the order of R193 until the step can be placed; none when no choice is enough. -/
def State.victims (s : State) (taken : List Nat) (t : StepRec) (p : Program) : Nat → List StepRec → List StepRec → Option (List StepRec)
  | 0, _, _ => none
  | fuel + 1, cand, got =>
    let short := (List.range 8).map (s.shortOn taken t p got)
    if short.sum = 0 then some got
    else
      let useful := cand.filter fun v => (List.range 8).any fun d => decide (0 < short.getD d 0 ∧ 0 < s.frees t v d)
      let beyond (v : StepRec) : Nat := ((List.range 8).map fun d => v.coresOn d - min (s.frees t v d) (short.getD d 0)).sum
      let key (v : StepRec) : Nat := (3 - (s.queue v.queue).cls) * 2 ^ 80 + beyond v * 2 ^ 64 + (2 ^ 64 - 1 - v.launchSeq)
      match minBy key useful with
      | none => none
      | some v => s.victims taken t p fuel (cand.filter fun u => !(u.queue == v.queue && u.index == v.index)) (v :: got)

/-- A pre-emption order to a step. -/
def State.preempt (s : State) (t v : StepRec) : State :=
  (s.modStep v.queue v.index fun u => { u with cond := .preempting, preemptedBy := some (t.queue, t.index) }).stopCores
    v.queue v.index none

/-- Whether a victim of a step has still to stop for it. -/
def State.stopping (s : State) (t : StepRec) (v : Nat × Nat) : Bool :=
  match s.step? v.1 v.2 with
  | none => false
  | some u => u.ended.isNone && u.preemptedBy == some (t.queue, t.index) && (match u.cond with
    | .preempting => true
    | _ => false)

/-- The victims that a pre-emption plan of a step still waits for. -/
def State.planned (s : State) (t : StepRec) : Bool :=
  s.dq.plans.any fun x => x.1 == (t.queue, t.index) && x.2.any (s.stopping t)

/-- Pre-emption is ordered for a step that cannot be placed without it: once, and anew where every victim has stopped and the cores have
not sufficed. -/
def State.planPreempt (s : State) (taken : List Nat) (t : StepRec) (p : Program) : State :=
  let k := (t.queue, t.index)
  if s.planned t then s
  else
    let cand := s.dq.steps.filter (s.mayPreempt t)
    match s.victims taken t p (cand.length + 1) cand [] with
    | none => s
    | some vs =>
      let s1 := { s with dq := { s.dq with plans := (s.dq.plans.filter fun x => !(x.1 == k)) ++ [(k, vs.map fun v => (v.queue, v.index))] } }
      forEach vs s1 fun s v => s.preempt t v

/-! ## Launch (R192, R238, R260, R267, R278) -/

/-- Whether a step is its queue's current step, read, not ended and not yet launched. -/
def State.awaits (s : State) (t : StepRec) : Bool :=
  t.ended.isNone && t.index == (s.queue t.queue).completed && (match t.cond with
    | .awaiting => true
    | .held => true
    | _ => false)

/-- Whether a step's dependency is met (R190). -/
def State.depMet (s : State) (t : StepRec) : Bool := !t.depValid || decide (t.depCount ≤ (s.queue t.depQueue).completed)

/-- Registers whose values at launch the spec does not give, each a free value (log entry 11). -/
def freeRegs (k : Nat) : CoreRegs :=
  { x := (List.range 31).map fun i => (i + 1, BitVec.ofNat 64 (Config.freeValue (k + i)))
    p := (List.range 7).map fun i => (i + 1, Config.freeValue (k + 31 + i) % 2 == 1)
    v := (List.range 32).map fun i => (i, (List.range 64).map fun j => BitVec.ofNat 32 (Config.freeValue (k + 38 + i * 64 + j))) }

/-- Free values that a core's registers draw. -/
def regDraws : Nat := 38 + 32 * 64

/-- The broadcast group of the core with a relative index on a die (R278). -/
def Program.groupOf (p : Program) (d rel : Nat) : Nat :=
  p.groups.findIdx fun g => g.die == d && decide (g.first ≤ rel ∧ rel < g.first + g.count)

/-- The sync objects that a step takes on a core (R260). -/
def syncAlloc (t : Tab SyncObj) (p : Program) (bank ctag q i : Nat) : Tab SyncObj :=
  (List.range p.syncPerCore).foldl (fun acc h =>
    tabSet acc (16 * bank + h) { freshSync with owner := some ctag, step := some (q, i), barrier := bit p.syncModes h }) t

/-- One core is launched: scrubbed if it served another context, tagged, and started at its group's entry. -/
def State.launchCore (s : State) (t : StepRec) (p : Program) (bank n rel : Nat) : State :=
  let s0 := if (s.core n).tag = some t.ctag then s.flushGather n else s.scrubCore n
  let g := p.groupOf (n / 64) rel
  let s1 := s0.setCore n fun c => { c.letGo with
    power := .active, tag := some t.ctag, step := some (t.queue, t.index), rel := rel, group := g
    regs := freeRegs s0.drawn, pc := ((p.groups[g]?).map (·.entry)).getD 0
    sync := syncAlloc c.sync p bank t.ctag t.queue t.index }
  { s1 with drawn := s1.drawn + regDraws }

/-- One slice is taken: zeroed if it served another context, and tagged; steps of one context may hold it together. -/
def State.launchSlice (s : State) (t : StepRec) (d sl : Nat) : State :=
  let base := commonsBase + d * 2 ^ 27 + sl * mib2
  let s0 := if tabGet none (s.die d).sliceTag sl = some t.ctag then s else { s with mem := s.mem.zero base mib2 }
  s0.setDie d fun x => { x with
    sliceTag := tabSet x.sliceTag sl (some t.ctag), sliceHeld := x.sliceHeld ++ [(sl, (t.queue, t.index))] }

/-- A word of the inline arguments. -/
def StepRec.argWord (t : StepRec) (n : Nat) : Nat := fieldAt t.inlineArgs (4 * n) 4

/-- The combiner entry of a barrier. -/
def freshCombiner (t : StepRec) (b : BarrierRec) : Combiner :=
  { function := t.fn, ctag := t.ctag, key := if b.scope = 3 then t.argWord b.keyWord else 0, barrier := b.barrier
    queue := t.queue, step := t.index, phase := 0, cores := 0, dies := 0, devices := 0 }

/-- The one write of the launch table: every unit is taken, and the step runs with its bindings. -/
def State.launch (s : State) (t : StepRec) (p : Program) (cores : List Nat) (w a : Nat) : State :=
  let bank := if (s.queue t.queue).cls < 2 then 1 else 0
  let s1 := forEach cores s fun s n =>
    s.launchCore t p bank n ((cores.filter fun m => m / 64 == n / 64).findIdx (· == n))
  let s2 := forEach (List.range 8) s1 fun s d => forEach (p.slices d) s fun s sl => s.launchSlice t d sl
  let s3 := forEach (coreDies cores) s2 fun s d =>
    s.setDie d fun x => { x with power := .active, combiners := x.combiners ++ p.barriers.map (freshCombiner t) }
  let s4 := s3.modStep t.queue t.index fun u => { u with
    cond := .running, cores := cores, epochW := w, epochA := a, libBank := s.fleet.bankInForce, bank := bank
    launchSeq := s.dq.launches, launchTime := s.aon.timebase, promoted := false }
  let s5 := { s4 with
    dq := { s4.dq with
      launches := s4.dq.launches + 1
      lastServed := tabSet s4.dq.lastServed (s.stepClass t) t.ctag
      plans := s4.dq.plans.filter fun x => !(x.1 == (t.queue, t.index)) } }
  s5.mirrorOut t.queue

/-- What a step that awaits launch comes to: it ends, or waits at a hold barrier, or may be placed. -/
inductive LaunchWay where
  | ends (status : Nat)
  | hold
  | waits
  | place (p : Program) (w a : Nat)

/-- The checks before a launch: dependency, program and epochs again (R182), hold barrier. -/
def State.launchWay (s : State) (t : StepRec) : LaunchWay :=
  if !s.depMet t then .waits
  else if !s.programLoaded t then .ends ST_PROGRAM
  else match s.weightEpoch t, s.adapterEpoch t with
    | some w, some a =>
      if t.program = 0 then .ends ST_OK
      else if s.holdBarrier t w then .hold
      else match s.programOf t with
        | some p => .place p w a
        | none => .ends ST_PROGRAM
    | _, _ => .ends ST_EPOCH

/-- A null step, or a step refused at launch, ends; a null step's launch_time is the moment its dependency was met (R184). -/
def State.endUnlaunched (s : State) (t : StepRec) (status : Nat) : State :=
  let s1 := if t.program = 0 ∧ status = ST_OK then
      s.modStep t.queue t.index fun u => { u with launchTime := s.aon.timebase }
    else s
  s1.endStep t.queue t.index status

/-- The wake of a core, when it needs one. -/
def State.wakeCore (s : State) (n : Nat) : State := if (s.core n).power = .active then s else s.orderWake (.core n)

/-- The steps that await launch, in the order of R189. -/
def State.awaiting (s : State) : List StepRec := sortBy (fun t => s.serveKey (s.stepClass t) t.queue) (s.dq.steps.filter s.awaits)

/-- The cores that a step which awaits launch has a claim to: all that it needs once they are there, and those there are while victims
stop for it; a step that cannot be placed holds none (R189, R191, R192). -/
def State.claims (s : State) (taken : List Nat) (t : StepRec) : List Nat :=
  match s.launchWay t with
  | .place p _ _ =>
    if s.slicesFree t p && (s.planned t || (s.chooseCores taken t p).any (s.combinersFree p)) then s.pick taken t p else []
  | _ => []

/-- The cores that the steps ahead of one, in the order of R189, have a claim to. -/
def State.takenAhead (s : State) (q i : Nat) : List Nat :=
  (s.awaiting.takeWhile fun t => !(t.queue == q && t.index == i)).foldl (fun taken t => taken ++ s.claims taken t) []

/-- The Dispatcher meets one awaiting step: it ends, is held, or has wakes and pre-emptions ordered for it, the two together (R192). -/
def State.planStep (s : State) (q i : Nat) : State :=
  match s.step? q i with
  | none => s
  | some t =>
    if !s.awaits t then s
    else match s.launchWay t with
      | .ends st => s.endUnlaunched t st
      | .hold => (s.modStep q i fun u => { u with cond := .held }).mirrorOut q
      | .waits => s
      | .place p _ _ =>
        let s1 := s.modStep q i fun u => { u with cond := .awaiting }
        let s0 := match t.cond with
          | .held => s1.mirrorOut q
          | _ => s1
        let taken := s.takenAhead q i
        if !s.slicesFree t p then s0
        else match s.chooseCores taken t p with
          | some cores => forEach cores s0 State.wakeCore
          | none =>
            let s2 := s0.planPreempt taken t p
            if s2.planned t then forEach (s.pick taken t p) s2 State.wakeCore else s2

/-! ## The round (R189, R192) -/

/-- A descriptor read is begun, when R180 allows it: a cache miss starts a walk, a failed translation ends the step, and a ring in
host memory is read through the context's port. -/
def State.beginRead (s : State) (q : Nat) : State :=
  let x := s.queue q
  let held := s.dq.steps.length + (s.dq.queues.filter fun y => y.2.reading).length
  let drain := s.wt.models.any fun m => m.2.swapping && m.2.frontier == 0
  let room := if x.cls = 0 then decide (held < 4096)
    else decide (held + (if drain && !s.belowCut q then 512 else 0) < 3840)
  if x.slot.isNone || x.reading || decide (x.producer ≤ x.consumed) || decide (2 ≤ (s.readSteps q).length) || !room then s
  else
    let ctag := s.queueCtag q
    match s.stage dispUnit ctag x.descVa 128 1 (some (q, x.consumed)) 9 s.cx.active with
    | .stall s1 => s1
    | .fault k d ri a => s.descFault q x.consumed k d ri a
    | .ok s1 ps =>
      let s2 := s1.setQueue q fun y => { y with reading := true }
      if partsHost ps then s2.issueRead ((s.ctxPort (s.context ctag)).getD 0) ctag x.descVa ps (.descriptor q) else s2

/-- DISPATCH_ROUND (R180, R185, R189–R193): the scan of latches, the mapping of slots, the reads of descriptors and the plans for
launches, each in class order. -/
def execDispatchRound (s : State) : Out :=
  .next (
    if s.dispatching then
      let s1 := forEach (s.queueOrder fun _ x => x.latched) s State.mapQueue
      let s2 := forEach (s1.queueOrder fun _ x => x.slot.isSome) s1 State.beginRead
      forEach s2.awaiting s2 fun s t => s.planStep t.queue t.index
    else s)

/-- STEP_LAUNCH (R189, R192): every core chosen from those that no step ahead has a claim to is free and awake, so the step is launched on
all of them. -/
def execStepLaunch (queue stepIndex : Nat) (s : State) : Out :=
  .next (
    match s.step? queue stepIndex with
    | none => s
    | some t =>
      if !(s.dispatching && s.awaits t) then s
      else match s.launchWay t with
        | .ends st => s.endUnlaunched t st
        | .hold => (s.modStep queue stepIndex fun u => { u with cond := .held }).mirrorOut queue
        | .waits => s
        | .place p w a =>
          match s.chooseCores (s.takenAhead queue stepIndex) t p with
          | none => s
          | some cores =>
            if s.slicesFree t p && s.combinersFree p cores && cores.all (fun n => (s.core n).power == .active) then
              s.launch t p cores w a
            else s)

/-- Whether a step's pre-empting step has gone. -/
def State.preempterGone (s : State) (t : StepRec) : Bool :=
  match t.preemptedBy with
  | none => true
  | some k => match s.step? k.1 k.2 with
    | none => true
    | some u => u.ended.isSome

/-- VICTIM_RELAUNCH (R195): the pre-empting step has ended, so the step runs again on its cores. -/
def execVictimRelaunch (queue stepIndex : Nat) (s : State) : Out :=
  .next (
    match s.step? queue stepIndex with
    | none => s
    | some t =>
      let off : Bool := match t.cond with
        | .preempted => true
        | _ => false
      if s.dispatching && t.ended.isNone && off && s.preempterGone t && t.cores.all (fun n => (s.core n).step.isNone) then
        s.relaunch queue stepIndex
      else s)

/-- CORE_END_REPORT (R274, R197): every descriptor of the core has signalled, none is dropped and its gather buffer is empty, so its part ends; the
step ends with the last core. -/
def execCoreEndReport (core : Nat) (s : State) : Out :=
  .next (
    let c := s.core core
    if c.ended && !c.reported && c.outstanding == 0 && c.dropped.isEmpty && c.gather.isEmpty then
      match c.step with
      | none => s
      | some k =>
        let s1 := s.setCore core fun c => { c with reported := true }
        match s1.step? k.1 k.2 with
        | none => s1
        | some t =>
          let runs : Bool := match t.cond with
            | .running => true
            | .preempting => true
            | _ => false
          if runs && t.ended.isNone && t.cores.all (fun n => (s1.core n).step == some k && (s1.core n).reported) then
            s1.endStep k.1 k.2 ST_OK
          else s1
    else s)

end Sys2Proof.Machine
end

