-- ==== Sys2Proof/Machine/Bundle.lean ====
section
/-! DEFINITION. The bundle and its four slots: their encodings and the checks of R246, the issue of a bundle slot by slot, loops,
the fetch of bundles, and safe points (R244–R249, R253, R275, R279, R297, R298, R305). -/

namespace Sys2Proof.Machine

/-! ## Encodings (R245–R249, R297, R298, R305)

Slots are numbered in the order in which they take effect within a bundle: 0 memory, 1 matrix, 2 vector, 3 control (R244). -/

/-- First bit of a slot in the bundle. -/
def slotBase (slot : Nat) : Nat :=
  match slot with
  | 0 => 64
  | 1 => 192
  | 2 => 128
  | _ => 0

/-- A field of a slot: its lowest bit, its width and the values it may take. -/
structure Field where
  lo    : Nat
  width : Nat
  low   : Nat
  high  : Nat

/-- A field that may take every value. -/
def anyField (lo width : Nat) : Field := ⟨lo, width, 0, 2 ^ width - 1⟩

/-- A register field. -/
def regField (lo : Nat) : Field := anyField lo 5

/-- Fields of a memory-slot operation. -/
def memLayout (op : Nat) : Option (List Field) :=
  match op with
  | 1 => some [regField 49, regField 44, ⟨42, 2, 0, 2⟩, anyField 40 2, anyField 39 1, anyField 0 39]
  | 2 => some [regField 49, regField 44, ⟨42, 2, 0, 2⟩, anyField 40 2, anyField 0 39]
  | 3 => some [regField 49, regField 44, ⟨42, 2, 0, 2⟩, anyField 0 42]
  | 4 => some [regField 49, regField 44, ⟨42, 2, 0, 2⟩, anyField 0 42]
  | 5 => some [regField 49, regField 44, ⟨42, 2, 0, 2⟩, ⟨26, 16, 1, 65535⟩, anyField 0 26]
  | 6 => some [regField 49, regField 44, anyField 43 1, ⟨27, 16, 64, 65472⟩, ⟨11, 16, 64, 65472⟩]
  | 7 => some []
  | 8 => some []
  | 9 => some [regField 44, ⟨42, 2, 2, 2⟩, anyField 0 42]
  | _ => none

/-- Fields of a control-slot operation. -/
def ctlLayout (op : Nat) : Option (List Field) :=
  match op with
  | 0x01 => some [⟨49, 5, 0, 12⟩, regField 44, regField 39, regField 34, anyField 33 1, anyField 0 32]
  | 0x02 => some [regField 49, anyField 47 2, anyField 46 1, anyField 0 16]
  | 0x03 => some [anyField 51 3, ⟨48, 3, 0, 5⟩, regField 43, regField 38, anyField 37 1, anyField 0 32]
  | 0x04 => some [regField 49, regField 44, anyField 43 1, anyField 0 32]
  | 0x05 => some [anyField 52 2, regField 47, anyField 46 1, ⟨16, 16, 1, 65535⟩, anyField 0 16]
  | 0x06 => some [anyField 50 4, anyField 49 1, ⟨47, 2, 0, 2⟩, regField 42, ⟨0, 16, 1, 65535⟩]
  | 0x07 => some [anyField 50 4, ⟨48, 2, 0, 2⟩, regField 43, anyField 42 1, anyField 0 32]
  | 0x08 => some [anyField 50 4, regField 43, anyField 42 1, anyField 0 32]
  | 0x09 => some [anyField 50 4]
  | 0x0A => some [⟨50, 4, 1, 6⟩, anyField 46 4, regField 41, anyField 40 1]
  | 0x0B => some [anyField 0 16]
  | 0x0C => some []
  | 0x0D => some [regField 49, ⟨45, 4, 0, 10⟩, anyField 43 2]
  | _ => none

/-- Fields of a matrix-slot operation. -/
def matLayout (op : Nat) : Option (List Field) :=
  match op with
  | 1 => some [regField 49, regField 44, ⟨41, 3, 0, 4⟩, anyField 40 1, anyField 39 1, ⟨37, 2, 0, 2⟩, ⟨25, 12, 1, 4095⟩,
      ⟨18, 7, 1, 64⟩, ⟨8, 10, 1, 512⟩]
  | 2 => some [regField 49, regField 44, ⟨41, 3, 0, 4⟩, anyField 40 1, anyField 39 1, anyField 38 1, ⟨26, 12, 1, 4095⟩,
      regField 21, ⟨10, 11, 1, 1024⟩]
  | 3 => some [regField 49, regField 44, ⟨41, 3, 0, 5⟩, anyField 40 1, ⟨28, 12, 1, 4095⟩, ⟨17, 11, 1, 1024⟩]
  | 4 => some [regField 49, ⟨38, 11, 1, 1024⟩]
  | _ => none

/-- The common fields of the vector slot, with the values of fn. -/
def vecCommon (high : Nat) : List Field := [regField 49, regField 44, regField 39, regField 34, ⟨30, 4, 0, high⟩]

/-- Fields of a vector-slot operation. -/
def vecLayout (op : Nat) : Option (List Field) :=
  match op with
  | 1 => some (vecCommon 7)
  | 2 => some (vecCommon 3)
  | 3 => some (vecCommon 4)
  | 4 => some (vecCommon 15)
  | 5 => some (vecCommon 2)
  | 6 => some (vecCommon 3 ++ [anyField 29 1])
  | 7 => some (vecCommon 6)
  | 8 => some (vecCommon 2 ++ [regField 25])
  | 9 => some [regField 49, anyField 0 32]
  | _ => none

/-- Fields of an operation of a slot; none for an undefined opcode. Opcode 0 is NOP. -/
def slotLayout (slot op : Nat) : Option (List Field) :=
  if op = 0 then some []
  else match slot with
    | 0 => memLayout op
    | 1 => matLayout op
    | 2 => vecLayout op
    | _ => ctlLayout op

/-- Conditions that join fields: LDT pitches, ENQ instances, the cases of R298, VCVTMX formats. -/
def slotJoined (slot op w : Nat) : Bool :=
  if slot = 0 ∧ op = 6 then decide (bits w 27 16 % 64 = 0 ∧ bits w 11 16 % 64 = 0)
  else if slot = 3 ∧ op = 0x0A then decide (bits w 46 4 < engineCount (bits w 50 4))
  else if slot = 1 ∧ op = 1 then
    let fmt := bits w 41 3
    let kc := bits w 37 2
    !(bit w 40 && decide (fmt < 2)) && !(bit w 39 && fmt == 4) &&
      decide (kc ≤ (if fmt < 2 then 0 else if fmt < 4 then 1 else 2)) && decide (bits w 8 10 ≤ 128 * 2 ^ kc)
  else if slot = 1 ∧ op = 2 then !(bit w 40 && decide (bits w 41 3 < 2))
  else if slot = 1 ∧ op = 3 then decide (bits w 41 3 < 2 ∨ bits w 41 3 = 5)
  else if slot = 2 ∧ op = 7 then bits w 30 2 != 3
  else true

/-- Whether a slot's word keeps R246: a defined opcode, no RSV bit set, every field in its range. -/
def slotValid (slot w : Nat) : Bool :=
  match slotLayout slot (bits w 58 6) with
  | none => false
  | some fs =>
    fs.all (fun f => decide (f.low ≤ bits w f.lo f.width ∧ bits w f.lo f.width ≤ f.high)) &&
    (List.range 54).all (fun i => !bit w i || fs.any fun f => decide (f.lo ≤ i ∧ i < f.lo + f.width)) &&
    slotJoined slot (bits w 58 6) w

/-- The word of a slot of a bundle. -/
def slotWord (b slot : Nat) : Nat := bits b (slotBase slot) 64

/-- Whether a bundle keeps R246. -/
def bundleValid (b : Nat) : Bool := (List.range 4).all fun k => slotValid k (slotWord b k)

/-- The opcode of a slot of a bundle; 0 in a bundle that breaks R246, which executes as NOP. -/
def slotOpcode (b slot : Nat) : Nat := if bundleValid b then bits (slotWord b slot) 58 6 else 0

/-- The slots of a bundle that hold an operation other than NOP, in their order. -/
def liveSlots (b : Nat) : List Nat := (List.range 4).filter fun k => slotOpcode b k != 0

/-- A slot operation as encoded: slot, opcode, and its fields by lowest bit, width and value; a signed field's value is signed. -/
structure SlotKey where
  slot   : Nat
  op     : Nat
  fields : List (Nat × Nat × Int)
  signed : List (Nat × Nat × Int)

/-- Whether a slot's word encodes an operation. -/
def SlotKey.fits (k : SlotKey) (c : SlotCtx) (w : Nat) : Bool :=
  bits w 58 6 == k.op && bits w 55 3 == c.pred && bit w 54 == c.pneg &&
  k.fields.all (fun f => (bits w f.1 f.2.1 : Int) == f.2.2) &&
  k.signed.all (fun f => toSigned f.2.1 (bits w f.1 f.2.1) == f.2.2)

/-- The word that encodes an operation. -/
def SlotKey.word (k : SlotKey) (c : SlotCtx) : Nat :=
  k.op * 2 ^ 58 + c.pred * 2 ^ 55 + flag c.pneg 54
    + ((k.fields ++ k.signed).map fun f => ofSigned f.2.1 f.2.2 * 2 ^ f.1).sum

/-! ## Registers (R246) -/

/-- x register; x0 reads zero. -/
def CoreRegs.x? (r : CoreRegs) (i : Nat) : Nat := if i = 0 then 0 else (tabGet 0 r.x i).toNat

/-- Predicate register; p0 reads 1. -/
def CoreRegs.p? (r : CoreRegs) (i : Nat) : Bool := if i = 0 then true else tabGet false r.p i

/-- A vector register that nothing has written: 64 zero lanes. -/
def zeroVec : List Lane := List.replicate 64 0

/-- Vector register. -/
def CoreRegs.v? (r : CoreRegs) (i : Nat) : List Lane := tabGet zeroVec r.v (i % 32)

/-- x register written; a write to x0 is discarded. -/
def State.setX (s : State) (n i v : Nat) : State :=
  if i = 0 then s else s.setCore n fun c => { c with regs := { c.regs with x := tabSet c.regs.x i (BitVec.ofNat 64 v) } }

/-- Predicate register written; a write to p0 is discarded. -/
def State.setP (s : State) (n i : Nat) (v : Bool) : State :=
  if i = 0 then s else s.setCore n fun c => { c with regs := { c.regs with p := tabSet c.regs.p i v } }

/-- Vector register written. -/
def State.setV (s : State) (n i : Nat) (v : List Lane) : State :=
  s.setCore n fun c => { c with regs := { c.regs with v := tabSet c.regs.v (i % 32) v } }

/-- The registers that the slots of the bundle in issue read (R244). -/
def CoreSt.src (c : CoreSt) : CoreRegs := c.issue.getD c.regs

/-! ## The next bundle (R249) -/

/-- The active loop that a bundle ends: the innermost, which began last. -/
def endingLoop (loops : Tab LoopSt) (pc : Nat) : Option (Nat × LoopSt) :=
  match sortBy (fun l => l.2.start) (loops.filter fun l => l.2.stop == pc) with
  | [] => none
  | l :: r => (l :: r).getLast?

/-- The bundle after one that no branch leaves, and the loops that go on; as many loops as there are counters may end together. -/
def nextBundle : Nat → Tab LoopSt → Nat → Nat × Tab LoopSt
  | 0, loops, pc => (pc + 1, loops)
  | fuel + 1, loops, pc =>
    match endingLoop loops pc with
    | none => (pc + 1, loops)
    | some (k, l) =>
      if 1 < l.left then (l.start, tabSet loops k { l with left := l.left - 1 })
      else nextBundle fuel (tabDel loops k) pc

/-- A bundle is done: the sequencer goes to the branch target, round a loop, or on. -/
def CoreSt.endBundle (c : CoreSt) : CoreSt :=
  let nx := match c.branch with
    | some t => (t, c.loops)
    | none => nextBundle 4 c.loops c.pc
  { c with pc := nx.1, loops := nx.2, branch := none, slots := 0, issue := none, bundles := c.bundles + 1
           recent := c.recent.filter fun e => decide (c.bundles < e.1 + 16) }

/-! ## Fetch (R246, R279) -/

/-- The bundle of a core's program counter, when its fetch buffer holds it. -/
def CoreSt.here (c : CoreSt) : Option Nat := tabGet? c.fetchBuf c.pc

/-- The core writes one record per step of a fetched bundle that breaks R246. -/
def State.noteInvalid (s : State) (n : Nat) : State :=
  if (s.core n).recInvalid then s
  else (s.cometF7 4 n [(s.core n).pc]).setCore n fun c => { c with recInvalid := true }

/-- Bundles without an operation issue on their own. -/
def State.skipNops (s : State) (n : Nat) : Nat → State
  | 0 => s
  | fuel + 1 =>
    match (s.core n).here with
    | none => s
    | some b =>
      if (liveSlots b).isEmpty then
        let s1 := if bundleValid b then s else s.noteInvalid n
        (s1.setCore n CoreSt.endBundle).skipNops n fuel
      else s

/-- Bundles that a fetch buffer of 64 KiB holds. -/
def fetchDepth : Nat := 2048

/-- A bundle enters a core's fetch buffer, which the lowest-numbered bundle leaves when it is full (log entry 12). -/
def CoreSt.takeFetch (c : CoreSt) (pc b : Nat) : CoreSt :=
  let old := if c.fetchBuf.length < fetchDepth then c.fetchBuf else c.fetchBuf.drop 1
  { c with fetchBuf := tabSet old pc b, fetchMiss := if c.fetchMiss = some pc then none else c.fetchMiss }

/-! ## Issue (R244) -/

/-- Whether a core may issue bundles: its step runs, its allowance of matrix cycles is not spent (R309), no save of it waits, and the
module has not left SERVICE and DRAIN. A core that is GATED wakes by hardware alone, and its die with it, when it has a bundle to issue
(R30, R71; log entry 106). -/
def State.mayIssue (s : State) (n : Nat) : Bool :=
  let c := s.core n
  match s.coreStep? n with
  | none => false
  | some t =>
    let runs : Bool := match t.cond with
      | .running => true
      | .preempting => true
      | .suspending => true
      | _ => false
    runs && t.ended.isNone && !c.ended && !c.halted && !c.saving && (c.power == .active || c.power == .gated) && !(s.die (n / 64)).resetting &&
      decide (c.spent < c.allowance) &&
      (s.pp.state == .service || (s.pp.state == .drain && !c.waiting))

/-- What a slot operation came to: done, waiting so that the command may come again, or no longer the core's to finish. -/
inductive SlotRes where
  | done (s : State)
  | stall (s : State)
  | gone (s : State)

/-- A sync object of a core, free where it is not listed. -/
def State.syncObj (s : State) (n o : Nat) : SyncObj := tabGet freshSync (s.core n).sync o

/-- The sync object that a handle of a core's step names (R260). -/
def State.objOf (s : State) (n handle : Nat) : Nat := 16 * ((s.coreStep? n).map (·.bank)).getD 0 + handle

/-- "Reached": the count minus the operand, as a signed 32-bit value, is zero or more (R262). -/
def reached (count operand : Nat) : Bool := decide ((count + 2 ^ 32 - operand % 2 ^ 32) % 2 ^ 32 < 2 ^ 31)

/-- Whether a WAIT of a core is satisfied (R262). -/
def State.waitMet (s : State) (n handle mode operand : Nat) : Bool :=
  let o := s.syncObj n (s.objOf n handle)
  if mode = 2 then o.sense != o.recSense else reached o.count operand

/-- Whether a predicate lets a slot execute (R246). -/
def CoreRegs.goes (r : CoreRegs) (pred : Nat) (pneg : Bool) : Bool := r.p? pred != pneg

/-- Whether the matrix engine cannot yet take a bundle's MLDW or MMUL: a tile that no swap has taken, or a swap without a tile (R244, R299,
R300). -/
def State.matrixHolds (s : State) (n b : Nat) : Bool :=
  let w := slotWord b 1
  (s.core n).regs.goes (bits w 55 3) (bit w 54) &&
    ((slotOpcode b 1 == 1 && (s.core n).shadow.isSome) || (slotOpcode b 1 == 2 && bit w 39 && (s.core n).shadow.isNone))

/-- Whether the whole bundle stalls at its issue, and whether it does so at a WAIT: one unsatisfied, an ENQ without a credit, or a matrix
operation that the engine cannot yet take (R244). -/
def State.holdsBundle (s : State) (n b : Nat) : Option Bool :=
  let w := slotWord b 3
  let r := (s.core n).regs
  if s.matrixHolds n b then some false
  else if !r.goes (bits w 55 3) (bit w 54) then none
  else if slotOpcode b 3 = 0x07 then
    if s.waitMet n (bits w 50 4) (bits w 48 2) (if bit w 42 then bits w 0 32 else r.x? (bits w 43 5)) then none else some true
  else if slotOpcode b 3 = 0x0A then
    if tabGet 0 (s.core n).credits (creditKey (bits w 50 4) (bits w 46 4)) < 4 then none else some false
  else none

/-- A slot has executed; with the last slot of the bundle, the bundle is done. -/
def State.retireSlot (s : State) (n slot : Nat) (more : Bool) : State :=
  if more then s.setCore n fun c => { c with slots := setBit c.slots slot } else s.setCore n CoreSt.endBundle

/-- Whether a slot is the next of a bundle's that has to execute. -/
def nextSlot (b done slot : Nat) : Bool := ((liveSlots b).filter fun k => !bit done k).head? == some slot

/-- Whether a bundle has a slot after one. -/
def moreSlots (b slot : Nat) : Bool := (liveSlots b).any fun k => decide (slot < k)

/-- One slot operation of a core (R244): it executes when the bundle at the program counter holds it in its turn; its effect reads
the registers as at the bundle's issue. A missing bundle is asked for. -/
def State.slotOp (s : State) (c : SlotCtx) (k : SlotKey) (eff : State → SlotRes) : State :=
  let n := c.core
  if !s.mayIssue n then s
  else
    let s1 := s.skipNops n fetchDepth
    match (s1.core n).here with
    | none => s1.setCore n fun x => { x with fetchMiss := some x.pc }
    | some b =>
      let x := s1.core n
      if !(nextSlot b x.slots k.slot && k.fits c (slotWord b k.slot) && moreSlots b k.slot == c.more) then s1
      else
        let held := if x.issue.isNone then s1.holdsBundle n b else none
        match held with
        | some w => s1.setCore n fun y => { y with waiting := w }
        | none =>
          let s2 := s1.setCore n fun y => { y with issue := some y.src, waiting := false, power := .active, lastIssue := s.aon.clock }
          if (s1.die (n / 64)).power ≠ .active then s1.wakeDie (n / 64)
          else if x.src.goes c.pred c.pneg then
            match eff s2 with
            | .done s3 => s3.retireSlot n k.slot c.more
            | .stall s3 => s3
            | .gone s3 => s3
          else s2.retireSlot n k.slot c.more

/-- The registers a slot operation reads. -/
def State.srcOf (s : State) (n : Nat) : CoreRegs := (s.core n).src

/-! ## FETCH_COMPLETE (R246, R279) -/

/-- The cores that share a core's fetch: those of its step, die and broadcast group. -/
def State.fetchers (s : State) (n : Nat) : List Nat :=
  let c := s.core n
  ((List.range 64).map (n / 64 * 64 + ·)).filter fun m => (s.core m).step == c.step && (s.core m).group == c.group

/-- A bundle that a core misses reaches the fetch buffers of its group, or its read fails: a fault suspends the step, a poisoned
unit ends it. -/
def State.fetchBundle (s : State) (n pc : Nat) (t : StepRec) : State :=
  let va := ((s.programOf t).map (·.codeVa)).getD 0 + 32 * pc
  let k := (t.queue, t.index)
  match s.readVa (quadUnit n) t.ctag va 32 3 (.fetch n pc) (some k) 1 n with
  | .stall s1 => s1
  | .fault kind d ri a => (s.dropReads (.fetch n pc)).failAccess k.1 k.2 kind 3 d ri a 1 n
  | .poison pa => (s.cometF3 4 n n pa k).endStep k.1 k.2 ST_ECC
  | .bytes s1 b =>
    forEach (s1.fetchers n) (s1.dropReads (.fetch n pc)) fun s m => s.setCore m fun c => c.takeFetch pc (leNat b)

/-- FETCH_COMPLETE: the missed fetch of a core returns. -/
def execFetchComplete (core : Nat) (s : State) : Out :=
  .next (
    match (s.core core).fetchMiss, s.coreStep? core with
    | some pc, some t => if s.mayIssue core then s.fetchBundle core pc t else s
    | _, _ => s)

end Sys2Proof.Machine
end

