-- ==== Sys2Proof/Machine/Wire.lean ====
section
/-! DEFINITION. The bytes of a command's payload and the command that bytes spell (R144, R146, R168), with checks 1 to 4 of
R149. -/

namespace Sys2Proof.Machine

/-- The bytes of a PASID field. -/
def pasidBytes (p : Option Nat) : List Byte := leBytes 4 ((p.map (2 ^ 31 + ·)).getD 0)

/-- The bytes of a host buffer reference. -/
def hbufBytes (b : Hbuf) : List Byte := leBytes 8 b.addr ++ leBytes 4 b.length ++ pasidBytes b.pasid

/-- The PASID that a field spells. -/
def pasidOf (v : Nat) : Option Nat := if bit v 31 then some (v % 2 ^ 20) else none

/-- The host buffer reference at an offset. -/
def hbufAt (p : List Byte) (o : Nat) : Hbuf :=
  { addr := fieldAt p o 8, length := fieldAt p (o + 8) 4, pasid := pasidOf (fieldAt p (o + 12) 4) }

/-- Zero bytes. -/
def zeros (n : Nat) : List Byte := List.replicate n 0

/-- The payload of a command (R168). -/
def cmdPayload (c : Command) : List Byte :=
  match c with
  | .capsQuery f => leBytes 2 f ++ zeros 6
  | .settingRead i => leBytes 2 i ++ zeros 6
  | .settingWrite i v => leBytes 2 i ++ zeros 6 ++ leBytes 8 v
  | .sitekeyEnrol a k g => leBytes 1 a ++ zeros 7 ++ k ++ g
  | .sitelayerWrite b => hbufBytes b
  | .moduleSuspend => []
  | .moduleResume => []
  | .moduleStop => []
  | .moduleStart => []
  | .moduleReset k => leBytes 1 k ++ zeros 7
  | .dieReset d => leBytes 1 d ++ zeros 7
  | .memGrant f b l => leBytes 1 f ++ zeros 7 ++ leBytes 8 b ++ leBytes 8 l
  | .memRevoke f b l => leBytes 1 f ++ zeros 7 ++ leBytes 8 b ++ leBytes 8 l
  | .ctxCreate h k p b => leBytes 1 h ++ leBytes 1 k ++ zeros 2 ++ pasidBytes p ++ leBytes 8 b
  | .ctxDestroy t => leBytes 2 t ++ zeros 6
  | .rangeMap t i es => leBytes 2 t ++ leBytes 2 es.length ++ leBytes 4 i ++ es.flatMap rangeBytes
  | .rangeInvalidateAll t => leBytes 2 t ++ zeros 6
  | .keySlotSet t k => leBytes 2 t ++ zeros 6 ++ k
  | .stepResume t q i => leBytes 2 t ++ leBytes 2 q ++ zeros 4 ++ leBytes 8 i
  | .stepAbort t q i => leBytes 2 t ++ leBytes 2 q ++ zeros 4 ++ leBytes 8 i
  | .qgroupAssign g t f v => leBytes 2 g ++ leBytes 2 t ++ leBytes 1 f ++ leBytes 1 v ++ zeros 2
  | .qgroupRelease g => leBytes 2 g ++ zeros 6
  | .queueConfigure q k l r => leBytes 2 q ++ leBytes 1 k ++ leBytes 1 l ++ zeros 4 ++ leBytes 8 r
  | .programLoad t v l => leBytes 2 t ++ zeros 6 ++ leBytes 8 v ++ leBytes 8 l
  | .programUnload t p => leBytes 2 t ++ zeros 2 ++ leBytes 4 p
  | .poolCreate p g t b l => leBytes 1 p ++ leBytes 1 g ++ leBytes 1 t ++ zeros 5 ++ leBytes 8 b ++ leBytes 8 l
  | .poolDestroy p => leBytes 1 p ++ zeros 7
  | .kvOffer a r => leBytes 2 r.ctag ++ leBytes 2 r.toCtag ++ leBytes 1 a ++ leBytes 1 r.pool ++ zeros 2
      ++ leBytes 8 r.sequence ++ leBytes 4 r.offer ++ zeros 4
  | .kvAccept t o n => leBytes 2 t ++ zeros 2 ++ leBytes 4 o ++ leBytes 8 n
  | .kvHint t p h n => leBytes 2 t ++ leBytes 1 p ++ leBytes 1 h ++ zeros 4 ++ leBytes 8 n
  | .epochBegin m e b => leBytes 1 m ++ zeros 3 ++ leBytes 4 e ++ hbufBytes b
  | .epochCommit m e => leBytes 1 m ++ zeros 3 ++ leBytes 4 e
  | .epochAbort m e => leBytes 1 m ++ zeros 3 ++ leBytes 4 e
  | .adapterLoad t a r e v l => leBytes 2 t ++ leBytes 2 a ++ leBytes 2 r ++ zeros 2 ++ leBytes 4 e ++ zeros 4
      ++ leBytes 8 v ++ leBytes 8 l
  | .adapterUnload t a => leBytes 2 t ++ leBytes 2 a ++ zeros 4
  | .placementApply m b => leBytes 1 m ++ zeros 7 ++ hbufBytes b
  | .planLoad b => hbufBytes b
  | .portDefine p m => leBytes 1 p ++ zeros 3 ++ leBytes 4 m
  | .portRemove p => leBytes 1 p ++ zeros 7
  | .podStateSet p => leBytes 1 p ++ zeros 7
  | .capSet c => leBytes 2 c ++ zeros 6
  | .matchedSet m => leBytes 1 m ++ zeros 7
  | .logRead f n => leBytes 8 f ++ leBytes 1 n ++ zeros 7
  | .dumpRegionSet b => hbufBytes b
  | .fwStage b => hbufBytes b
  | .fwActivate => []

/-- The command of an opcode with the fields that a payload spells; none for an opcode the catalogue does not list. -/
def cmdFields (op : Nat) (p : List Byte) : Option Command :=
  let f := fieldAt p
  match op with
  | 0x0001 => some (.capsQuery (f 0 2))
  | 0x0002 => some (.settingRead (f 0 2))
  | 0x0003 => some (.settingWrite (f 0 2) (f 8 8))
  | 0x0004 => some (.sitekeyEnrol (f 0 1) (bytesAt p 8 96) (bytesAt p 104 96))
  | 0x0005 => some (.sitelayerWrite (hbufAt p 0))
  | 0x0101 => some .moduleSuspend
  | 0x0102 => some .moduleResume
  | 0x0103 => some .moduleStop
  | 0x0104 => some .moduleStart
  | 0x0105 => some (.moduleReset (f 0 1))
  | 0x0106 => some (.dieReset (f 0 1))
  | 0x0201 => some (.memGrant (f 0 1) (f 8 8) (f 16 8))
  | 0x0202 => some (.memRevoke (f 0 1) (f 8 8) (f 16 8))
  | 0x0203 => some (.ctxCreate (f 0 1) (f 1 1) (pasidOf (f 4 4)) (f 8 8))
  | 0x0204 => some (.ctxDestroy (f 0 2))
  | 0x0205 => some (.rangeMap (f 0 2) (f 4 4) ((List.range (f 2 2)).map fun i => rangeOf (bytesAt p (8 + 32 * i) 32)))
  | 0x0206 => some (.rangeInvalidateAll (f 0 2))
  | 0x0207 => some (.keySlotSet (f 0 2) (bytesAt p 8 64))
  | 0x0208 => some (.stepResume (f 0 2) (f 2 2) (f 8 8))
  | 0x0209 => some (.stepAbort (f 0 2) (f 2 2) (f 8 8))
  | 0x0301 => some (.qgroupAssign (f 0 2) (f 2 2) (f 4 1) (f 5 1))
  | 0x0302 => some (.qgroupRelease (f 0 2))
  | 0x0303 => some (.queueConfigure (f 0 2) (f 2 1) (f 3 1) (f 8 8))
  | 0x0304 => some (.programLoad (f 0 2) (f 8 8) (f 16 8))
  | 0x0305 => some (.programUnload (f 0 2) (f 4 4))
  | 0x0401 => some (.poolCreate (f 0 1) (f 1 1) (f 2 1) (f 8 8) (f 16 8))
  | 0x0402 => some (.poolDestroy (f 0 1))
  | 0x0403 => some (.kvOffer (f 4 1) ⟨f 0 2, f 2 2, f 5 1, f 8 8, f 16 4⟩)
  | 0x0404 => some (.kvAccept (f 0 2) (f 4 4) (f 8 8))
  | 0x0405 => some (.kvHint (f 0 2) (f 2 1) (f 3 1) (f 8 8))
  | 0x0501 => some (.epochBegin (f 0 1) (f 4 4) (hbufAt p 8))
  | 0x0502 => some (.epochCommit (f 0 1) (f 4 4))
  | 0x0503 => some (.epochAbort (f 0 1) (f 4 4))
  | 0x0504 => some (.adapterLoad (f 0 2) (f 2 2) (f 4 2) (f 8 4) (f 16 8) (f 24 8))
  | 0x0505 => some (.adapterUnload (f 0 2) (f 2 2))
  | 0x0506 => some (.placementApply (f 0 1) (hbufAt p 8))
  | 0x0601 => some (.planLoad (hbufAt p 0))
  | 0x0602 => some (.portDefine (f 0 1) (f 4 4))
  | 0x0603 => some (.portRemove (f 0 1))
  | 0x0604 => some (.podStateSet (f 0 1))
  | 0x0701 => some (.capSet (f 0 2))
  | 0x0702 => some (.matchedSet (f 0 1))
  | 0x0801 => some (.logRead (f 0 8) (f 8 1))
  | 0x0802 => some (.dumpRegionSet (hbufAt p 0))
  | 0x0803 => some (.fwStage (hbufAt p 0))
  | 0x0804 => some .fwActivate
  | _ => none

/-- Where a payload holds a PASID, whose low 20 bits mean nothing while its valid bit is clear. -/
def pasidPlace (op : Nat) : Option Nat :=
  match op with
  | 0x0005 => some 12
  | 0x0203 => some 4
  | 0x0501 => some 20
  | 0x0506 => some 20
  | 0x0601 => some 12
  | 0x0802 => some 12
  | 0x0803 => some 12
  | _ => none

/-- Whether a payload names host address 0 as a dump region, for which a PASID field must be 0 whole (R553). -/
def dumpZero (op : Nat) (p : List Byte) : Bool := op == 0x0802 && fieldAt p 0 8 == 0

/-- A payload with the low bits of an invalid PASID cleared; where R553 asks for a field of 0, low bits count as a PASID. -/
def plainPayload (op : Nat) (p : List Byte) : List Byte :=
  match pasidPlace op with
  | none => p
  | some o =>
    let v := fieldAt p o 4
    if bit v 31 ∨ p.length < o + 4 then p
    else if dumpZero op p ∧ 0 < v % 2 ^ 20 then putAt p o (leBytes 4 (v + 2 ^ 31))
    else putAt p o (leBytes 4 (v / 2 ^ 20 * 2 ^ 20))

/-- A message read from a channel, with its sender: refused at checks 1 to 4 of R149, or a header and a command. Rsv bytes
are zero and the length is the command's exactly when the payload is the one its fields make. -/
def parseMessage (x : Sender) (minorM : Nat) (msg : List Byte) : Sum (CmdHdr × Nat × Nat) (CmdHdr × Command) :=
  let op := fieldAt msg 0 2
  let len := fieldAt msg 6 2
  let h : CmdHdr := { sender := x, tag := fieldAt msg 8 4, major := fieldAt msg 4 1, minor := fieldAt msg 5 1, target := fieldAt msg 14 1 }
  if fieldAt msg 2 1 ≠ 1 ∨ fieldAt msg 3 1 ≠ 0 ∨ fieldAt msg 12 2 ≠ 0 ∨ fieldAt msg 15 1 ≠ 0 ∨ 240 < len ∨
      (0x40 ≤ h.target ∧ h.target ≠ 0xFF) then .inl (h, op, ST_MALFORMED)
  else if h.major ≠ 1 ∨ minorM < h.minor then .inl (h, op, ST_VERSION)
  else
    let raw := bytesAt msg 16 len
    let p := plainPayload op raw
    match cmdFields op p with
    | none => .inl (h, op, ST_UNKNOWN)
    | some c => if cmdMalformed c ∨ cmdPayload c ≠ p then .inl (h, op, ST_MALFORMED) else .inr (h, c)

/-- The message of a command. -/
def cmdMessage (h : CmdHdr) (c : Command) : List Byte :=
  cmdHeader h (cmdOpcode c) (cmdPayload c).length ++ cmdPayload c

end Sys2Proof.Machine
end

