-- ==== Sys2Proof/Machine/CmdRun.lean ====
section
/-! DEFINITION. How a Phoger command is taken, checked, journalled and answered (R74, R147–R159), by the Supervisor and by the
management endpoint (R148, R546). -/

namespace Sys2Proof.Machine

/-- Whether a command carries a host buffer reference (R146). -/
def cmdHbuf (c : Command) : Bool :=
  match c with
  | .sitelayerWrite _ => true
  | .epochBegin .. => true
  | .placementApply .. => true
  | .planLoad _ => true
  | .dumpRegionSet _ => true
  | .fwStage _ => true
  | _ => false

/-- Checks 1 to 6 of R149: the status of the first that fails. -/
def State.checkSender (s : State) (h : CmdHdr) (c : Command) : Option Nat :=
  let self := s.isSelf h.target
  if 0x40 ≤ h.target ∧ h.target ≠ 0xFF then some ST_MALFORMED
  else if h.major ≠ 1 ∨ s.cfg.minor < h.minor then some ST_VERSION
  else if cmdMalformed c then some ST_MALFORMED
  else if !cmdSender c h.sender || (isBmc h.sender && cmdHbuf c) || (!self && !s.isHead) || (cmdPod c && !(self && s.isHead)) then
    some ST_DENIED
  else if !self && !s.memberUp h.target then some ST_ABSENT
  else none

/-- Check 7 of R149: the module and pod states in which a command is accepted (R74, R167). -/
def State.checkState (s : State) (c : Command) : Bool :=
  let module : Bool := match c with
    | .moduleSuspend => s.pp.state == .service
    | .moduleResume => s.pp.state == .retain && s.pp.hold
    | .moduleStop => s.pp.state == .service || s.pp.state == .retain
    | .moduleStart => false
    | .moduleReset k =>
      k == 2 || s.pp.state == .service ||
        (s.pp.state == .retain && s.pp.hold && s.pp.mainGood && !s.pp.thermalHold)
    | .dieReset _ => s.pp.state == .service
    | c => cmdAny c || s.pp.state == .service
  module && (cmdPodStates c).contains s.fab.podState

/-- The function number that the relay carries for a sender. -/
def relayFn (x : Sender) : Nat := (senderFn x).getD bmcRelay

/-- A command is journalled and refused. -/
def State.refuseCmd (s : State) (h : CmdHdr) (c : Command) (status : Nat) : State := s.refuseAs h (cmdOpcode c) (some c) status

/-- A command is journalled and done. -/
def State.finishCmd (s : State) (h : CmdHdr) (c : Command) (payload : List Byte) : State :=
  (s.journal h (cmdOpcode c) (some c) true ST_OK payload).answer h (cmdOpcode c) 2 ST_OK payload

/-- The head forwards a command to the member it names, whose reply stands for its own (R157); a deferred one of a sender with 16
outstanding is refused here (R154). -/
def State.forwardCmd (s : State) (h : CmdHdr) (c : Command) : State :=
  if deferredOps.contains (cmdOpcode c) ∧ 16 ≤ s.deferredOf h.sender then s.refuseCmd h c ST_BUSY
  else
    let f := relayFn h.sender
    let s1 := (s.journal h (cmdOpcode c) (some c) true ST_ACCEPTED []).send h.target 3 (.command f (cmdMessage h c))
    { s1 with fab := { s1.fab with forwardedCmds := s1.fab.forwardedCmds ++ [⟨h.target, f, h, cmdOpcode c, false⟩] } }

/-- The host buffer that a command names (R146). -/
def cmdBuffer (c : Command) : Option Hbuf :=
  match c with
  | .sitelayerWrite b => some b
  | .placementApply _ b => some b
  | .planLoad b => some b
  | .fwStage b => some b
  | _ => none

/-- A read of a host buffer for a function leaves through port A while it can carry it, and port B otherwise (R146). -/
def State.askBuffer (s : State) (f : Nat) (b : Hbuf) : State :=
  match s.fnPort f with
  | some p => s.emit (.hostRead p f b.pasid b.addr b.length 0)
  | none => s

/-- What a read of a host buffer for a function brought: with no port that could carry it the read failed (R146, R571, cause 6). -/
def State.bufferData (s : State) (f : Nat) (d : HostData) : HostData := if (s.fnPort f).isNone then .failed 6 0 else d

/-- The read of the host buffer that a command names is asked for (R146). -/
def State.askFor (s : State) (h : CmdHdr) (c : Command) : State :=
  match cmdBuffer c, senderFn h.sender with
  | some b, some f => s.askBuffer f b
  | _, _ => s

/-- What checks 8 to 10 and the effect come to, from the state before them. -/
def State.settleCmd (s : State) (h : CmdHdr) (c : Command) (r : CmdRes) : State :=
  match r with
  | .refuse st s' => s'.refuseCmd h c st
  | .ok p s' => s'.finishCmd h c p
  | .accept s' =>
    if 16 ≤ s.deferredOf h.sender then s.refuseCmd h c ST_BUSY
    else
      let s1 := { s' with cx := { s'.cx with deferred := s'.cx.deferred ++ [Deferred.mk s'.cx.nextId h c] } }
      ((s1.journal h (cmdOpcode c) (some c) true ST_ACCEPTED []).answer h (cmdOpcode c) 2 ST_ACCEPTED []).askFor h c
  | .wait s' =>
    { s' with cx := { s'.cx with waiting := s'.cx.waiting ++ [Deferred.mk s'.cx.nextId h c] } }.journal h (cmdOpcode c) (some c) false ST_OK []
  | .done s' => s'

/-- A command is taken while an earlier one of its channel waits to commit: it is journalled, and waits for it (R115, R151, R222). -/
def State.holdCmd (s : State) (h : CmdHdr) (c : Command) : State :=
  { s with cx := { s.cx with held := s.cx.held ++ [Deferred.mk s.cx.nextId h c] } }.journal h (cmdOpcode c) (some c) false ST_OK []

/-- A command's checks 1 to 7, the relay to another member, then its own checks and effect. -/
def State.judgeCmd (s : State) (h : CmdHdr) (c : Command) (eff : State → CmdRes) : State :=
  match s.checkSender h c with
  | some st => s.refuseCmd h c st
  | none =>
    if !s.isSelf h.target then s.forwardCmd h c
    else if !s.checkState c then s.refuseCmd h c ST_STATE
    else s.settleCmd h c (eff s)

/-- The Supervisor takes a command: it is judged, unless an earlier one of its channel waits to commit. -/
def State.runCmd (s : State) (h : CmdHdr) (c : Command) (eff : State → CmdRes) : State :=
  if !s.takes h.sender (cmdAny c) || h.sender == .gone then s
  else if s.channelWaits h.sender then s.holdCmd h c
  else s.judgeCmd h c eff

/-- A reply that leaves at once, before a reset clears the queues (R86): the BMC's over MCTP. -/
def State.replyNow (s : State) (h : CmdHdr) (c : Command) (status : Nat) (payload : List Byte) : State :=
  match h.sender with
  | .bmc => s.emit (.mctp (answerBytes (Answer.mk .bmc 2 (cmdOpcode c) h status payload)))
  | .relay f => s.send s.headDevice 3 (.answer f (answerBytes (Answer.mk h.sender 2 (cmdOpcode c) h status payload)))
  | .host _ => s
  | .gone => s

/-- The management endpoint answers the BMC itself in STANDBY and in management only, by the order of R149 (R148, R546). It relays
nothing to another member. -/
def State.endpoint (s : State) (h : CmdHdr) (c : Command) (eff : State → CmdRes) : State :=
  match s.checkSender h c with
  | some st => s.replyNow h c st []
  | none => if !s.isSelf h.target then s.replyNow h c ST_STATE [] else match c with
    | .moduleStart =>
      if s.pp.state = .standby then { s with pp := { s.pp with hold := false } }.replyNow h c ST_OK []
      else s.replyNow h c ST_STATE []
    | .moduleReset k => if k = 2 then (s.replyNow h c ST_OK []).coldReset else s.replyNow h c ST_STATE []
    | .logRead _ _ =>
      if s.pp.state = .mgmtOnly then
        match eff s with
        | .ok p s' => s'.replyNow h c ST_OK p
        | .refuse st s' => s'.replyNow h c st []
        | _ => s
      else s.replyNow h c ST_STATE []
    | _ => s.replyNow h c ST_STATE []

/-- A command reaches the module from its sender. -/
def State.command (s : State) (h : CmdHdr) (c : Command) (eff : State → CmdRes) : State :=
  if (s.pp.state = .standby ∨ s.pp.state = .mgmtOnly) ∧ h.sender = .bmc then s.endpoint h c eff else s.runCmd h c eff

end Sys2Proof.Machine
end

