-- ==== Sys2Proof/Machine/Container.lean ====
section
/-! DEFINITION. Containers and their checks (R163–R166), and the reading of a container through a context's ranges (R170, R221). -/

namespace Sys2Proof.Machine

/-- A directory entry of a container. -/
structure Section where
  kind     : Nat
  required : Bool
  off      : Nat
  len      : Nat
  crc      : Nat

/-- The section kinds that the device knows in a kind of container: number, size or record size, and whether it is the whole size
(R276, R331, R436, R449). -/
def knownSections (kind : Nat) : List (Nat × Nat × Bool) :=
  match kind with
  | 1 => [(0x0001, 64, true), (0x0002, 32, false), (0x0003, 16, false), (0x0004, 16, false), (0x0005, 16, false), (0x0010, 1, false)]
  | 2 => [(0x0001, 128, true), (0x0002, 32, false), (0x0003, 96, false), (0x0004, 32, false), (0x0010, 1, false)]
  | 3 => [(0x0001, 64, true), (0x0002, 32, false), (0x0003, 1, false)]
  | _ => [(0x0001, 64, true), (0x0002, 32, false), (0x0003, 4, false), (0x0004, 4096, false), (0x0010, 1, false)]

/-- Sections of a container's directory. -/
def dirCount (b : List Byte) : Nat := fieldAt b 0x10 4

/-- The directory entry at an index. -/
def dirEntry (b : List Byte) (i : Nat) : Section :=
  let o := 64 + 32 * i
  ⟨fieldAt b o 2, bit (fieldAt b (o + 2) 2) 0, fieldAt b (o + 8) 8, fieldAt b (o + 16) 8, fieldAt b (o + 24) 4⟩

/-- Every directory entry. -/
def dirEntries (b : List Byte) : List Section := (List.range (dirCount b)).map (dirEntry b)

/-- The rsv bits of the directory entries are zero. -/
def dirRsvOk (b : List Byte) : Bool :=
  (List.range (dirCount b)).all fun i =>
    let o := 64 + 32 * i
    decide (fieldAt b (o + 2) 2 < 2) && zeroAt b (o + 4) 4 && zeroAt b (o + 28) 4

/-- Sections stand in ascending offset, aligned, from `from_` on, without overlap, within the length. -/
def dirPlaced (total : Nat) : Nat → List Section → Bool
  | _, [] => true
  | from_, e :: r => decide (from_ ≤ e.off ∧ e.off % 64 = 0 ∧ e.off + e.len ≤ total) && dirPlaced total (e.off + e.len) r

/-- Known kinds appear once, with their sizes. -/
def dirKnownOk (kind : Nat) (es : List Section) : Bool :=
  (knownSections kind).all fun k =>
    let mine := es.filter fun e => e.kind == k.1
    decide (mine.length ≤ 1) && mine.all fun e => if k.2.2 then e.len == k.2.1 else e.len % k.2.1 == 0

/-- Whether the device knows a section kind. -/
def sectionKnown (kind sk : Nat) : Bool := (knownSections kind).any fun k => k.1 == sk

/-- The bytes that body_digest covers (R163, R166). -/
def digestBytes (kind : Nat) (b : List Byte) : List Byte :=
  if kind = 2 then bytesAt b 64 (32 * dirCount b) else b.drop 64

/-- Checks 1 to 7 of R164 on a container of `length` bytes: the status of the first that fails. -/
def containerStatus (kind minorM length : Nat) (b : List Byte) : Option Nat :=
  let n := dirCount b
  if b.length < 64 ∨ b.length ≠ length ∨ fieldAt b 8 8 ≠ length ∨ length < 64 + 32 * n ∨ fieldAt b 0 4 ≠ 0x50474843 ∨ fieldAt b 4 1 ≠ kind ∨ n < 1 ∨
      1024 < n ∨ zeroAt b 0x14 4 = false then some ST_MALFORMED
  else if fieldAt b 5 1 ≠ 2 then some ST_GENERATION
  else if fieldAt b 6 1 ≠ 1 ∨ minorM < fieldAt b 7 1 then some ST_VERSION
  else if sha256 (digestBytes kind b) ≠ bytesAt b 0x20 32 then some ST_DIGEST
  else
    let es := dirEntries b
    if !(dirRsvOk b && dirPlaced length (64 + 32 * n) es && dirKnownOk kind es) then some ST_MALFORMED
    else if es.any fun e => crc32c (bytesAt b e.off e.len) != e.crc then some ST_DIGEST
    else if es.any fun e => e.required && !sectionKnown kind e.kind then some ST_UNKNOWN
    else none

/-- The bytes of a section of a kind. -/
def sectionOf (b : List Byte) (sk : Nat) : Option (List Byte) :=
  ((dirEntries b).find? fun e => e.kind == sk).map fun e => bytesAt b e.off e.len

/-- Offset of a section of a kind. -/
def sectionOff (b : List Byte) (sk : Nat) : Nat := (((dirEntries b).find? fun e => e.kind == sk).map (·.off)).getD 0

/-! ## Sources in a context (R170, R221) -/

/-- What the read of a source comes to: its bytes, a failure, or data that do not belong to it. -/
inductive Source where
  | bytes (b : List Byte)
  | fails (status : Nat)
  | other

/-- The Supervisor's reads go to the range table: it has no range cache (R218). -/
def supUnit : Nat := 503

/-- The bytes of a source at an address of a context, with what the host sent for its parts in host memory. -/
def State.sourceBytes (s : State) (ctag va len : Nat) (data : HostData) : Source :=
  match s.xlateNow supUnit ctag va len 1 with
  | .miss _ => .fails ST_RANGE
  | .fault _ _ _ _ => .fails ST_RANGE
  | .ok ps =>
    match s.partsPoison ps with
    | some _ => .fails ST_ECC
    | none =>
      if !partsHost ps then .bytes (s.readParts ps)
      else if (s.ctxPort (s.context ctag)).isNone then .fails ST_HOSTIO
      else match data with
        | .ok b => if b.length = hostLen ps then .bytes (s.mergeParts none ps b) else .other
        | _ => .fails ST_HOSTIO

/-- Whether a source is mapped wholly for a kind of access (R279). -/
def State.sourceMapped (s : State) (ctag va len access : Nat) : Bool :=
  match s.xlateNow supUnit ctag va len access with
  | .ok _ => true
  | _ => false

end Sys2Proof.Machine
end

