-- ==== Sys2Proof/Machine/Adapters.lean ====
section
/-! DEFINITION. Adapters: their loading, retiring and unloading (R449, R450). -/

namespace Sys2Proof.Machine

/-- Adapter numbers (R161, R182). -/
def adapterNumbers : Nat := 1024

/-- An adapter number of a context, or the refusal where another context has it: by R150 one of another function's, and ST_ABSENT
without a record for one of the sender's own. -/
def State.ownAdapter (s : State) (x : Sender) (ctag n : Nat) : Sum (Nat × State) (Option Adapter) :=
  match tabGet? s.wt.adapters n with
  | none => .inr none
  | some a =>
    if a.ctag = ctag then .inr (some a)
    else if isPf x ∧ (s.context a.ctag).owner ≠ 0 then .inl (ST_OWNER, s)
    else .inl (ST_ABSENT, s.foreignNamed x (some (s.context a.ctag).owner) n)

/-- Adapters with a resident epoch. -/
def State.adaptersResident (s : State) : Nat := (s.wt.adapters.filter fun a => a.2.resident.isSome).length

/-- ADAPTER_LOAD up to its acceptance. -/
def cmdAdapterLoad (h : CmdHdr) (ctag n rank : Nat) (s : State) : CmdRes :=
  match s.ownCtx h.sender ctag false with
  | .inl (st, s') => .refuse st s'
  | .inr _ => match s.ownAdapter h.sender ctag n with
    | .inl (st, s') => .refuse st s'
    | .inr a =>
      if adapterNumbers ≤ n ∨ rank < 1 ∨ 256 < rank then .refuse ST_RANGE s
      else if (a.bind (·.resident)).isNone ∧ adapterNumbers ≤ s.adaptersResident then .refuse ST_NOSPACE s
      else .accept s

/-- A tensor record: layer, base tensor, k, n, D's offset and U's. -/
def adapterTensor (b : List Byte) : List Nat :=
  [fieldAt b 0 2, fieldAt b 4 4, fieldAt b 8 4, fieldAt b 12 4, fieldAt b 16 8, fieldAt b 24 8]

/-- An adapter image read from its bytes (R449). -/
def parseAdapter (epoch rank va : Nat) (b : List Byte) : Sum Nat AdapterEpoch :=
  match sectionOf b 1, sectionOf b 2, sectionOf b 3 with
  | some h, some ts, some _ =>
    let recs := chunks 32 ts.length ts
    let fmt := fieldAt h 4 1
    let elem := if fmt = 0 then 2 else 1
    let a : AdapterEpoch :=
      { epoch := epoch, sourceVa := va, length := b.length, rank := fieldAt h 0 2, fmt := fmt, tensors := recs.map adapterTensor
        dataOff := sectionOff b 3 }
    let outside (off n : Nat) : Bool := decide (b.length < a.dataOff + off + n * a.rank * elem)
    if !(fmt == 0 || fmt == 2) || !zeroAt h 5 59 || fieldAt h 2 2 != recs.length || a.rank < 1 || decide (256 < a.rank) ||
        recs.any (fun r => !zeroAt r 2 2) then .inl ST_MALFORMED
    else if a.rank ≠ rank ∨ a.tensors.any (fun r => outside (r.getD 4 0) (r.getD 2 0) || outside (r.getD 5 0) (r.getD 3 0)) then .inl ST_RANGE
    else .inr a
  | _, _, _ => .inl ST_MALFORMED

/-- Whether a step has been launched, which binds its epochs (R192). -/
def StepRec.launched (t : StepRec) : Bool :=
  match t.cond with
  | .awaiting => false
  | .held => false
  | _ => true

/-- Whether a step bound to an adapter, or to one epoch of it, has not ended. -/
def State.adapterBound (s : State) (n : Nat) (epoch : Option Nat) : Bool :=
  s.dq.steps.any fun t => t.adapter == some n && t.ended.isNone && t.launched && (match epoch with
    | some e => t.epochA == e
    | none => true)

/-- The retiring epoch of an adapter is dropped once no step bound to it remains, and the notice is sent. -/
def State.dropAdapter (s : State) (n : Nat) : State :=
  match tabGet? s.wt.adapters n with
  | none => s
  | some a => match a.retiring with
    | none => s
    | some e =>
      if s.adapterBound n (some e.epoch) then s
      else
        let s1 := { s with wt := { s.wt with adapters := tabSet s.wt.adapters n { a with retiring := none } } }
        match s1.item a.noticeItem with
        | some d => s1.notice d ST_OK []
        | none => s1

/-- A verified adapter becomes resident and the previous epoch retires. -/
def State.installAdapter (s : State) (d : Deferred) (ctag n : Nat) (e : AdapterEpoch) : State :=
  let old := (tabGet? s.wt.adapters n).bind (·.resident)
  let s1 := { s with wt := { s.wt with adapters := tabSet s.wt.adapters n ⟨ctag, some e, old, d.id⟩ } }
  if old.isNone then s1.notice d ST_OK [] else s1.dropAdapter n

/-- What the content of an adapter comes to. -/
def State.loadAdapter (s : State) (d : Deferred) (ctag n rank epoch va len : Nat) (b : List Byte) : State :=
  match containerStatus 3 s.cfg.minor len b with
  | some st => s.notice d st []
  | none => match parseAdapter epoch rank va b with
    | .inl st => s.notice d st []
    | .inr e => match s.ownAdapter d.hdr.sender ctag n with
      | .inl (st, s') => s'.notice d st []
      | .inr a =>
        if ((a.bind (·.resident)).any fun o => decide (epoch ≤ o.epoch)) then s.notice d ST_RANGE []
        else if (a.bind (·.retiring)).isSome then s.notice d ST_BUSY []
        else s.installAdapter d ctag n e

/-- ADAPTER_LOAD_CHECK. -/
def execAdapterLoadCheck (item : Nat) (data : HostData) (s : State) : Out :=
  .next (
    match s.item item with
    | none => s
    | some d => match d.cmd with
      | .adapterLoad ctag n rank epoch va len =>
        let taken := (tabGet? s.wt.adapters n).any fun a => a.retiring.isSome && a.noticeItem == item
        if !s.supervisorRuns || taken then s
        else match (tabGet? s.ctx.ctxs ctag).filter fun c => !c.dying with
          | none => s.notice d ST_DESTROYED []
          | some _ => match s.sourceBytes ctag va len data with
            | .other => s
            | .fails st => s.notice d st []
            | .bytes b => s.loadAdapter d ctag n rank epoch va len b
      | _ => s)

/-- ADAPTER_EPOCH_DROP. -/
def execAdapterEpochDrop (adapter : Nat) (s : State) : Out := .next (if s.supervisorRuns then s.dropAdapter adapter else s)

/-- ADAPTER_UNLOAD. -/
def cmdAdapterUnload (h : CmdHdr) (ctag n : Nat) (s : State) : CmdRes :=
  match s.ownCtx h.sender ctag false with
  | .inl (st, s') => .refuse st s'
  | .inr _ => match s.ownAdapter h.sender ctag n with
    | .inl (st, s') => .refuse st s'
    | .inr none => if adapterNumbers ≤ n then .refuse ST_RANGE s else .refuse ST_ABSENT s
    | .inr (some _) =>
      if s.adapterBound n none then .refuse ST_BUSY s
      else .ok [] { s with wt := { s.wt with adapters := tabDel s.wt.adapters n } }

/-- ADAPTER_LOAD. -/
def execAdapterLoad (h : CmdHdr) (ctag adapter rank epoch sourceVa length : Nat) (s : State) : Out :=
  .next (s.command h (.adapterLoad ctag adapter rank epoch sourceVa length) (cmdAdapterLoad h ctag adapter rank))

/-- ADAPTER_UNLOAD. -/
def execAdapterUnload (h : CmdHdr) (ctag adapter : Nat) (s : State) : Out :=
  .next (s.command h (.adapterUnload ctag adapter) (cmdAdapterUnload h ctag adapter))

end Sys2Proof.Machine
end

