-- ==== Sys2Proof/Machine/CmdContext.lean ====
section
/-! DEFINITION. The commands on memory ownership, contexts, ranges, key slots, steps and queues (R173, R174, R200, R201,
R209–R217, R222, R234, R236). -/

namespace Sys2Proof.Machine

/-! ## Memory ownership (R214) -/

/-- Store extents and staging regions of the resident models, which count as granted (R435). -/
def State.weightIvs (s : State) : List (Nat × Nat) :=
  s.wt.models.flatMap fun m => (m.2.image.toList ++ m.2.openImage.toList).flatMap fun i =>
    (i.shards.map fun h => (h.storePa, h.storeLen)) ++ i.stageBase.zip i.stageLen

/-- Whether a region is free memory of the PF, as MEM_GRANT and POOL_CREATE need it (R170, R214, R435). -/
def State.pfFree (s : State) (base len : Nat) : Bool :=
  s.inTierMemory 0 base len && !meets s.tableIvs base len && !meets s.weightIvs base len

/-- A TDI that is locked or running keeps its function's memory as it is (R226). -/
def State.tdiFixed (s : State) (f : Nat) : Bool := (s.fn f).tdi == .locked || (s.fn f).tdi == .run

/-- MEM_GRANT. -/
def cmdMemGrant (f base len : Nat) (s : State) : CmdRes :=
  if f ≠ 0 ∧ s.tdiFixed f then .refuse ST_STATE s
  else if f = 0 ∨ 256 ≤ f ∨ base % 65536 ≠ 0 ∨ len % 65536 ≠ 0 ∨ len = 0 ∨ !s.pfFree base len then .refuse ST_RANGE s
  else .ok [] { s with ctx := { s.ctx with grants := s.ctx.grants ++ [⟨f, base, len⟩] } }

/-- The ranges of a context that count as mapped: its table's entries and those cleared since the last invalidation (R217). -/
def State.mapped (s : State) (c : Context) : List RangeEntry := ((s.mem.ranges c.tableBase).map (·.2)) ++ c.stale

/-- Whether a range of a function, or one of its range tables, lies in a region. -/
def State.regionBusy (s : State) (f base len : Nat) : Bool :=
  s.ctx.ctxs.any fun c => c.2.owner == f &&
    (decide (0 < interLen c.2.tableBase tableBytes base len) ||
      (s.mapped c.2).any fun e => e.kind == 1 && decide (0 < interLen e.target e.length base len))

/-- MEM_REVOKE: the region leaves the VF and is zeroed. -/
def cmdMemRevoke (f base len : Nat) (s : State) : CmdRes :=
  if f ≠ 0 ∧ s.tdiFixed f then .refuse ST_STATE s
  else if !s.ctx.grants.contains ⟨f, base, len⟩ then .refuse ST_ABSENT s
  else if s.regionBusy f base len then .refuse ST_BUSY s
  else .ok [] { s with ctx := { s.ctx with
    grants := s.ctx.grants.filter fun g => !(g == ⟨f, base, len⟩), zeroing := s.ctx.zeroing ++ [⟨0, base, len⟩] } }

/-- The zeroing of a region ends: it is the PF's memory again. -/
def execRevokeZeroingEnd (base : Nat) (s : State) : Out :=
  .next (
    match s.ctx.zeroing.find? fun r => r.base == base with
    | some r =>
      { s with
        mem := s.mem.zero r.base r.length
        ctx := { s.ctx with zeroing := s.ctx.zeroing.filter fun x => !(x == r) } }
    | none => s)

/-! ## Contexts (R209–R211) -/

/-- Whether a message that the hardware still holds carries a CTAG: contribution streams at a Reducer, grants recorded or kept, pod
arrivals held, and messages crossing the mesh (R211). -/
def State.ctagHeld (s : State) (t : Nat) : Bool :=
  (s.fleet.dies.any fun d => d.2.engines.any fun e => e.2.ingress.any fun c => c.ctag == t) ||
  (s.wt.grants.any fun g => g.m.ctag == t) || (s.wt.keptGrants.any fun g => g.m.ctag == t) ||
  ((s.fleet.heldArrivals ++ s.fleet.arrivals).any fun m => m.ctag == t) || (s.fleet.releases.any fun m => m.2.ctag == t) ||
  (s.fleet.signals.any fun m => m.ctag == t)

/-- Whether a CTAG may be given to a new context: no context has it, and nothing held in the device carries it, be it a message, a
fault record or a stale KV record (R211, R384). -/
def State.ctagFree (s : State) (t : Nat) : Bool :=
  (tabGet? s.ctx.ctxs t).isNone && !s.ctagHeld t &&
  s.host.fns.all (fun f => (f.2.held ++ f.2.beyond).all fun r => r.ctag != t) &&
  s.kv.pools.all fun p => p.2.recs.all fun r => !(r.2.state != .free && r.2.owner == t && r.2.incarnation == s.incarnation t)

/-- CTX_CREATE. -/
def cmdCtxCreate (h : CmdHdr) (homePort compat : Nat) (pasid : Option Nat) (tb : Nat) (s : State) : CmdRes :=
  let f := (senderFn h.sender).getD 0
  if tb % 65536 ≠ 0 ∨ capBase < tb + tableBytes ∨ !s.inTierMemory f tb tableBytes ∨ meets s.tableIvs tb tableBytes then
    .refuse ST_RANGE s
  else if 4096 ≤ s.ctx.ctxs.length then .refuse ST_NOSPACE s
  else match (List.range 4096).find? s.ctagFree with
    | none => .refuse ST_NOSPACE s
    | some t =>
      let c : Context :=
        { noContext with
          owner := f, tableBase := tb, pasid := pasid
          homePort := if homePort = 2 then s.setting 7 else homePort
          compat := if compat = 0 then s.setting 4 == 1 else compat == 2 }
      .ok (leBytes 2 t ++ zeros 6) { s with
        mem := s.mem.zero tb tableBytes
        ctx := { s.ctx with ctxs := tabSet s.ctx.ctxs t c, roots := tabSet s.ctx.roots t [] } }

/-- A context's destruction commits (R211, R384). -/
def State.markDying (s : State) (ctag : Nat) : State :=
  let s1 := { s with ctx := { s.ctx with ctxs := tabMod noContext s.ctx.ctxs ctag fun c => { c with dying := true } } }
  forEach ((s.dq.groups.filter fun g => g.2.ctag == ctag).map (·.1)) (s1.destroyKv ctag) State.mirrorGroup

/-- CTX_DESTROY. -/
def cmdCtxDestroy (h : CmdHdr) (ctag : Nat) (s : State) : CmdRes :=
  match s.ownCtx h.sender ctag true with
  | .inl (st, s') => .refuse st s'
  | .inr _ => .accept (s.markDying ctag)

/-- The context that a deferred command names. -/
def cmdCtag (c : Command) : Option Nat :=
  match c with
  | .ctxDestroy t => some t
  | .programLoad t _ _ => some t
  | .adapterLoad t _ _ _ _ _ => some t
  | _ => none

/-- A command whose reply waits commits, which is its place in the journal, is answered and no longer waits (R151, R222). -/
def State.endWait (s : State) (w : Deferred) (status : Nat) : State :=
  let s1 := { s with cx := { s.cx with
    waiting := s.cx.waiting.filter fun x => x.id != w.id
    journal := (s.cx.journal.filter fun (j : JournalEntry) => j.id != w.id) ++
      [JournalEntry.mk w.id w.hdr (cmdOpcode w.cmd) (some w.cmd) true false status []] } }
  s1.answer w.hdr (cmdOpcode w.cmd) 2 status []

/-- Destruction's steps of R211: steps end with ST_DESTROYED, the context is reset, everything it owns is released, and its notice with
ST_OK is queued; those of other deferred commands that name the context carry ST_DESTROYED (R156). -/
def State.releaseContext (s : State) (ctag : Nat) : State :=
  let s1 := (s.endSteps (fun t => t.ctag == ctag) ST_DESTROYED).contextReset ctag
  let groups := (s1.dq.groups.filter fun g => g.2.ctag == ctag).map (·.1)
  let s2 := { s1 with
    ctx := { s1.ctx with
      ctxs := tabDel s1.ctx.ctxs ctag
      roots := tabDel s1.ctx.roots ctag
      caches := tabMap (fun _ es => es.filter fun e => e.ctag != ctag) s1.ctx.caches
      walks := s1.ctx.walks.filter fun w => w.ctag != ctag
      invalidating := s1.ctx.invalidating.filter (· != ctag)
      programs := s1.ctx.programs.filter fun p => p.ctag != ctag }
    dq := { s1.dq with
      groups := s1.dq.groups.filter fun g => !groups.contains g.1
      queues := s1.dq.queues.filter fun q => !groups.contains (q.1 / 64)
      steps := s1.dq.steps.filter fun t => t.ctag != ctag }
    wt := { s1.wt with adapters := s1.wt.adapters.filter fun a => a.2.ctag != ctag }
    host := { s1.host with reads := s1.host.reads.filter fun r => r.ctag != ctag } }
  let s3 := forEach groups s2 State.mirrorGroup
  let s4 := forEach (s3.cx.waiting.filter fun w => match w.cmd with
    | .rangeInvalidateAll t => t == ctag
    | _ => false) s3 fun s w => s.endWait w ST_ABSENT
  forEach (s4.cx.deferred.filter fun d => cmdCtag d.cmd == some ctag) s4 fun s d =>
    match d.cmd with
    | .ctxDestroy _ => s.notice d ST_OK []
    | _ => s.notice d ST_DESTROYED []

/-- A context's destruction ends. -/
def execCtxDestroyComplete (ctag : Nat) (s : State) : Out :=
  .next (
    match tabGet? s.ctx.ctxs ctag with
    | some c => if c.dying && s.supervisorRuns then s.releaseContext ctag else s
    | none => s)

/-! ## Ranges (R215–R217, R222, R236, R554) -/

/-- The table as it would stand after a RANGE_MAP. -/
def tableAfter (old : List (Nat × RangeEntry)) (first : Nat) (es : List RangeEntry) : List (Nat × RangeEntry) :=
  (old.filter fun e => decide (e.1 < first)) ++ ((es.mapIdx fun i e => (first + i, e)).filter fun e => e.2.kind != 0)
    ++ old.filter fun e => decide (first + es.length ≤ e.1)

/-- Ranges stand in ascending va_base and do not overlap. -/
def rangesOrdered : List (Nat × RangeEntry) → Bool
  | [] => true
  | [_] => true
  | a :: b :: r => decide (a.2.vaBase < b.2.vaBase ∧ a.2.vaBase + a.2.length ≤ b.2.vaBase) && rangesOrdered (b :: r)

/-- Whether an entry keeps R215 and R216, its place among the others apart. -/
def State.entryOk (s : State) (f : Nat) (e : RangeEntry) : Bool :=
  let prot := bit e.attrs 0
  let expand := bit e.attrs 1
  let dump := match s.ctx.dumpBase with
    | some b => decide (f = 0 ∧ b ≤ e.target ∧ e.target + e.length ≤ b + 2 ^ 28 ∧ e.perms = 1) && !prot && !expand
    | none => false
  if e.kind = 0 then e == ⟨0, 0, 0, 0, 0, 0⟩
  else
    decide (e.vaBase % 65536 = 0 ∧ e.length % 65536 = 0 ∧ 0 < e.length ∧ e.vaBase + e.length ≤ 2 ^ 52 ∧ e.target % 65536 = 0) &&
    (if e.kind = 1 then
      decide (e.target < 2 ^ 48) && !bit e.attrs 2 && !bit e.attrs 3 && !(prot && expand && s.setting 1 == 1) &&
        (dump || (s.inMemory f e.target e.length && !meets s.tableIvs e.target e.length))
    else !prot && !expand)

/-- RANGE_MAP. -/
def cmdRangeMap (h : CmdHdr) (ctag first : Nat) (es : List RangeEntry) (s : State) : CmdRes :=
  match s.ownCtx h.sender ctag false with
  | .inl (st, s') => .refuse st s'
  | .inr c =>
    let old := s.mem.ranges c.tableBase
    if c.key.isNone ∧ es.any (fun e => e.kind != 0 && bit e.attrs 0) then .refuse ST_STATE s
    else if es.length < 1 ∨ 6 < es.length ∨ 16384 < first + es.length ∨ !es.all (s.entryOk c.owner) ∨
        !rangesOrdered (tableAfter old first es) then .refuse ST_RANGE s
    else
      let gone := (old.filter fun e => decide (first ≤ e.1 ∧ e.1 < first + es.length) && !(es[e.1 - first]? == some e.2)).map (·.2)
      let m := s.mem.writeN (c.tableBase + 32 * first) (es.flatMap rangeBytes)
      .ok [] { s with
        mem := m
        ctx := { s.ctx with
          ctxs := tabMod noContext s.ctx.ctxs ctag fun c => { c with stale := c.stale ++ gone }
          roots := tabSet s.ctx.roots ctag (rootKeys (m.ranges c.tableBase)) } }

/-- RANGE_INVALIDATE_ALL: walks of the CTAG are held, root keys reloaded and cache entries dropped; the reply waits. -/
def cmdRangeInvalidateAll (h : CmdHdr) (ctag : Nat) (s : State) : CmdRes :=
  match s.ownCtx h.sender ctag false with
  | .inl (st, s') => .refuse st s'
  | .inr c =>
    .wait { s with ctx := { s.ctx with
      invalidating := ctag :: s.ctx.invalidating.filter (· != ctag)
      walks := s.ctx.walks.map fun w => if w.ctag = ctag then { w with held := true } else w
      roots := tabSet s.ctx.roots ctag (rootKeys (s.mem.ranges c.tableBase))
      caches := tabMap (fun _ es => es.filter fun e => e.ctag != ctag) s.ctx.caches } }

/-- Every access through a dropped entry has completed: held walks are released, ranges cleared before count as mapped no
longer, and the command commits and replies (R222). -/
def execInvalidationCommit (ctag : Nat) (s : State) : Out :=
  .next (
    if s.ctx.invalidating.contains ctag && !(s.host.reads.any fun r => r.ctag == ctag) &&
        !(s.wt.entries.any fun e => e.m.ctag == ctag) && s.supervisorRuns then
      let s1 := { s with ctx := { s.ctx with
        invalidating := s.ctx.invalidating.filter (· != ctag)
        walks := s.ctx.walks.map fun w => if w.ctag = ctag then { w with held := false } else w
        ctxs := tabMap (fun t c => if t = ctag then { c with stale := [] } else c) s.ctx.ctxs } }
      (forEach (s1.cx.waiting.filter fun w => match w.cmd with
        | .rangeInvalidateAll t => t == ctag
        | _ => false) s1 fun s w => s.endWait w (if (s.context ctag).dying then ST_ABSENT else ST_OK)).reportCtx ctag
    else s)

/-- KEY_SLOT_SET. -/
def cmdKeySlotSet (h : CmdHdr) (ctag : Nat) (key : List Byte) (s : State) : CmdRes :=
  match s.ownCtx h.sender ctag false with
  | .inl (st, s') => .refuse st s'
  | .inr c =>
    if key.take 32 = key.drop 32 then .refuse ST_RANGE s
    else if (s.mapped c).any (fun e => e.kind == 1 && bit e.attrs 0) then .refuse ST_BUSY s
    else .ok [] { s with ctx := { s.ctx with ctxs := tabMod noContext s.ctx.ctxs ctag fun c => { c with key := some key } } }

/-! ## Steps (R200, R201, R234) -/

/-- Whether a suspended step can run again at once: every core of it is free, or still its own. -/
def State.coresFree (s : State) (t : StepRec) : Bool :=
  t.cores.all fun n => (s.core n).step.isNone || (s.core n).step == some (t.queue, t.index)

/-- Whether the record of a step's fault waits beyond the 64 that its function holds: the step stays suspended until it can be held
or written (R134; log entry 108). -/
def State.recordWaits (s : State) (t : StepRec) : Bool := (s.fn t.fn).beyond.any fun r => r.queue == t.queue && r.stepIndex == t.index

/-- STEP_RESUME: the step runs again on its cores; while another step has them it awaits its relaunch (R195, R234). -/
def cmdStepResume (h : CmdHdr) (ctag q i : Nat) (s : State) : CmdRes :=
  match s.ownCtx h.sender ctag false with
  | .inl (st, s') => .refuse st s'
  | .inr _ =>
    if !s.queueOfCtx ctag q then .refuse ST_ABSENT (s.queueNamed h.sender q)
    else match s.step? q i with
      | none => .refuse ST_STATE s
      | some t =>
        if t.ended.isSome then .refuse ST_STATE s
        else match t.cond with
          | .suspended =>
            if s.recordWaits t then .refuse ST_STATE s
            else if s.coresFree t then .ok [] (s.relaunch q i)
            else .ok [] ((s.modStep q i fun u => { u with cond := .preempted }).mirrorOut q)
          | _ => .refuse ST_STATE s

/-- STEP_ABORT. -/
def cmdStepAbort (h : CmdHdr) (ctag q i : Nat) (s : State) : CmdRes :=
  match s.ownCtx h.sender ctag true with
  | .inl (st, s') => .refuse st s'
  | .inr _ =>
    if !s.queueOfCtx ctag q then .refuse ST_ABSENT (s.queueNamed h.sender q)
    else match s.step? q i with
      | none => .refuse ST_STATE s
      | some t =>
        if t.ended.isSome then .refuse ST_STATE s
        else match t.cond with
          | .aborting => .ok [] s
          | _ => .ok [] (s.abortStep q i ST_ABORTED)

/-! ## Queue groups and queues (R173, R174) -/

/-- QGROUP_ASSIGN. -/
def cmdQgroupAssign (g ctag f page : Nat) (s : State) : CmdRes :=
  match (tabGet? s.ctx.ctxs ctag).filter fun c => !c.dying with
  | none => .refuse ST_ABSENT s
  | some c =>
    if f ≠ c.owner ∨ (f = 0 ∧ page ≠ 0) ∨ 64 ≤ page ∨ 1024 ≤ g then .refuse ST_RANGE s
    else if f ≠ 0 ∧ (s.dq.groups.any fun x => x.2.fn == f && x.2.vfPage == page) = true then .refuse ST_RANGE s
    else if (tabGet? s.dq.groups g).isSome then .refuse ST_BUSY s
    else .ok [] ({ s with dq := { s.dq with groups := tabSet s.dq.groups g ⟨ctag, f, page⟩ } }.mirrorGroup g)

/-- Whether a queue of a group has a step that has not ended. -/
def State.groupUnended (s : State) (g : Nat) : Bool := s.dq.queues.any fun q => q.1 / 64 == g && q.2.unended

/-- QGROUP_RELEASE: every queue of the group returns to STATE 0, its fields cleared. -/
def cmdQgroupRelease (g : Nat) (s : State) : CmdRes :=
  if (tabGet? s.dq.groups g).isNone then .refuse ST_ABSENT s
  else if s.groupUnended g then .refuse ST_BUSY s
  else
    .ok [] ({ s with dq := { s.dq with
      groups := tabDel s.dq.groups g, queues := s.dq.queues.filter fun q => q.1 / 64 != g } }.mirrorGroup g)

/-- QUEUE_CONFIGURE: class and ring are set, indices and counts become zero, the slot stays. -/
def cmdQueueConfigure (h : CmdHdr) (q cls log2 ringVa : Nat) (s : State) : CmdRes :=
  match s.group q with
  | none => .refuse ST_ABSENT s
  | some g =>
    match s.ownCtx h.sender g.ctag false with
    | .inl (st, s') => .refuse st s'
    | .inr _ =>
      if log2 < 4 ∨ 16 < log2 ∨ ringVa % 4096 ≠ 0 then .refuse ST_RANGE s
      else if (s.queue q).unended then .refuse ST_BUSY s
      else
        let s1 := s.setQueue q fun x => { freshQueue with
          configured := true, cls := cls, log2 := log2, ringVa := ringVa, slot := x.slot, clearSince := s.aon.clock }
        .ok [] (s1.mirrorOut q)

/-! ## The rows -/

/-- MEM_GRANT (R214). -/
def execMemGrant (h : CmdHdr) (f base len : Nat) (s : State) : Out :=
  .next (s.command h (.memGrant f base len) (cmdMemGrant f base len))

/-- MEM_REVOKE (R214). -/
def execMemRevoke (h : CmdHdr) (f base len : Nat) (s : State) : Out :=
  .next (s.command h (.memRevoke f base len) (cmdMemRevoke f base len))

/-- CTX_CREATE (R209, R210). -/
def execCtxCreate (h : CmdHdr) (homePort compat : Nat) (pasid : Option Nat) (tb : Nat) (s : State) : Out :=
  .next (s.command h (.ctxCreate homePort compat pasid tb) (cmdCtxCreate h homePort compat pasid tb))

/-- CTX_DESTROY (R211). -/
def execCtxDestroy (h : CmdHdr) (ctag : Nat) (s : State) : Out := .next (s.command h (.ctxDestroy ctag) (cmdCtxDestroy h ctag))

/-- RANGE_MAP (R216, R217). -/
def execRangeMap (h : CmdHdr) (ctag first : Nat) (es : List RangeEntry) (s : State) : Out :=
  .next (s.command h (.rangeMap ctag first es) (cmdRangeMap h ctag first es))

/-- RANGE_INVALIDATE_ALL (R222). -/
def execRangeInvalidateAll (h : CmdHdr) (ctag : Nat) (s : State) : Out :=
  .next (s.command h (.rangeInvalidateAll ctag) (cmdRangeInvalidateAll h ctag))

/-- KEY_SLOT_SET (R236). -/
def execKeySlotSet (h : CmdHdr) (ctag : Nat) (key : List Byte) (s : State) : Out :=
  .next (s.command h (.keySlotSet ctag key) (cmdKeySlotSet h ctag key))

/-- STEP_RESUME (R234). -/
def execStepResume (h : CmdHdr) (ctag q i : Nat) (s : State) : Out :=
  .next (s.command h (.stepResume ctag q i) (cmdStepResume h ctag q i))

/-- STEP_ABORT (R200, R201). -/
def execStepAbort (h : CmdHdr) (ctag q i : Nat) (s : State) : Out :=
  .next (s.command h (.stepAbort ctag q i) (cmdStepAbort h ctag q i))

/-- QGROUP_ASSIGN (R173). -/
def execQgroupAssign (h : CmdHdr) (g ctag f page : Nat) (s : State) : Out :=
  .next (s.command h (.qgroupAssign g ctag f page) (cmdQgroupAssign g ctag f page))

/-- QGROUP_RELEASE (R173). -/
def execQgroupRelease (h : CmdHdr) (g : Nat) (s : State) : Out := .next (s.command h (.qgroupRelease g) (cmdQgroupRelease g))

/-- QUEUE_CONFIGURE (R174). -/
def execQueueConfigure (h : CmdHdr) (q cls log2 ringVa : Nat) (s : State) : Out :=
  .next (s.command h (.queueConfigure q cls log2 ringVa) (cmdQueueConfigure h q cls log2 ringVa))

end Sys2Proof.Machine
end

