-- ==== Sys2Proof/Machine/CmdDevice.lean ====
section
/-! DEFINITION. The commands on settings, site keys and layers, module states and resets (R74–R83, R93–R102, R161, R162). -/

namespace Sys2Proof.Machine

/-! ## Capabilities (R161, R162) -/

/-- Populated bytes of a tier: 0 HBM, 1 capacity. -/
def State.tierBytes (s : State) (tier : Nat) : Nat :=
  (((List.range 32).filter fun h => h % 4 / 2 == tier).map s.halfBytes).sum

/-- The capability records of the module, in ascending number. -/
def State.capabilities (s : State) : List (Nat × Nat) :=
  [(0x0001, 2), (0x0002, 256 + s.cfg.minor), (0x0003, s.coreCount), (0x0004, s.tierBytes 0), (0x0005, s.tierBytes 1),
   (0x0006, 4096), (0x0007, 65536), (0x0008, 256), (0x0009, 16384), (0x000A, 4194304), (0x000B, 1048576),
   (0x000C, 4096), (0x000D, 16), (0x000E, 0x3F), (0x000F, 64), (0x0010, 0x1FC000), (0x0011, 1024), (0x0012, 256),
   (0x0013, 16), (0x0014, 1024), (0x0015, 20), (0x0016, 16384), (0x0017, 256), (0x0018, 16), (0x0019, 64),
   (0x001A, s.linkMask), (0x001B, 1), (0x001C, s.setting 1), (0x001D, 16)]

/-- The 16 bytes of a capability record. -/
def capBytes (c : Nat × Nat) : List Byte := leBytes 2 c.1 ++ zeros 6 ++ leBytes 8 c.2

/-- CAPS_QUERY: up to 14 records from an index (R161, R169). -/
def cmdCapsQuery (first : Nat) (s : State) : CmdRes :=
  let all := s.capabilities
  let some_ := (all.drop first).take 14
  .ok (leBytes 2 all.length ++ leBytes 2 some_.length ++ zeros 4 ++ some_.flatMap capBytes) s

/-! ## Settings (R93, R94, R99–R102) -/

/-- SETTING_READ: the value in force and its layer. -/
def cmdSettingRead (id : Nat) (s : State) : CmdRes :=
  match settingRow id with
  | none => .refuse ST_ABSENT s
  | some r => .ok (leBytes 8 (s.cfg.inForce r).1 ++ leBytes 1 (s.cfg.inForce r).2 ++ zeros 7) s

/-- SETTING_WRITE: a runtime value of a runtime setting. -/
def cmdSettingWrite (id value : Nat) (s : State) : CmdRes :=
  match settingRow id with
  | none => .refuse ST_ABSENT s
  | some r =>
    if !r.runtime then .refuse ST_DENIED s
    else if !r.ok value then .refuse ST_RANGE s
    else .ok [] { s with cfg := { s.cfg with runtime := tabSet s.cfg.runtime id value } }

/-- SITEKEY_ENROL: a key is enrolled when there is none, or replaced by one that the enrolled key has signed; action 2 removes
the key on a token that Ersovik signed over the module's serial number (R99; what is signed: log entry 21). A signature that does not
verify is ST_SIGNATURE, and a removal with no key enrolled ST_DENIED (log entry 98); a first enrolment looks at neither the signature
nor the curve (log entry 99). -/
def cmdSitekeyEnrol (action : Nat) (key sig : List Byte) (s : State) : CmdRes :=
  match s.cfg.siteKey with
  | none => if action = 1 then .ok [] { s with cfg := s.cfg.setSiteKey (some key) } else .refuse ST_DENIED s
  | some old =>
    if action = 1 then
      if ecdsaOk old key sig then .ok [] { s with cfg := s.cfg.setSiteKey (some key) } else .refuse ST_SIGNATURE s
    else if ecdsaOk Config.ersovikKey (leBytes 8 s.cfg.serial) sig then .ok [] { s with cfg := s.cfg.setSiteKey none }
    else .refuse ST_SIGNATURE s

/-- SITELAYER_WRITE is accepted for checking (R101); a length that no layer can have is out of range (R95, R146). -/
def cmdSitelayerWrite (source : Hbuf) (s : State) : CmdRes :=
  if source.addr % 64 = 0 ∧ 160 ≤ source.length ∧ source.length % 16 = 0 then .accept s else .refuse ST_RANGE s

/-- The first condition of R101 that a layer fails. -/
def State.siteStatus (s : State) (b : List Byte) : Nat :=
  let l := siteOf b
  if !siteLayout b then ST_MALFORMED
  else if !s.cfg.siteSigned b then ST_SIGNATURE
  else if !(l.serial == 0 || l.serial == s.cfg.serial) then ST_RANGE
  else if l.version < s.cfg.siteFloor then ST_STALE
  else if !siteInRange l then ST_RANGE
  else ST_OK

/-- A site layer read after acceptance is checked, stored, and comes into force, or is refused in the notice (R98, R101). -/
def execSitelayerWriteCheck (item : Nat) (data : HostData) (s : State) : Out :=
  .next (
    match s.item item with
    | some d =>
      match d.cmd, s.bufferData ((senderFn d.hdr.sender).getD 0) data with
      | .sitelayerWrite src, .ok b =>
        if b.length ≠ src.length ∨ !s.supervisorRuns then s
        else
          let st := s.siteStatus b
          if st ≠ ST_OK then s.notice d st []
          else
            let l := siteOf b
            let s1 := { s with cfg := { s.cfg.storeSite b with site := some l } }
            (s1.skipUnknown l).notice d ST_OK []
      | .sitelayerWrite _, _ => if s.supervisorRuns then s.notice d ST_HOSTIO [] else s
      | _, _ => s
    | none => s)

/-! ## Module states and resets (R74–R83, R86) -/

/-- MODULE_SUSPEND: warned DRAIN, then RETAIN with the commanded hold. -/
def cmdModuleSuspend (s : State) : CmdRes :=
  let s1 := s.enterDrain true
  .ok [] { s1 with pp := { s1.pp with hold := true } }

/-- MODULE_RESUME: the commanded hold is cleared. -/
def cmdModuleResume (s : State) : CmdRes := .ok [] { s with pp := { s.pp with hold := false } }

/-- MODULE_STOP: from SERVICE by DRAIN and RETAIN, from RETAIN at once, to STANDBY with the commanded hold. -/
def cmdModuleStop (h : CmdHdr) (s : State) : CmdRes :=
  if s.pp.state = .service then
    let s1 := s.enterDrain true
    .ok [] { s1 with pp := { s1.pp with stopping := true } }
  else
    let s1 := ((s.journal h 0x0103 (some .moduleStop) true ST_OK []).replyNow h .moduleStop ST_OK []).toStandby
    .done { s1 with pp := { s1.pp with hold := true } }

/-- MODULE_START in any state but STANDBY is refused by check 7, so nothing is left to do. -/
def cmdModuleStart (s : State) : CmdRes := .refuse ST_STATE s

/-- MODULE_RESET: a module reset, answered after it, or a cold reset, answered before it (R83, R86). -/
def cmdModuleReset (h : CmdHdr) (kind : Nat) (s : State) : CmdRes :=
  if kind = 1 then .ok [] s.moduleReset
  else .done ((s.journal h 0x0105 (some (.moduleReset kind)) true ST_OK []).replyNow h (.moduleReset kind) ST_OK []).coldReset

/-- DIE_RESET: the reset of a compute die in service begins (R78, R82); one in progress is joined (R83). -/
def cmdDieReset (die : Nat) (s : State) : CmdRes :=
  if 8 ≤ die then .refuse ST_RANGE s
  else if (s.die die).retired then .refuse ST_ABSENT s
  else .accept ((s.setDie die fun x => { x with resetting := true }).stopCopies fun m => m.layerOn die)

/-- The deferred DIE_RESETs of a die. -/
def State.dieItems (s : State) (die : Nat) : List Deferred :=
  s.cx.deferred.filter fun d => match d.cmd with
    | .dieReset n => n == die
    | _ => false

/-- A die reset ends: steps with a core or engine on the die end with ST_DIERESET, writes that were discarded meanwhile are recorded with
their number, the die is cleared, and the notices follow (R78, R79, R82). A DRAIN halts it (R82). -/
def execDieResetComplete (die : Nat) (s : State) : Out :=
  .next (
    if die < 8 ∧ (s.die die).resetting ∧ s.pp.state = .service then
      let s0 := s.endSteps (fun t => s.stepOnDie die t) ST_DIERESET
      let lost := (s0.die die).lostWrites
      let s1 := (if lost = 0 then s0 else s0.cometF7 4 (0x800 + die * 32) [die, lost]).dieClear die
      let s2 := s1.setDie die fun x => { x with power := if x.power = .off then .gated else x.power }
      forEach (s2.dieItems die) s2 fun s d => s.notice d ST_OK []
    else s)

/-! ## The rows -/

/-- CAPS_QUERY (R161). -/
def execCapsQuery (h : CmdHdr) (first : Nat) (s : State) : Out := .next (s.command h (.capsQuery first) (cmdCapsQuery first))

/-- SETTING_READ (R93). -/
def execSettingRead (h : CmdHdr) (id : Nat) (s : State) : Out := .next (s.command h (.settingRead id) (cmdSettingRead id))

/-- SETTING_WRITE (R100). -/
def execSettingWrite (h : CmdHdr) (id value : Nat) (s : State) : Out :=
  .next (s.command h (.settingWrite id value) (cmdSettingWrite id value))

/-- SITEKEY_ENROL, action 1 (R99). -/
def execSitekeyEnrol (h : CmdHdr) (key sig : List Byte) (s : State) : Out :=
  .next (s.command h (.sitekeyEnrol 1 key sig) (cmdSitekeyEnrol 1 key sig))

/-- SITEKEY_ENROL, action 2 (R99). -/
def execSitekeyRemove (h : CmdHdr) (token : List Byte) (s : State) : Out :=
  .next (s.command h (.sitekeyEnrol 2 (zeros 96) token) (cmdSitekeyEnrol 2 (zeros 96) token))

/-- SITELAYER_WRITE (R101). -/
def execSitelayerWrite (h : CmdHdr) (source : Hbuf) (s : State) : Out :=
  .next (s.command h (.sitelayerWrite source) (cmdSitelayerWrite source))

/-- MODULE_SUSPEND (R74, R76). -/
def execModuleSuspend (h : CmdHdr) (s : State) : Out := .next (s.command h .moduleSuspend cmdModuleSuspend)

/-- MODULE_RESUME (R75). -/
def execModuleResume (h : CmdHdr) (s : State) : Out := .next (s.command h .moduleResume cmdModuleResume)

/-- MODULE_STOP (R74). -/
def execModuleStop (h : CmdHdr) (s : State) : Out := .next (s.command h .moduleStop (cmdModuleStop h))

/-- MODULE_START (R74, R77, R148). -/
def execModuleStart (h : CmdHdr) (s : State) : Out := .next (s.command h .moduleStart cmdModuleStart)

/-- MODULE_RESET of kind module (R74, R78). -/
def execModuleResetModule (h : CmdHdr) (s : State) : Out := .next (s.command h (.moduleReset 1) (cmdModuleReset h 1))

/-- MODULE_RESET of kind cold (R74, R86). -/
def execModuleResetCold (h : CmdHdr) (s : State) : Out := .next (s.command h (.moduleReset 2) (cmdModuleReset h 2))

/-- DIE_RESET (R78). -/
def execDieReset (h : CmdHdr) (die : Nat) (s : State) : Out := .next (s.command h (.dieReset die) (cmdDieReset die))

end Sys2Proof.Machine
end

