-- ==== Sys2Proof/Machine/CmdKv.lean ====
section
/-! DEFINITION. The commands on pools, offers and hints (R366, R367, R379–R381). -/

namespace Sys2Proof.Machine

/-- Sixty-four bytes from the device's random source (R367, R444). -/
def State.randomKey (s : State) : List Byte × State :=
  ((List.range 64).map fun i => BitVec.ofNat 8 (Config.random (64 * s.drawn + i)), { s with drawn := s.drawn + 1 })

/-- The tier of an address: 0 HBM, 1 capacity. -/
def tierOf (pa : Nat) : Nat := if pa < capBase then 0 else 1

/-- A pool as POOL_CREATE makes it: every record free, every frame past the record table awaiting scrub. -/
def newPool (base length log2 tier : Nat) (key : List Byte) : Pool :=
  { base := base, length := length, log2 := log2, tier := tier, recs := [], frames := [], key := key, rotor := 0, moves := []
    outflow := false }

/-- Check 9 of POOL_CREATE. -/
def State.poolRangeOk (s : State) (pool log2 tier base len : Nat) : Bool :=
  let p := newPool base len log2 tier []
  decide (14 ≤ log2 ∧ log2 ≤ 20 ∧ base % 2 ^ log2 = 0 ∧ len % 2 ^ log2 = 0 ∧ 0 < len) &&
  tierOf base == tier && tierOf (base + len - 1) == tier && s.pfFree base len &&
  decide (0 < p.records ∧ p.records ≤ 16777215) &&
  (match s.pool? (partnerOf pool) with
  | none => true
  | some q => q.tier != tier && q.log2 == log2)

/-- POOL_CREATE. -/
def cmdPoolCreate (pool log2 tier base len : Nat) (s : State) : CmdRes :=
  if !s.poolRangeOk pool log2 tier base len then .refuse ST_RANGE s
  else if (s.pool? pool).isSome then .refuse ST_BUSY s
  else
    let (key, s1) := s.randomKey
    .ok [] { s1 with kv := { s1.kv with pools := tabSet s1.kv.pools pool (newPool base len log2 tier key) } }

/-- Whether a pool has an allocated record, a frame of the partner's block or a part in a move. -/
def Pool.busy (p : Pool) : Bool :=
  p.recs.any (fun r => r.2.state != .free) || p.frames.any (fun f => f.2 == .partner || f.2 == .reserved) || !p.moves.isEmpty

/-- POOL_DESTROY: the key is gone, and the memory is nobody's until it has been zeroed (R214). -/
def cmdPoolDestroy (pool : Nat) (s : State) : CmdRes :=
  match s.pool? pool with
  | none => .refuse ST_ABSENT s
  | some p =>
    if p.busy then .refuse ST_BUSY s
    else .ok [] { s with
      kv := { s.kv with pools := tabDel s.kv.pools pool }
      ctx := { s.ctx with zeroing := s.ctx.zeroing ++ [⟨0, p.base, p.length⟩] } }

/-- The blocks of a context's sequence in a pool that are held: record numbers. -/
def State.sequenceOf (s : State) (p : Pool) (ctag seq : Nat) : List Nat :=
  (p.recs.filter fun r => r.2.state == .held && s.recLive r.2 && r.2.owner == ctag && r.2.sequence == seq).map (·.1)

/-- KV_OFFER, action 1. -/
def kvOffer (h : CmdHdr) (r : KvOfferReq) (s : State) : CmdRes :=
  match s.ownCtx h.sender r.ctag false with
  | .inl (st, s') => .refuse st s'
  | .inr _ => match s.ownCtx h.sender r.toCtag false with
    | .inl (st, s') => .refuse st s'
    | .inr _ => match s.pool? r.pool with
      | none => .refuse ST_ABSENT s
      | some p =>
        let rs := s.sequenceOf p r.ctag r.sequence
        if rs.isEmpty then .refuse ST_ABSENT s
        else if r.toCtag = r.ctag then .refuse ST_RANGE s
        else if rs.any fun i => (p.record i).offer != 0 then .refuse ST_BUSY s
        else if 1024 ≤ s.kv.offers.length then .refuse ST_NOSPACE s
        else
          let n := s.kv.nextOffer
          let s1 := s.modPool r.pool fun p => rs.foldl (fun p i => p.setRec i fun k => { k with offer := n }) p
          .ok (leBytes 4 n ++ zeros 4) { s1 with
            kv := { s1.kv with offers := s1.kv.offers ++ [⟨n, r.ctag, r.toCtag, r.pool⟩], nextOffer := n + 1 } }

/-- The function whose blocks an offer names. -/
def State.offerOwner (s : State) (n : Nat) : Option Nat :=
  (s.kv.offers.find? fun o => o.number == n).map fun o => (s.context o.from_).owner

/-- An offer that the sender may not use is named: ST_OWNER to the PF when its blocks are another function's, ST_ABSENT otherwise, with
the record of R150 (R150, R170). -/
def State.offerRefused (s : State) (x : Sender) (n : Nat) : CmdRes :=
  if isPf x ∧ (s.offerOwner n).any (· != 0) then .refuse ST_OWNER s else .refuse ST_ABSENT (s.foreignNamed x (s.offerOwner n) n)

/-- KV_OFFER, action 2: the offer is cancelled and its marks cleared. -/
def kvCancel (h : CmdHdr) (r : KvOfferReq) (s : State) : CmdRes :=
  match s.ownCtx h.sender r.ctag false with
  | .inl (st, s') => .refuse st s'
  | .inr _ =>
    if s.kv.offers.any fun o => o.number == r.offer && o.from_ == r.ctag then .ok (zeros 8) (s.endOffer r.offer)
    else s.offerRefused h.sender r.offer

/-- KV_OFFER of either action. -/
def cmdKvOffer (h : CmdHdr) (action : Nat) (r : KvOfferReq) (s : State) : CmdRes :=
  if action = 1 then kvOffer h r s else kvCancel h r s

/-- A block taken over by the context that accepts it (R380). -/
def KvRec.accepted (k : KvRec) (ctag incarnation seq : Nat) : KvRec :=
  { k with owner := ctag, incarnation := incarnation, sequence := seq, offer := 0 }

/-- KV_ACCEPT. -/
def cmdKvAccept (h : CmdHdr) (ctag offer seq : Nat) (s : State) : CmdRes :=
  match s.ownCtx h.sender ctag false with
  | .inl (st, s') => .refuse st s'
  | .inr _ => match s.kv.offers.find? fun o => o.number == offer && o.to_ == ctag with
    | none => s.offerRefused h.sender offer
    | some o => match s.pool? o.pool with
      | none => .refuse ST_ABSENT s
      | some p =>
        let rs := (p.recs.filter fun r => r.2.offer == offer).map (·.1)
        if rs.any fun i => decide (1 < (p.record i).count) then .refuse ST_BUSY s
        else
          let s1 := s.modPool o.pool fun p => rs.foldl (fun p i => p.setRec i fun k => k.accepted ctag (s.incarnation ctag) seq) p
          .ok [] (s1.endOffer offer)

/-- KV_HINT. -/
def cmdKvHint (h : CmdHdr) (ctag pool hint seq : Nat) (s : State) : CmdRes :=
  match s.ownCtx h.sender ctag false with
  | .inl (st, s') => .refuse st s'
  | .inr _ => match s.pool? pool with
    | none => .refuse ST_ABSENT s
    | some p =>
      let rs := s.sequenceOf p ctag seq
      .ok [] (s.modPool pool fun p => rs.foldl (fun p i => p.setRec i fun k => { k with hint := hint, hintAt := s.aon.clock }) p)

/-- POOL_CREATE. -/
def execPoolCreate (h : CmdHdr) (pool log2Block tier base length : Nat) (s : State) : Out :=
  .next (s.command h (.poolCreate pool log2Block tier base length) (cmdPoolCreate pool log2Block tier base length))

/-- POOL_DESTROY. -/
def execPoolDestroy (h : CmdHdr) (pool : Nat) (s : State) : Out := .next (s.command h (.poolDestroy pool) (cmdPoolDestroy pool))

/-- KV_OFFER. -/
def execKvOffer (h : CmdHdr) (r : KvOfferReq) (s : State) : Out := .next (s.command h (.kvOffer 1 r) (cmdKvOffer h 1 r))

/-- KV_OFFER with action 2. -/
def execKvOfferCancel (h : CmdHdr) (r : KvOfferReq) (s : State) : Out := .next (s.command h (.kvOffer 2 r) (cmdKvOffer h 2 r))

/-- KV_ACCEPT. -/
def execKvAccept (h : CmdHdr) (ctag offer newSequence : Nat) (s : State) : Out :=
  .next (s.command h (.kvAccept ctag offer newSequence) (cmdKvAccept h ctag offer newSequence))

/-- KV_HINT. -/
def execKvHint (h : CmdHdr) (ctag pool hint sequence : Nat) (s : State) : Out :=
  .next (s.command h (.kvHint ctag pool hint sequence) (cmdKvHint h ctag pool hint sequence))

end Sys2Proof.Machine
end

