-- ==== Sys2Proof/Machine/CmdProgram.lean ====
section
/-! DEFINITION. PROGRAM_LOAD, its checks after acceptance, and PROGRAM_UNLOAD (R163–R172, R194, R246, R276–R279). -/

namespace Sys2Proof.Machine

/-! ## The sections of a program object (R276–R278) -/

/-- The parts of a program object as parsed, or the status of its refusal. -/
abbrev Parsed (α : Type) := Sum Nat α

/-- Records of 16 bytes of a section. -/
def records16 (b : List Byte) : List (List Byte) := chunks 16 b.length b

/-- A broadcast group record. -/
def groupOf (r : List Byte) : GroupRec := ⟨fieldAt r 0 4, fieldAt r 4 1, fieldAt r 5 1, fieldAt r 6 1⟩

/-- A barrier record. -/
def barrierRec (r : List Byte) : BarrierRec := ⟨fieldAt r 0 1, fieldAt r 1 1, fieldAt r 2 1, fieldAt r 3 1, fieldAt r 8 8⟩

/-- An extent list of a live set. -/
def extentList (live : List Byte) (off count : Nat) : List (Nat × Nat) :=
  (List.range count).map fun k => (fieldAt live (off + 8 * k) 4, fieldAt live (off + 8 * k + 4) 4)

/-- The live-state records: they run from the section's start to the first extent list that one of them names (log entry 22). -/
def liveSets (live : List Byte) : Nat → Nat → Nat → Option (List LiveSet)
  | 0, _, _ => some []
  | fuel + 1, at_, stop =>
    if stop < at_ + 16 then some []
    else
      let n := fieldAt live (at_ + 2) 2
      let off := fieldAt live (at_ + 4) 4
      if n < 1 ∨ 16 < n ∨ off < at_ + 16 ∨ live.length < off + 8 * n ∨ zeroAt live (at_ + 8) 8 = false then none
      else (liveSets live fuel (at_ + 16) (min stop off)).map fun r => ⟨fieldAt live at_ 2, extentList live off n⟩ :: r

/-- The bundles of a code section. -/
def codeBundles (code : List Byte) : List Nat := (chunks 32 code.length code).map leNat

/-- The live sets that the SAFEPTs of a code section name. -/
def safeptSets (bs : List Nat) : List Nat := (bs.filter fun b => slotOpcode b 3 == 0x0B).map fun b => bits (slotWord b 3) 0 16

/-- Whether the groups of a die cover its relative indices exactly once (R278). -/
def groupsCover (gs : List GroupRec) (d need : Nat) : Bool :=
  let mine := gs.filter fun g => g.die == d
  (List.range need).all (fun i => (mine.filter fun g => decide (g.first ≤ i ∧ i < g.first + g.count)).length == 1) &&
    mine.all fun g => decide (g.first + g.count ≤ need)

/-- A barrier record's scope is one that R278 lists (log entry 55). -/
def scopeListed (b : BarrierRec) : Bool := decide (1 ≤ b.scope ∧ b.scope ≤ 3)

/-- The ranges of a barrier record (R278). -/
def barrierOk (b : BarrierRec) (spc modes : Nat) : Bool :=
  decide (b.barrier < 8 ∧ b.handle < spc) && bit modes b.handle &&
    (if b.scope = 3 then decide (b.keyWord < 8) else b.keyWord == 0 && b.mask == 0)

/-- A program object read from its bytes, checked as R246 and R276–R278 state. -/
def parseProgram (ctag handle va : Nat) (b : List Byte) : Parsed Program :=
  match sectionOf b 1, sectionOf b 2, sectionOf b 3, sectionOf b 5 with
  | some h, some code, some gsec, some live =>
    let bc := fieldAt h 0x0D 1
    let gc := fieldAt h 0x0E 1
    let spc := fieldAt h 0x0C 1
    let modes := fieldAt h 0x18 8
    let save := fieldAt h 0x10 4
    let bsec := (sectionOf b 4).getD []
    let cores := (List.range 8).map fun d => fieldAt h d 1
    let commons := (List.range 8).map fun d => (fieldAt h (0x20 + 2 * d) 1, fieldAt h (0x21 + 2 * d) 1)
    let gs := (records16 gsec).map groupOf
    let brs := (records16 bsec).map barrierRec
    let bundles := codeBundles code
    let ls := liveSets live (live.length / 16) 0 live.length
    if (bc ≠ 0 ∧ (sectionOf b 4).isNone) ∨ 1 < fieldAt h 0x0F 1 ∨ zeroAt h 0x14 4 = false ∨ zeroAt h 0x30 16 = false ∨
        gsec.length ≠ 16 * gc ∨ bsec.length ≠ 16 * bc ∨ (records16 gsec).any (fun r => !zeroAt r 7 9) ∨
        (records16 bsec).any (fun r => !zeroAt r 4 4) ∨ brs.any (fun x => !scopeListed x) ∨ bundles.any (fun x => !bundleValid x) ∨ ls.isNone ∨
        !((List.range 8).all fun d => groupsCover gs d (cores.getD d 0)) then .inl ST_MALFORMED
    else if 12000 < fieldAt h 8 4 ∨ 16 < spc ∨ 8 < bc ∨ gc < 1 ∨ 64 < gc ∨ save % 4096 ≠ 0 ∨ save < 12288 ∨
        cores.any (fun c => decide (64 < c)) ∨ commons.any (fun c => decide (48 < c.1 + c.2)) ∨ gs.any (fun g => decide (7 < g.die)) ∨
        brs.any (fun x => !barrierOk x spc modes) ∨
        (ls.getD []).any (fun l => decide (save < (l.extents.map (·.2)).sum + 8704) ||
          l.extents.any fun e => decide (e.1 % 64 ≠ 0 ∨ e.2 % 64 ≠ 0 ∨ mib2 < e.1 + e.2)) ∨
        (safeptSets bundles).any (fun n => !((ls.getD []).any fun l => l.id == n)) then .inl ST_RANGE
    else .inr
      { ctag := ctag, handle := handle, objectId := fieldAt b 0x18 8, codeVa := va + sectionOff b 2, codeLen := code.length
        coresPerDie := cores, releaseNs := fieldAt h 8 4, syncPerCore := spc, schedCheck := bit (fieldAt h 0x0F 1) 0
        saveBytes := save, syncModes := modes, commons := commons, groups := gs, barriers := brs, liveSets := ls.getD []
        loaded := true }
  | _, _, _, _ => .inl ST_MALFORMED

/-! ## The commands -/

/-- Program handles loaded in a context. -/
def State.handlesOf (s : State) (ctag : Nat) : Nat := (s.ctx.programs.filter fun p => p.ctag == ctag && p.loaded).length

/-- PROGRAM_LOAD up to its acceptance. -/
def cmdProgramLoad (h : CmdHdr) (ctag _va _len : Nat) (s : State) : CmdRes :=
  match s.ownCtx h.sender ctag false with
  | .inl (st, s') => .refuse st s'
  | .inr _ => if 256 ≤ s.handlesOf ctag then .refuse ST_NOSPACE s else .accept s

/-- A program whose container is good takes the next handle of its context. -/
def State.storeProgram (s : State) (d : Deferred) (ctag : Nat) (p : Program) : State :=
  let s1 := { s with ctx := { s.ctx with
    programs := s.ctx.programs ++ [p]
    ctxs := tabMap (fun t c => if t = ctag then { c with nextHandle := c.nextHandle + 1 } else c) s.ctx.ctxs } }
  s1.notice d ST_OK (pad8 (leBytes 4 p.handle))

/-- What the content of a program object comes to. Where two accepted loads fill the 256 handles, the later one's notice carries
ST_NOSPACE (log entry 100). -/
def State.loadProgram (s : State) (d : Deferred) (ctag va len : Nat) (b : List Byte) : State :=
  match containerStatus 1 s.cfg.minor len b with
  | some st => s.notice d st []
  | none =>
    match parseProgram ctag (s.context ctag).nextHandle va b with
    | .inl st => s.notice d st []
    | .inr p =>
      if !s.sourceMapped ctag p.codeVa p.codeLen 3 then s.notice d ST_RANGE []
      else if 256 ≤ s.handlesOf ctag then s.notice d ST_NOSPACE []
      else s.storeProgram d ctag p

/-- PROGRAM_LOAD_CHECK: the container is read and checked, stored under a handle, or refused in the notice. -/
def execProgramLoadCheck (item : Nat) (data : HostData) (s : State) : Out :=
  .next (
    match s.item item with
    | none => s
    | some d => match d.cmd with
      | .programLoad ctag va len =>
        if !s.supervisorRuns then s
        else match (tabGet? s.ctx.ctxs ctag).filter fun c => !c.dying with
          | none => s.notice d ST_DESTROYED []
          | some _ => match s.sourceBytes ctag va len data with
            | .other => s
            | .fails st => s.notice d st []
            | .bytes b => s.loadProgram d ctag va len b
      | _ => s)

/-- PROGRAM_UNLOAD: the handle is not reissued, and steps launched with it run on (R172). -/
def cmdProgramUnload (h : CmdHdr) (ctag handle : Nat) (s : State) : CmdRes :=
  match s.ownCtx h.sender ctag false with
  | .inl (st, s') => .refuse st s'
  | .inr _ =>
    if s.ctx.programs.any fun p => p.ctag == ctag && p.handle == handle && p.loaded then
      .ok [] { s with ctx := { s.ctx with programs := s.ctx.programs.map fun p =>
        if p.ctag = ctag ∧ p.handle = handle then { p with loaded := false } else p } }
    else .refuse ST_ABSENT s

/-- PROGRAM_LOAD. -/
def execProgramLoad (h : CmdHdr) (ctag va len : Nat) (s : State) : Out :=
  .next (s.command h (.programLoad ctag va len) (cmdProgramLoad h ctag va len))

/-- PROGRAM_UNLOAD. -/
def execProgramUnload (h : CmdHdr) (ctag handle : Nat) (s : State) : Out :=
  .next (s.command h (.programUnload ctag handle) (cmdProgramUnload h ctag handle))

end Sys2Proof.Machine
end

