-- ==== Sys2Proof/Machine/Complexes.lean ====
section
/-! DEFINITION. The Control Complexes: coherence of the active one's L2 (R106–R110), the watch, takeover and restart
(R111–R116), and the role swap they share with a live update (R562, R564). -/

namespace Sys2Proof.Machine

/-! ## The coherent cluster (R106–R110) -/

/-- A line that no core holds; the model's choice is that its 64 bytes are zero (log entry 96). -/
def freshLine : L2Line :=
  { owner := none, sharers := [], modified := false, data := List.replicate 64 0, copies := [], leaving := [] }

/-- The data that a snoop finds: a modified line's in a writeback buffer or at its owner, and the directory's copy otherwise
(R108, R109). -/
def L2Line.current (l : L2Line) : List Byte :=
  match l.leaving.find? (·.modified) with
  | some e => e.data
  | none => match l.owner with
    | some c => if l.modified then tabGet l.data l.copies c else l.data
    | none => l.data

/-- Data and ownership go to a requester, with its store; every other copy is invalid, and eviction notices of the line are acknowledged
as void (R107, R109). -/
def L2Line.own (l : L2Line) (core : Nat) (store : Option (List Byte)) : L2Line :=
  { l with
    owner := some core, sharers := [], modified := store.isSome || l.modified || l.leaving.any (·.modified)
    copies := [(core, store.getD l.current)], leaving := [] }

/-- A shared copy goes to a requester, and the data become the directory's copy. -/
def L2Line.share (l : L2Line) (core : Nat) : L2Line :=
  if l.owner = some core then l
  else
    let who := (l.owner.toList ++ l.sharers).filter (· != core)
    { owner := none, sharers := who ++ [core], modified := false, data := l.current
      copies := (who ++ [core]).foldl (fun t c => tabSet t c l.current) [], leaving := [] }

/-- One request served: kind 0 asks for ownership, 1 for an upgrade and 2 for a shared copy. An upgrade whose shared copy is gone is served
as a full request, with data; one whose copy is there leaves the same state (R107). -/
def L2Line.serve (l : L2Line) (r : OwnRequest) : L2Line := if r.kind = 2 then l.share r.core else l.own r.core r.store

/-- Requests that arrive in one directory cycle, one of each requester, lower numbers first (R106, R107). -/
def cycleOrder (rs : List OwnRequest) : List OwnRequest := (List.range 6).filterMap fun c => rs.find? fun r => r.core == c

/-- The requests of one cycle served one at a time, each complete before the next. -/
def L2Line.serveAll (l : L2Line) (rs : List OwnRequest) : L2Line := (cycleOrder rs).foldl L2Line.serve l

/-- A line of the active complex's L2 changed. -/
def State.modLine (s : State) (line : Nat) (f : L2Line → L2Line) : State :=
  { s with cx := { s.cx with l2 := tabSet s.cx.l2 line (f (tabGet freshLine s.cx.l2 line)) } }

/-- A request for a line arrives at the directory, with the others of the same cycle (R106, R107; log entry 96). -/
def execOwnershipRequest (first : OwnRequest) (line : Nat) (others : List OwnRequest) (s : State) : Out :=
  .next (if s.complex s.cx.active = .active then s.modLine line (·.serveAll (first :: others)) else s)

/-- A core sends an eviction notice: the line stays in its writeback buffer until the directory acknowledges it (R109). -/
def L2Line.evict (l : L2Line) (n : LineNotice) : L2Line :=
  if (l.owner = some n.core ∨ n.core ∈ l.sharers) ∧ !l.leaving.any (fun e => e.core == n.core) then
    { l with leaving := l.leaving ++ [⟨n.core, n.modified && l.owner == some n.core, n.data⟩] }
  else l

/-- A notice reaches the directory, ahead of the requests of its cycle: the data of a modified line become the directory's copy; one of a
core whose copy is gone by then is void (R108, R109). -/
def L2Line.writeback (l : L2Line) (n : LineNotice) : L2Line :=
  let l1 := l.evict n
  match l1.leaving.find? fun e => e.core == n.core with
  | none => l
  | some e =>
    let l2 := { l1 with
      data := if e.modified then e.data else l1.data
      sharers := l1.sharers.filter (· != n.core)
      copies := tabDel l1.copies n.core
      leaving := l1.leaving.filter fun x => x.core != n.core }
    if l2.owner = some n.core then { l2 with owner := none, modified := false } else l2

/-- An eviction notice of a core is sent or reaches the directory, with the requests for its line that arrive in the same cycle after it
(R108, R109; log entry 96). -/
def execLineWriteback (line : Nat) (notice : LineNotice) (requests : List OwnRequest) (s : State) : Out :=
  .next (
    if s.complex s.cx.active = .active then
      s.modLine line fun l => (if notice.arrives then l.writeback notice else l.evict notice).serveAll requests
    else s)

/-! ## The role swap (R104, R111, R562) -/

/-- The images of a staged set come into force with the role: its minor, its slot as the preferred one, and the other library
bank once that is written. The floor rises by an activation alone (R560). -/
def State.adoptSet (s : State) (t : ImageSet) : State :=
  { s with
    cfg := { s.cfg with
      minor := t.minor
      preferred := if s.cx.stagedInStandbyOnly then s.cfg.preferred else 1 - s.cfg.startedFrom
      securityFloor := if t.floorRaise && s.cx.activating then max s.cfg.securityFloor t.security else s.cfg.securityFloor }
    cx := { s.cx with running := some t, staged := none, stagedInStandbyOnly := false }
    fleet := { s.fleet with
      bankInForce := if s.fleet.libStaged.isNone then 1 - s.fleet.bankInForce else s.fleet.bankInForce } }

/-- The standby complex becomes the active one; the former one takes a state, and vector 3 of the PF tells of it (R111, R125). -/
def State.roleSwap (s : State) (former : ComplexState) : State :=
  let old := s.cx.active
  let s1 := (s.setComplex old former).setComplex (1 - old) .active
  let s2 := { s1 with cx := { s1.cx with
    active := 1 - old, standbyReady := false, takeovers := (s1.cx.takeovers + 1) % 2 ^ 32, dispBeat := s1.aon.clock
    supBeat := s1.aon.clock, l2 := [] } }
  (match s2.cx.staged with
  | some t => s2.adoptSet t
  | none => s2).raise 0 3

/-! ## Failure, restart and adoption (R111–R116) -/

/-- The active complex is declared failed and held in reset, with a record; a ready standby takes the role (R111). Cause 1 is an
absent heartbeat, 2 a fatal report. -/
def State.complexFails (s : State) (cause : Nat) : State :=
  let old := s.cx.active
  if s.cx.standbyReady then
    let s1 := (s.cometF5 5 supervisorId old (1 - old) cause).roleSwap .heldInReset
    { s1 with cx := { s1.cx with adopting := true } }
  else
    let s1 := (s.cometF5 5 supervisorId old old cause).setComplex old .heldInReset
    { s1 with cx := { s1.cx with adopting := true, l2 := [] } }

/-- The watch watches an active complex: one that is powered, after phase 0x5 (before it, R90 decides) and not in management
only. -/
def State.watched (s : State) : Bool :=
  s.complex s.cx.active == .active && s.ioPowered s.cx.active && s.pp.state != .mgmtOnly && !(s.pp.state == .startup && decide (s.pp.phase ≤ 5))

/-- A heartbeat has been absent for 500 µs. -/
def State.beatAbsent (s : State) : Bool := decide (500000 ≤ s.aon.clock - min s.cx.dispBeat s.cx.supBeat)

/-- The active Dispatcher (master 1) or Supervisor (master 2) writes the watch (R111). -/
def execComplexHeartbeatWrite (master : Nat) (s : State) : Out :=
  .next (
    if s.complex s.cx.active = .active then
      if master = 1 then { s with cx := { s.cx with dispBeat := s.aon.clock } }
      else if master = 2 then { s with cx := { s.cx with supBeat := s.aon.clock } }
      else s
    else s)

/-- The watch declares the active complex failed, on a fatal report or an absent heartbeat (R111). -/
def execComplexFailure (fatalReport : Bool) (s : State) : Out :=
  .next (
    if s.watched && (fatalReport || s.beatAbsent) then s.complexFails (if fatalReport then 2 else 1) else s)

/-- The failed complex restarts from the images it last ran, or fails to, which leaves no complex: record 0x0501 and management
only (R112, R551). -/
def execComplexRestart (ok : Bool) (s : State) : Out :=
  .next (
    if s.complex s.cx.active = .heldInReset ∧ s.ioPowered s.cx.active ∧ s.pp.state ≠ .mgmtOnly then
      if ok then
        let s1 := s.setComplex s.cx.active .active
        { s1 with cx := { s1.cx with adopting := true, dispBeat := s1.aon.clock, supBeat := s1.aon.clock } }
      else (s.comet 0x0501 4 s.aon.lead none [s.cx.active]).mgmtOnly
    else s)

/-- Deferred FW_ACTIVATE commands end with ST_OK: the swap is done (R562, R564). -/
def State.activated (s : State) : State :=
  let s1 := forEach (s.cx.deferred.filter fun d => d.cmd == .fwActivate) s fun s d => s.notice d ST_OK []
  { s1 with cx := { s1.cx with activating := false } }

/-- The active Supervisor restarts the other complex as standby (R116, R562, R564). -/
def execStandbyRestart (ok : Bool) (s : State) : Out :=
  .next (
    let other := 1 - s.cx.active
    if s.supervisorRuns && (s.complex other == .heldInReset || s.complex other == .restarting) && !s.ioRetired other then
      if ok then
        let s1 := s.setComplex other .standby
        { s1 with cx := { s1.cx with standbyReady := true } }
      else s.setComplex other .heldInReset
    else s)

/-- The standby complex fails: STANDBY_READY reads 0 until it has been restarted (R116, R564). -/
def execStandbyComplexFailure (s : State) : Out :=
  .next (
    if s.complex (1 - s.cx.active) = .standby then
      let s1 := (s.setComplex (1 - s.cx.active) .heldInReset).cometF5 5 supervisorId 1 0 3
      { s1 with cx := { s1.cx with standbyReady := false } }
    else s)

/-- An I/O die is retired; when its complex is the active one its twin takes over first, and without a ready twin no complex is
left (R541, R544, R551). -/
def State.retireIoDie (s : State) (i cause : Nat) : State :=
  if s.cx.active = i then
    if s.cx.standbyReady then (s.complexFails 2).retire (.ioDie i) cause
    else (s.comet 0x0501 4 s.aon.lead none [i]).mgmtOnly
  else (s.setComplex i .heldInReset).retire (.ioDie i) cause

end Sys2Proof.Machine
end

