-- ==== Sys2Proof/Machine/Firmware.lean ====
section
/-! DEFINITION. Image sets and micro-program libraries as bytes, staging and live update (R331–R335, R558–R564), and the firmware update
of the management endpoint (R546). -/

namespace Sys2Proof.Machine

/-! ## Libraries as bytes (R331, R332, R334) -/

/-- A function record. -/
def funcOf (b : List Byte) : FuncRec :=
  { id := fieldAt b 0 2, variant := fieldAt b 2 1, steps := fieldAt b 3 1, first := fieldAt b 4 4, constPg := fieldAt b 8 2
    tables := (List.range 4).map fun i => fieldAt b (0x0C + 2 * i) 2 }

/-- A function record's rsv bytes are zero and its fields lie in their ranges. -/
def funcOk (b : List Byte) : Bool :=
  zeroAt b 0x0A 2 && zeroAt b 0x14 12 && decide (fieldAt b 2 1 ≤ 1 ∧ 1 ≤ fieldAt b 3 1 ∧ fieldAt b 3 1 ≤ 64)

/-- Words of four bytes. -/
def laneWords (b : List Byte) : List Lane := (chunks 4 (b.length / 4) b).map fun w => BitVec.ofNat 32 (leNat w)

/-- The library that the bytes of a container of kind 4 hold, when it passes the checks of R164 and its header agrees with its
sections. -/
def libraryOf (minor : Nat) (b : List Byte) : Option Library :=
  if containerStatus 4 minor b.length b ≠ none then none
  else match sectionOf b 1, sectionOf b 2, sectionOf b 3, sectionOf b 4 with
    | some h, some fs, some ws, some ps =>
      let n := fieldAt h 4 2
      let pages := fieldAt h 8 4
      let words := fieldAt h 12 4
      let recs := chunks 32 n fs
      if n < 1 ∨ 1024 < n ∨ pages < 1 ∨ 256 < pages ∨ words < 1 ∨ 16384 < words ∨ fs.length ≠ 32 * n ∨ ws.length ≠ 4 * words ∨
          ps.length ≠ 4096 * pages ∨ zeroAt h 0x10 48 = false ∨ recs.all funcOk = false then none
      else some { version := fieldAt h 0 4, gateSlot := fieldAt h 6 2, funcs := recs.map funcOf, words := laneWords ws
                  pages := (chunks 4096 pages ps).map laneWords }
    | _, _, _, _ => none

/-! ## Image sets as bytes (R558, R559) -/

/-- Offset of an image record. -/
def imageAt (i : Nat) : Nat := 0x40 + 96 * i

/-- The bytes of the image that a record names. -/
def imageBytes (b : List Byte) (i : Nat) : List Byte := bytesAt b (fieldAt b (imageAt i + 8) 8) (fieldAt b (imageAt i + 16) 8)

/-- The manifest bytes that a record names. -/
def manifestBytes (b : List Byte) (i : Nat) : List Byte := bytesAt b (fieldAt b (imageAt i + 0x18) 8) (fieldAt b (imageAt i + 0x20) 4)

/-- The entries of a manifest. -/
def manifestOf (m : List Byte) : List ManifestEntry :=
  (chunks 16 (m.length / 16) m).map fun e => ⟨fieldAt e 0 1, fieldAt e 1 1, fieldAt e 4 4, fieldAt e 8 4⟩

/-- The rsv bytes of a manifest are zero. -/
def manifestOk (m : List Byte) : Bool := (chunks 16 (m.length / 16) m).all fun e => zeroAt e 2 2 && zeroAt e 12 4

/-- An image record's layout holds within the bytes before the trailer, and its image has its digest. -/
def imageOk (b : List Byte) (i : Nat) : Bool :=
  let o := imageAt i
  let body := b.length - 96
  let off := fieldAt b (o + 8) 8
  let moff := fieldAt b (o + 0x18) 8
  let mlen := fieldAt b (o + 0x20) 4
  zeroAt b (o + 1) 3 && zeroAt b (o + 0x24) 4 && zeroAt b (o + 0x58) 8 &&
    decide (1 ≤ fieldAt b o 1 ∧ fieldAt b o 1 ≤ 4 ∧ off % 4096 = 0 ∧ off + fieldAt b (o + 16) 8 ≤ body ∧ moff + mlen ≤ body ∧ mlen % 16 = 0) &&
    manifestOk (manifestBytes b i) && sha384 (imageBytes b i) == bytesAt b (o + 0x28) 48

/-- Bytes of an image set's fixed part: header and four image records. -/
def setHead : Nat := 0x40 + 96 * 4

/-- The set's layout holds (R558). -/
def setLayout (b : List Byte) : Bool :=
  decide (setHead + 96 ≤ b.length ∧ b.length ≤ 192 * 2 ^ 20 ∧ fieldAt b 0x10 8 = b.length) && fieldAt b 0 4 == 0x54455346 &&
    fieldAt b 4 2 == 1 && fieldAt b 6 2 == 4 && decide (fieldAt b 0x18 1 < 2) && zeroAt b 0x19 39 && (List.range 4).all (imageOk b) &&
    (List.range 4).all fun k => (List.range 4).any fun i => fieldAt b (imageAt i) 1 == k + 1

/-- The bytes of the set that a buffer holds: as many as its own length says. -/
def setBytes (b : List Byte) : List Byte := b.take (fieldAt b 0x10 8)

/-- The set that bytes with a sound layout hold. -/
def setOf (minor : Nat) (b : List Byte) : ImageSet :=
  let rec_ (i : Nat) : ImageRec := ⟨fieldAt b (imageAt i) 1, fieldAt b (imageAt i + 4) 4, manifestOf (manifestBytes b i)⟩
  let images := sortBy (·.kind) ((List.range 4).map rec_)
  let lib := (List.range 4).find? fun i => fieldAt b (imageAt i) 1 == 4
  let sup := ((images.find? fun i => i.kind == 1).map (·.version)).getD 0
  { setVersion := fieldAt b 8 4, security := fieldAt b 12 4, floorRaise := bit (fieldAt b 0x18 1) 0, images := images
    library := lib.bind fun i => libraryOf minor (imageBytes b i), minor := Config.imageMinor sup
    sigOk := ecdsaOk Config.ersovikKey (b.take (b.length - 96)) (b.drop (b.length - 96)) }

/-! ## FW_STAGE (R561) -/

/-- Whether a set's Supervisor and Dispatcher images list the running ones under entry kind 3. -/
def takesOver (t running : ImageSet) : Bool :=
  [1, 2].all fun k => match setImage t k, setImage running k with
    | some a, some r => imageLists a 3 k r.version
    | _, _ => false

/-- The library in force. -/
def State.libInForce (s : State) : Option Library := if s.fleet.bankInForce = 0 then s.fleet.bank0 else s.fleet.bank1

/-- A set's checks after its signature: soundness, the floor, the hand-over and the library. -/
def State.stageSound (s : State) (t : ImageSet) : Bool :=
  setSound t s.cfg.stepping && decide (s.cfg.securityFloor ≤ t.security) && s.cx.running.any (takesOver t) &&
    t.library.any fun l => libSound l && libKeeps l s.libInForce

/-- The status of the first check that the bytes of a set fail. -/
def State.stageStatus (s : State) (b : List Byte) : Nat :=
  let t := setOf s.cfg.minor b
  if !setLayout b then ST_MALFORMED else if !t.sigOk then ST_SIGNATURE else if !s.stageSound t then ST_MANIFEST else ST_OK

/-- FW_STAGE is accepted while a standby complex is ready. -/
def cmdFwStage (source : Hbuf) (s : State) : CmdRes :=
  if !s.cx.standbyReady then .refuse ST_STATE s
  else if source.addr % 64 ≠ 0 then .refuse ST_RANGE s
  else .accept s

/-- FW_STAGE. -/
def execFwStage (h : CmdHdr) (source : Hbuf) (s : State) : Out := .next (s.command h (.fwStage source) (cmdFwStage source))

/-- A set is written to the flash device that the module did not start from, or held by the standby alone. -/
def State.storeSet (s : State) (t : ImageSet) : State :=
  let i := 1 - s.cfg.startedFrom
  if (s.cfg.flash i).ok then
    { s with
      cfg := if i = 0 then { s.cfg with flashA := { s.cfg.flashA with slot := some t } }
        else { s.cfg with flashB := { s.cfg.flashB with slot := some t } }
      cx := { s.cx with stagedInStandbyOnly := false } }
  else { s with cx := { s.cx with stagedInStandbyOnly := true } }

/-- Whether an unended step is bound to the library bank that is not in force (R335). -/
def State.bankBound (s : State) : Bool :=
  s.dq.steps.any fun t => t.ended.isNone && !t.cores.isEmpty && t.libBank != s.fleet.bankInForce

/-- The other library bank is written in every Function Unit, and the notices that waited for it follow. A set whose complex already has
the active role then brings its bank into force. -/
def State.writeBank (s : State) (l : Library) : State :=
  let f := if s.fleet.bankInForce = 0 then { s.fleet with bank1 := some l } else { s.fleet with bank0 := some l }
  let s1 : State := { s with
    fleet := { f with libStaged := none, bankInForce := if s.cx.staged.isNone then 1 - f.bankInForce else f.bankInForce }
    cx := { s.cx with stageItems := [] } }
  forEach (s.cx.deferred.filter fun d => s.cx.stageItems.contains d.id) s1 fun s d => s.notice d ST_OK []

/-- LIBRARY_BANK_WRITE. -/
def execLibraryBankWrite (s : State) : Out :=
  .next (
    match s.fleet.libStaged with
    | some l => if !s.bankBound && s.supervisorRuns then s.writeBank l else s
    | none => s)

/-- A checked set is stored and staged, the standby restarts from it, and the library is written or waits for its bank. -/
def State.stageSet (s : State) (id : Nat) (t : ImageSet) (l : Library) : State :=
  let s1 := s.storeSet t
  let s2 : State := { s1 with
    cx := { s1.cx with staged := some t, stageItems := s1.cx.stageItems ++ [id] }
    fleet := { s1.fleet with libStaged := some l } }
  if s2.bankBound then s2 else s2.writeBank l

/-- FW_STAGE_COMPLETE: the set is read and checked, and staged once the standby stands by. -/
def execFwStageComplete (item : Nat) (data : HostData) (s : State) : Out :=
  .next (
    match s.item item with
    | some d =>
      if !s.supervisorRuns || s.cx.stageItems.contains item then s
      else match d.cmd, s.bufferData ((senderFn d.hdr.sender).getD 0) data with
        | .fwStage src, .ok b =>
          if b.length ≠ src.length then s
          else
            let set := setBytes b
            let st := s.stageStatus set
            let t := setOf s.cfg.minor set
            if st ≠ ST_OK then s.notice d st []
            else if !s.cx.standbyReady then s
            else match t.library with
              | some l => s.stageSet item t l
              | none => s
        | .fwStage _, _ => s.notice d ST_HOSTIO []
        | _, _ => s
    | none => s)

/-! ## FW_ACTIVATE (R562–R564) -/

/-- FW_ACTIVATE is accepted while a set is staged. -/
def cmdFwActivate (s : State) : CmdRes :=
  if s.cx.staged.isNone then .refuse ST_STATE s else .accept { s with cx := { s.cx with activating := true } }

/-- FW_ACTIVATE. -/
def execFwActivate (h : CmdHdr) (s : State) : Out := .next (s.command h .fwActivate cmdFwActivate)

/-- FW_ACTIVATE_HANDOVER: the roles are exchanged, the new set comes into force, the former complex restarts from it, and the notice
follows. -/
def execFwActivateHandover (s : State) : Out :=
  .next (
    if s.cx.activating && s.cx.standbyReady && s.cx.staged.isSome && s.fleet.libStaged.isNone && s.pp.state == .service &&
        s.supervisorRuns then
      (s.roleSwap .restarting).activated
    else s)

/-! ## The management endpoint (R546) -/

/-- PLDM_FIRMWARE_UPDATE: in management only a complete set is written to the flash slot not marked preferred, and takes effect at the
next cold start, which tries it first. -/
def execPldmFirmwareUpdate (set : ImageSet) (s : State) : Out :=
  .next (
    let i := 1 - s.cfg.preferred
    if s.pp.state = .mgmtOnly ∧ (s.cfg.flash i).ok then
      { s with cfg :=
          if i = 0 then { s.cfg with flashA := { s.cfg.flashA with slot := some set }, preferred := i }
          else { s.cfg with flashB := { s.cfg.flashB with slot := some set }, preferred := i } }
    else s)

/-- The response code of an SPDM 1.2 request that the endpoint serves: GET_VERSION, GET_CAPABILITIES, NEGOTIATE_ALGORITHMS, GET_DIGESTS,
GET_CERTIFICATE, CHALLENGE and GET_MEASUREMENTS; any other is answered with ERROR. -/
def spdmResponse (code : Nat) : Nat :=
  if [0x84, 0xE1, 0xE3, 0x81, 0x82, 0x83, 0xE0].contains code then code % 128 else 0x7F

/-- SPDM_REQUEST. -/
def execSpdmRequest (code : Nat) (s : State) : Out :=
  .next (if s.pp.state = .mgmtOnly then s.emit (.spdm (spdmResponse code)) else s)

end Sys2Proof.Machine
end

