-- ==== Sys2Proof/Machine/Limits.lean ====
section
/-! DEFINITION. Power control: the estimate, the limiter and its quota, the governor, droop clamps, Tulle, voltage points, regulators,
thermal limits and telemetry (R507–R537). Powers are in 1/8 W and temperatures in 1/16 °C unless a name says otherwise. -/

namespace Sys2Proof.Machine

/-! ## The live limit and the quota (R513, R514, R518, R519) -/

/-- The limit that the limiter works against. -/
def State.limit (s : State) : Nat := s.liveLimit - s.pwr.trim

/-- The instance of a record about the whole module (R538). -/
def State.moduleInst (s : State) : Nat := 8 + s.cx.active

/-- The dies in service. -/
def State.liveDies (s : State) : List Nat := (List.range 8).filter fun d => !(s.die d).retired

/-- The first cause that holds a quota or a ceiling below the floor (R538), a cut of the limiter now included. -/
def State.floorCause (s : State) (cut : Bool) : Option Nat :=
  let f := qFloor s.pwr.cap
  if s.pwr.q < f ∧ s.pwr.govClamp then some 4
  else if s.pwr.q < f ∧ 0 < s.pwr.coolant then some 5
  else if s.pwr.q < f ∧ cut then some 1
  else if s.liveDies.any fun d => decide ((s.diePower d).currentCeil < f) then some 2
  else if s.liveDies.any fun d => decide ((s.diePower d).thermalCeil < f) then some 3
  else none

/-- In matched mode, record 0x020D while the floor is not held, at most once each second. -/
def State.noteFloor (s : State) (cut : Bool) : State :=
  match s.floorCause cut with
  | none => s
  | some c =>
    if !s.pwr.matched || s.pwr.floorRecAt.any (fun t => decide (s.aon.clock - t < 1000000000)) || !s.supervisorRuns then s
    else { s with pwr := { s.pwr with floorRecAt := some s.aon.clock } }.comet 0x020D 2 s.moduleInst none [s.pwr.q, c]

/-- Matched mode puts the quota at the floor of the cap in force, unless a governor clamp or a coolant reduction holds it below. -/
def State.applyMatched (s : State) : State :=
  if !s.pwr.matched then s
  else
    let f := qFloor s.pwr.cap
    let held := s.pwr.govClamp || decide (0 < s.pwr.coolant)
    ({ s with pwr := { s.pwr with q := if held then min s.pwr.q f else f } }).noteFloor false

/-- CAP_SET. -/
def cmdCapSet (cap : Nat) (s : State) : CmdRes :=
  if cap < 900 ∨ 3600 < cap ∨ cap % 25 ≠ 0 then .refuse ST_RANGE s
  else .ok [] (({ s with pwr := { s.pwr with cap := cap } }.comet 0x020E 1 s.moduleInst none [s.pwr.cap, cap]).applyMatched)

/-- MATCHED_SET. -/
def cmdMatchedSet (m : Nat) (s : State) : CmdRes :=
  if s.pwr.matched = (m == 1) then .ok [] s
  else .ok [] ({ s with pwr := { s.pwr with matched := m == 1 } }).applyMatched

/-- CAP_SET. -/
def execCapSet (h : CmdHdr) (cap : Nat) (s : State) : Out := .next (s.command h (.capSet cap) (cmdCapSet cap))

/-- MATCHED_SET. -/
def execMatchedSet (h : CmdHdr) (matched : Nat) (s : State) : Out := .next (s.command h (.matchedSet matched) (cmdMatchedSet matched))

/-! ## The estimate and the limiter (R510, R511, R514, R529) -/

/-- Whether the limiter, droop sensors and Tulle run. -/
def State.limiting (s : State) : Bool := s.pp.state == .service || s.pp.state == .drain

/-- A die's estimate at the loads, in 1/800 W, its correction or its guard included. -/
def State.dieEstimate (s : State) (d : Nat) (counts : List Nat) : Nat :=
  let p := s.diePower d
  let m := Config.dieModel d (s.die d).point p.hot counts
  if p.senseOut then m * 115 else ((m * 100 : Nat) + 8 * p.correction : Int).toNat

/-- The module estimate of input power, in 1/8 W × 9,406. -/
def State.estimate (s : State) (counts : List Nat) : Nat :=
  100 * ((s.liveDies.map fun d => s.dieEstimate d counts).sum + 100 * Config.restModel counts)

/-- A division rounded up. -/
def ceilDiv (a b : Nat) : Nat := (a + b - 1) / b

/-- A quota in 1/16 cut for an estimate above its limit. -/
def loopCut (q p l share : Nat) : Nat := q - min q (ceilDiv (q * (p - l)) share)

/-- A quota in 1/16 raised for an estimate below its limit. -/
def loopRise (q p l share top : Nat) : Nat := min top (q + min 64 (max 1 (q * (l - p) / share / 2)))

/-- The limiter's new quota, pace and whether it cut, for an estimate and a limit in one unit of which `one` make 1 W. -/
def PowerCtl.loop (w : PowerCtl) (p l fixed one top : Nat) : PowerCtl × Bool :=
  let share := max (p - fixed) one
  if l < p then
    (if 0 < w.q then ({ w with q := loopCut w.q p l share }, true) else ({ w with pace := max 1 (w.pace - 1) }, true))
  else if 100 * p < 98 * l then
    (if w.pace < 8 then ({ w with pace := w.pace + 1 }, false) else ({ w with q := loopRise w.q p l share top }, false))
  else (w, false)

/-- The current limit of a die's core rail in A, by its phases in service. -/
def railLimit (phases : Nat) : Nat := if 14 ≤ phases then 640 else if 8 ≤ phases then 40 * (phases + 2) else 0

/-- A die's current ceiling after an interval: held by the same loop against the current limit at the rail's voltage. -/
def State.currentLoop (s : State) (d : Nat) (counts : List Nat) : Nat :=
  let x := s.diePower d
  if 14 ≤ x.phases then 1536
  else if x.phases < 8 then 0
  else
    let p := 10 * s.dieEstimate d counts
    let l := railLimit x.phases * (x.railMv.getD (Config.fusedMv d (s.die d).point)) * 8
    let share := max (p - 1000 * Config.dieFixed d) 8000
    if l < p then loopCut x.currentCeil p l share else if 100 * p < 98 * l then loopRise x.currentCeil p l share 1536 else x.currentCeil

/-- LIMITER_INTERVAL: the counts of the 2 µs just ended move the quota, the pace and the current ceilings. -/
def execLimiterInterval (activity : List Nat) (s : State) : Out :=
  .next (
    if !s.limiting then s
    else
      let floor := qFloor s.pwr.cap
      let top := if s.pwr.matched then floor else 1536
      let r := s.pwr.loop (s.estimate activity) (s.limit * 9406) (Config.fixedPower * 9406) (8 * 9406) top
      let s1 := forEach s.liveDies { s with pwr := r.1 } fun t d => t.setDiePower d fun x => { x with currentCeil := s.currentLoop d activity }
      s1.noteFloor r.2)

/-- ALLOWANCE_WINDOW_START: a core's allowance for a window that holds matrix cycles of some formats: the smallest of theirs, at most 32
under a droop clamp, and 0 in a DRAIN that is unwarned. -/
def execAllowanceWindowStart (core : Nat) (formats : List Nat) (s : State) : Out :=
  .next (
    if 512 ≤ core then s
    else
      let p := s.diePower (core / 64)
      let a := ((if formats.isEmpty then [0] else formats).map fun f => allowanceOf s.pwr.matched f (min s.pwr.q p.ceiling)).foldl min 64
      let b := if p.droop then min a 32 else a
      let zero : Bool := s.pp.state == .drain && !s.pp.warned
      s.setCore core fun c => { c with allowance := if zero then 0 else b, spent := 0 })

/-- CORRECTION_UPDATE: the sensed power less the model, within 15 % of the model; none while the sense is excluded. -/
def execCorrectionUpdate (die sensedW modelW : Nat) (s : State) : Out :=
  .next (
    if 8 ≤ die then s
    else s.setDiePower die fun x =>
      let c := 100 * ((sensedW : Int) - modelW)
      { x with correction := if x.senseOut then 0 else max (-(15 * modelW : Int)) (min (15 * modelW) c) })

/-! ## The governor (R512, R521, R522) -/

/-- GOVERNOR_TRIM: the measured mean of 1 ms against the live limit. -/
def execGovernorTrim (meanW : Nat) (s : State) : Out :=
  .next (
    let l := s.liveLimit
    let above := decide (102 * l < 800 * meanW)
    let n := if above then s.pwr.overCount + 1 else 0
    let trim :=
      if 2 ≤ n then min 3200 (s.pwr.trim + (8 * meanW - l))
      else if 800 * meanW < 98 * l then s.pwr.trim - 80 else s.pwr.trim
    if !s.limiting then s else { s with pwr := { s.pwr with trim := trim, overCount := n } })

/-- The active Power Controller's master identity. -/
def powerMaster : Nat := 3

/-- Time in ns without a heartbeat after which the governor clamps. -/
def govPatience : Nat := 100000

/-- GOVERNOR_HEARTBEAT: only the active Power Controller's write counts, while its complex runs (R113, R521); it releases a clamp with record 0x0202. -/
def execGovernorHeartbeat (master : Nat) (s : State) : Out :=
  .next (
    if master ≠ powerMaster ∨ !s.masterRuns master then s
    else
      let s1 := { s with pwr := { s.pwr with govBeat := s.aon.clock, govClamp := false } }
      if s.pwr.govClamp then s1.comet 0x0202 1 s.moduleInst none (words2 (s.aon.clock - s.pwr.clampAt)) else s1)

/-- GOVERNOR_CLAMP: 100 µs have passed without a heartbeat; record 0x0201. -/
def execGovernorClamp (s : State) : Out :=
  .next (
    if s.limiting && !s.pwr.govClamp && decide (govPatience ≤ s.aon.clock - s.pwr.govBeat) then
      ({ s with pwr := { s.pwr with govClamp := true, clampAt := s.aon.clock } }).comet 0x0201 3 s.moduleInst none
        (words2 (s.aon.clock - s.pwr.govBeat) ++ [s.pwr.cap])
    else s)

/-! ## Droop and Tulle (R523–R526) -/

/-- The clamp time of a die counts from nothing in each new second. -/
def DiePower.second (d : DiePower) (now : Nat) : DiePower :=
  if d.droopSecond = now / 1000000000 then d
  else { d with droopSecond := now / 1000000000, droopTime := 0, droopRecorded := false }

/-- DROOP_DETECT. -/
def execDroopDetect (die : Nat) (s : State) : Out :=
  .next (
    if 8 ≤ die ∨ !s.limiting ∨ (s.die die).retired then s
    else s.setDiePower die fun x =>
      if x.droop then { x with lastLow := s.aon.clock }
      else { x.second s.aon.clock with droop := true, lastLow := s.aon.clock, droopSince := s.aon.clock, droopsNow := x.droopsNow + 1 })

/-- DROOP_RELEASE: 1 µs after the last low reading. More than 1 % of a second in clamps is recorded once in it. -/
def execDroopRelease (die : Nat) (s : State) : Out :=
  .next (
    let x := s.diePower die
    if 8 ≤ die ∨ !x.droop ∨ s.aon.clock - x.lastLow < 1000 then s
    else
      let y := x.second s.aon.clock
      let time := y.droopTime + (s.aon.clock - max x.droopSince (y.droopSecond * 1000000000))
      let above := decide (10000000 < time) && !y.droopRecorded
      let s1 := s.setDiePower die fun _ => { y with droop := false, droopTime := time, droopRecorded := y.droopRecorded || above }
      if above then s1.comet 0x0208 2 die none ([die, 2] ++ words2 time) else s1)

/-- Readings of a die's current that make 8 µs. -/
def tulleReadings : Nat := 80

/-- TULLE_INTERVAL: filling cores, of those stalled or idle, hold the die's current above 0.40 of its moving average and above its last
reading less 2.56 A. -/
def execTulleInterval (die currentMa stalled : Nat) (s : State) : Out :=
  .next (
    if 8 ≤ die ∨ !s.limiting then s
    else
      let x := s.diePower die
      let now := (currentMa :: x.currents).take tulleReadings
      let target := max (2 * now.sum / (5 * now.length)) (x.currents.headD currentMa - 2560)
      let each := Config.fillerMa die + 1
      let want := if currentMa < target then x.filling + ceilDiv (target - currentMa) each else x.filling - (currentMa - target) / each
      let may : Bool := s.pp.state == .service && decide (0 < allowanceOf s.pwr.matched 0 (min s.pwr.q x.ceiling))
      s.setDiePower die fun x => { x with currents := now, filling := if may then min stalled want else 0 })

/-! ## Voltage points and regulators (R508, R509, R528–R531) -/

/-- VOLTAGE_POINT_ADJUST: the Power Controller moves a die's point by one, or in matched mode to 15. -/
def execVoltagePointAdjust (die : Nat) (s : State) : Out :=
  .next (
    let x := s.diePower die
    let d := s.die die
    let order (p : Nat) : State :=
      (s.setDie die fun y => { y with ordered := some p, orderedAt := s.aon.clock }).setDiePower die fun y => { y with pointAt := s.aon.clock }
    if 8 ≤ die ∨ d.retired ∨ d.power ≠ .active ∨ d.ordered.isSome ∨ s.pwr.govClamp ∨ !s.supervisorRuns ∨ !s.limiting then s
    else if s.pwr.matched then (if d.point = 15 then s else order 15)
    else if x.thermalCeil < 1536 then
      (if 10000000 ≤ s.aon.clock - x.thermalSince ∧ 10000000 ≤ s.aon.clock - x.pointAt ∧ 8 < d.point then order (d.point - 1) else s)
    else if x.hot ≤ 90 * 16 ∧ 100000000 ≤ s.aon.clock - x.pointAt ∧ d.point < 15 then order (d.point + 1) else s)

/-- The value that a refused regulator command named. -/
def regValue (c : RegCmd) : Nat :=
  match c with
  | .setRail mv => mv
  | .namePoint p => p
  | .setLimit v => v

/-- Whether the guard refuses a command. -/
def State.guardRefuses (s : State) (die : Nat) (c : RegCmd) : Bool :=
  match c with
  | .setRail mv => decide (Config.fusedMv die (s.die die).point < mv)
  | .namePoint p => decide (15 < p)
  | .setLimit _ => true

/-- REGULATOR_COMMAND of an agent that works: the guard refuses it with record 0x0203, or it is done; during a governor clamp none is
taken, and during an adoption pause none is made (R113, R508, R522). -/
def execRegulatorCommand (master die : Nat) (cmd : RegCmd) (s : State) : Out :=
  .next (
    if 8 ≤ die ∨ !s.masterRuns master ∨ s.cx.adopting then s
    else if s.guardRefuses die cmd then s.comet 0x0203 3 die none [master, die, regValue cmd]
    else if s.pwr.govClamp then s
    else match cmd with
      | .setRail mv => s.setDiePower die fun x => { x with railMv := some mv }
      | .namePoint p => s.setDie die fun x => { x with ordered := some p, orderedAt := s.aon.clock }
      | .setLimit _ => s)

/-- A phase of a die's core rail is excluded: the current limit and the ceiling follow, and below 8 phases the die is retired. -/
def State.corePhase (s : State) (die phase : Nat) : State :=
  let x := s.diePower die
  if x.phasesOut.contains phase ∨ 16 ≤ phase then s
  else
    let y : DiePower := { x with phasesOut := phase :: x.phasesOut }
    let z : DiePower := { y with currentCeil := if y.phases < 8 then 0 else y.currentCeil }
    let s1 := (s.setDiePower die fun _ => z).comet 0x0204 2 die none [die, phase, y.phases]
    let s2 := if railLimit y.phases = railLimit x.phases then s1 else s1.comet 0x0206 2 die none [die, railLimit y.phases]
    if y.phases < 8 ∧ s2.supervisorRuns then s2.retire (.die die) 2 else s2

/-- The instance of a rail's record: rails 8 to 15 are the HBM rails of the dies, 16 to 23 their LPDDR5X rails, 24 and 25 the I/O dies'. -/
def railInst (rail : Nat) : Nat := if rail < 24 then rail % 8 else 8 + (rail - 24)

/-- A second phase lost on one of the other rails takes what it feeds out of service. -/
def railUnits (rail : Nat) : List UnitRef :=
  if rail < 16 then [.half (rail % 8 * 4), .half (rail % 8 * 4 + 1)]
  else if rail < 24 then [.half (rail % 8 * 4 + 2), .half (rail % 8 * 4 + 3)]
  else [.ioDie (rail - 24)]

/-- PHASE_FAILURE: rails 0 to 7 are the core rails; one of the others loses a phase without derating, and fails with a second. The phases
left on these are not stated: a free value. -/
def execPhaseFailure (rail phase : Nat) (s : State) : Out :=
  .next (
    if rail < 8 then s.corePhase rail phase
    else if 26 ≤ rail then s
    else
      let n := tabGet 0 s.pwr.railPhases rail + 1
      let v := s.draw
      let s1 := ({ v.2 with pwr := { v.2.pwr with railPhases := tabSet v.2.pwr.railPhases rail n } }).comet 0x0204 2 (railInst rail) none
        [rail, phase, v.1]
      if n = 2 ∧ s1.supervisorRuns then forEach (railUnits rail) s1 fun s u => (match u with
        | .ioDie i => s.retireIoDie i 3
        | _ => s.retire u 3) else s1)

/-- CURRENT_SENSE_EXCLUDED. -/
def execCurrentSenseExcluded (die cause : Nat) (s : State) : Out :=
  .next (
    if 8 ≤ die ∨ (s.diePower die).senseOut ∨ (cause ≠ 1 ∧ cause ≠ 2) then s
    else (s.setDiePower die fun x => { x with senseOut := true, correction := 0 }).comet 0x0205 2 die none [die, cause])

/-! ## Thermal limits (R532–R535) -/

/-- The hottest of some readings; none of an empty list. -/
def hottest (xs : List Int) : Option Int := xs.foldl (fun a x => some (match a with
  | none => x
  | some y => max x y)) none

/-- The ceiling of an effective temperature, in 1/16. -/
def thermalCeiling (t : Int) : Nat :=
  if t < 1520 then 1536 else if t < 1680 then 1024 * (1680 - t).toNat / 160 else 0

/-- THERMAL_SAMPLE: a die's effective temperature sets its ceiling and pace. -/
def execThermalSample (die : Nat) (sensors hbm : List Int) (s : State) : Out :=
  .next (
    match hottest sensors, hottest (sensors ++ hbm.map (· + 80)) with
    | some h, some t =>
      if 8 ≤ die then s
      else
        let x := s.diePower die
        let c := thermalCeiling t
        let enters := decide (x.thermalCeil = 1536 ∧ c < 1536)
        let s1 := s.setDiePower die fun y => { y with
          hot := h, hotMax := max y.hotMax h, thermalCeil := c, thermalPace := if 1680 ≤ t then 4 else 8
          thermalSince := if enters then s.aon.clock else y.thermalSince }
        (if enters then s1.comet 0x0208 2 die none [die, 1, ofSigned 32 t] else s1).noteFloor false
    | _, _ => s)

/-- COOLANT_SAMPLE: the reduction of the live limit, and the flow-suspect and inlet-high records of 0x0209. -/
def execCoolantSample (inlet outlet : Int) (meanW : Nat) (s : State) : Out :=
  .next (
    let cut := 75 * (outlet - 1120).toNat
    let note (s : State) (mark : Nat) : State :=
      s.comet 0x0209 2 s.moduleInst none [ofSigned 32 inlet, ofSigned 32 outlet, cut, mark]
    let s1 := { s with pwr := { s.pwr with inlet := inlet, outlet := outlet, coolant := cut } }
    let s2 := if cut = s.pwr.coolant then s1 else note s1 0
    let s3 := if 20000 * (meanW : Int) < 132600 * (outlet - inlet) then note s2 1 else s2
    let s4 := if 640 < inlet ∧ !s.pwr.inletRecAt.any (fun t => decide (s.aon.clock - t < 60000000000)) then
        note { s3 with pwr := { s3.pwr with inletRecAt := some s.aon.clock } } 2 else s3
    if s.pp.aonPowered then s4 else s)

/-- The trip threshold of a place: dies, HBM stacks, the outlet. -/
def tripAt (place : Nat) : Int := if place < 10 then 1840 else if place = 10 then 1680 else 1280

/-- THERMAL_TRIP: a warned DRAIN, then RETAIN, with the thermal hold set. -/
def execThermalTrip (place index : Nat) (reading : Int) (s : State) : Out :=
  .next (
    let armed : Bool := s.pp.state == .service || s.pp.state == .drain || s.pp.state == .retain || s.pp.state == .startup
    if 11 < place ∨ reading < tripAt place ∨ !armed ∨ s.pp.thermalHold then s
    else
      let s1 := { s with pp := { s.pp with thermalHold := true, thermalHoldSince := s.aon.clock } }
      let s2 := s1.comet 0x020A 3 (if place < 10 then place else if place = 10 then index / 2 else s.moduleInst) none [place * 256 + index, ofSigned 32 reading]
      if s.pp.state == .service then s2.enterDrain true else s2)

/-- THERMAL_HOLD_RELEASE: for 1 s every sensor has read within its limit, so at least 1 s has passed since the trip. -/
def execThermalHoldRelease (dies hbm : List Int) (outlet : Int) (s : State) : Out :=
  .next (
    if s.pp.thermalHold && decide (1000000000 ≤ s.aon.clock - s.pp.thermalHoldSince) && dies.all (fun t => decide (t ≤ 1360)) && hbm.all (fun t => decide (t ≤ 1360)) && decide (outlet ≤ 960) then
      ({ s with pp := { s.pp with thermalHold := false } }).comet 0x020B 1 s.moduleInst none (words2 (s.aon.clock - s.pp.thermalHoldSince))
    else s)

/-! ## Telemetry (R131, R537) -/

/-- TELEMETRY_REFRESH. -/
def execTelemetryRefresh (t : Telemetry) (s : State) : Out :=
  .next (
    if !s.pp.aonPowered then s
    else
      let s1 := { s with pwr := { s.pwr with
        meanW := t.meanW % 65536, peakW := t.peakW % 65536, imain := t.imain % 65536, energyMj := (s.pwr.energyMj + t.energyMj) % 2 ^ 64 } }
      forEach (List.range 8) s1 fun s d => s.setDiePower d fun x => { x with
        dieW := t.dieW.getD d 0 % 65536, droops := min 8191 x.droopsNow, droopsNow := 0, tempMax := max x.hot x.hotMax / 16, hotMax := x.hot })

end Sys2Proof.Machine
end

