-- ==== Sys2Proof/Machine/Mailbox.lean ====
section
/-! DEFINITION. Mailbox channels, MSI-X vectors, register writes from the host, replies, function-level resets and the
security features of the host interface (R7–R12, R81, R117–R137, R155, R226, R575). -/

namespace Sys2Proof.Machine

/-! ## Channels (R117–R124) -/

/-- The other master of a channel's pair. -/
def State.otherMaster (s : State) (c m : Nat) : Nat := ((s.boundPair c).map fun p => if p.1 = m then p.2 else p.1).getD 0

/-- A discarded write or a refused claim, with its record (R119–R122, R127). -/
def State.mbxDiscard (s : State) (c m : Nat) : State := s.cometF0 5 (m % 4096) c m

/-- The message interrupt of a channel at a master: vector 0 of a host function whose MSG_EN is set (R125). -/
def State.raiseMsg (s : State) (c m : Nat) : State :=
  match fnOf m with
  | some f => if (s.chan c).msgEn then s.raise f 0 else s
  | none => s.emit (.interrupt m c false)

/-- The empty interrupt of a channel at a master: vector 1 of a host function whose EMPTY_EN is set (R121, R125). -/
def State.raiseEmpty (s : State) (c m : Nat) : State :=
  match fnOf m with
  | some f => if (s.chan c).emptyEn then s.raise f 1 else s
  | none => s.emit (.interrupt m c true)

/-- A channel as a send leaves it. -/
def Channel.send (x : Channel) (m order : Nat) : Channel :=
  { x with full := true, taken := false, withdrawn := false, sent := (x.sent + 1) % 65536, lastSender := m, order := order }

/-- A read of LOCK.CLAIM by a master, of bytes of it: it acts on the whole register (R12, R119). -/
def State.claim (s : State) (m c off size : Nat) : State :=
  if !s.bound c m then (s.emit (.readData m (narrowed 0xFFFF off size))).mbxDiscard c m
  else if (s.chan c).owner = 0 then (s.setChan c fun x => { x with owner := m }).emit (.readData m 0)
  else s.emit (.readData m (narrowed (s.chan c).owner off size))

/-- A write of MBX.SEND (R120). -/
def State.sendMsg (s : State) (m c : Nat) : State :=
  if s.bound c m && (s.chan c).owner == m && !(s.chan c).full then
    let s1 := s.setChan c (·.send m s.mbx.sends)
    { s1 with mbx := { s1.mbx with sends := s1.mbx.sends + 1 } }.raiseMsg c (s.otherMaster c m)
  else s.mbxDiscard c m

/-- Whether a master is the receiver of the message on a channel. -/
def State.receives (s : State) (m c : Nat) : Bool := s.bound c m && (s.chan c).owner != m && (s.chan c).full

/-- A write of MBX.TAKE (R121). -/
def State.takeMsg (s : State) (m c : Nat) : State :=
  if s.receives m c then s.setChan c fun x => { x with taken := true } else s.mbxDiscard c m

/-- The bytes of a channel's buffer. -/
def Channel.message (x : Channel) : List Byte := (List.range 256).map fun i => tabGet 0 x.buf i

/-- A write of MBX.DONE (R121). The endpoint carries what it has read of channel 523 to the BMC over MCTP (R118, R155). -/
def State.doneMsg (s : State) (m c : Nat) : State :=
  if s.receives m c then
    let s1 := if c = 523 then s.emit (.mctp ((s.chan c).message.take (16 + fieldAt (s.chan c).message 6 2))) else s
    (s1.setChan c fun x => { x with full := false, taken := false, owner := 0 }).raiseEmpty c (s.chan c).owner
  else s.mbxDiscard c m

/-- A write of MBX.WITHDRAW; one that has lost the race of R123 leaves no record (R122). -/
def State.withdrawMsg (s : State) (m c : Nat) : State :=
  let x := s.chan c
  if s.bound c m && x.owner == m && x.full && !x.taken then
    s.setChan c fun x => { x with full := false, withdrawn := true, owner := 0 }
  else if m = x.lastSender ∧ (x.taken ∨ !x.full) then s
  else s.mbxDiscard c m

/-- A write of LOCK.RELEASE (R122). -/
def State.releaseLock (s : State) (m c : Nat) : State :=
  if s.bound c m && (s.chan c).owner == m && !(s.chan c).full then s.setChan c fun x => { x with owner := 0 }
  else s.mbxDiscard c m

/-- A write of bytes of the buffer (R120). -/
def State.writeBuf (s : State) (m c off : Nat) (bs : List Byte) : State :=
  if s.bound c m && (s.chan c).owner == m && !(s.chan c).full then
    s.setChan c fun x => { x with buf := (List.range bs.length).foldl (fun t i => tabSet t (off + i) (bs.getD i 0)) x.buf }
  else s.mbxDiscard c m

/-- LOCK_CLAIM (R119), whole or of naturally aligned bytes (R12). -/
def execLockClaim (a : Access) (read : LockRead) (s : State) : Out :=
  .next (if s.accepts a ∧ read.channel < 544 then s.claim a.master read.channel read.off read.size else s)

/-- MBX_SEND (R120). -/
def execMbxSend (a : Access) (channel : Nat) (s : State) : Out :=
  .next (if s.accepts a ∧ channel < 544 then s.sendMsg a.master channel else s)

/-- MBX_TAKE (R121). -/
def execMbxTake (a : Access) (channel : Nat) (s : State) : Out :=
  .next (if s.accepts a ∧ channel < 544 then s.takeMsg a.master channel else s)

/-- MBX_DONE (R121). -/
def execMbxDone (a : Access) (channel : Nat) (s : State) : Out :=
  .next (if s.accepts a ∧ channel < 544 then s.doneMsg a.master channel else s)

/-- MBX_WITHDRAW (R122, R123). -/
def execMbxWithdraw (a : Access) (channel : Nat) (s : State) : Out :=
  .next (if s.accepts a ∧ channel < 544 then s.withdrawMsg a.master channel else s)

/-- LOCK_RELEASE (R122). -/
def execLockRelease (a : Access) (channel : Nat) (s : State) : Out :=
  .next (if s.accepts a ∧ channel < 544 then s.releaseLock a.master channel else s)

/-! ## MSI-X (R125, R135, R575) -/

/-- The pending messages of a function's unmasked vectors are sent, once a port can carry them. -/
def State.sendPending (s : State) (f : Nat) : State :=
  match s.fnPort f with
  | none => s
  | some p =>
    if (s.fn f).fnMask then s
    else forEach (List.range 4) s fun s v =>
      match (s.fn f).vecs[v]? with
      | some x =>
        if x.pending && !x.masked then
          (s.setFn f fun h => { h with vecs := h.vecs.mapIdx fun i y => if i = v then { y with pending := false } else y }).sendMsix f v p
        else s
      | none => s

/-- A vector's mask bit. -/
def State.maskVec (s : State) (f v : Nat) (m : Bool) : State :=
  (s.setFn f fun h => { h with vecs := h.vecs.mapIdx fun i x => if i = v then { x with masked := m } else x }).sendPending f

/-- MSIX_UNMASK of a vector, or of the function's mask (R575). -/
def execMsixUnmask (function : Nat) (vector : Option Nat) (s : State) : Out :=
  .next (
    if 256 ≤ function then s
    else match vector with
      | some v => s.maskVec function v false
      | none => (s.setFn function fun h => { h with fnMask := false }).sendPending function)

/-! ## Register writes (R7–R12, R126–R138) -/

/-- A write to FLT registers of a function (R133, R134); what it writes to RSV fields is discarded (R11). -/
def HostFn.fltWrite (h : HostFn) (off v : Nat) : HostFn :=
  if off = 0x000 then (if h.fltEnable then h else { h with fltBase := v / 4096 * 4096 })
  else if off = 0x008 then
    if h.fltEnable ∧ bit v 63 then h
    else { h with fltLog2 := v % 32, fltEnable := bit v 63 && decide (6 ≤ v % 32 ∧ v % 32 ≤ 16) }
  else if off = 0x018 then { h with fltConsumer := v % 2 ^ 32 }
  else if off = 0x020 then { h with fltWriteError := h.fltWriteError && !bit v 1, fltHeldBit := h.fltHeldBit && !bit v 0 }
  else h

/-- Whether a 64-bit register lies at an offset of a block of 4 KiB: 0 ID, 1 TIME, 2 PWR, 3 LOG, 4 FLT, 5 RLY. -/
def blockHas (block off : Nat) : Bool :=
  match block with
  | 0 => decide (off < 0x38)
  | 1 => decide (off < 0x18)
  | 2 => decide (off < 0x38 ∨ (0x100 ≤ off ∧ off < 0x140))
  | 3 => decide (off < 0x10)
  | 4 => decide (off < 0x28)
  | 5 => decide (off < 0x20 ∨ (0x100 ≤ off ∧ off < 0x190) ∨ (0x200 ≤ off ∧ off < 0x290))
  | _ => false

/-- What an offset of a function's BAR reaches. -/
inductive Target where
  | reserved
  | register (block off : Nat)
  | msix (off : Nat)
  | buffer (channel off : Nat)
  | page (channel off : Nat)
  | queue (page off : Nat)
  | window (member page off : Nat)

/-- Registers of a channel page (R137). -/
def pageRegs : List Nat := [0x100, 0x108, 0x110, 0x118, 0x120, 0x128, 0x200, 0x208]

/-- What an offset of a channel page reaches. -/
def pageTarget (c off : Nat) : Target :=
  if off < 0x100 then .buffer c off else if pageRegs.contains (off / 8 * 8) then .page c off else .reserved

/-- What an offset of a register block reaches. -/
def blockTarget (block off : Nat) : Target := if blockHas block off then .register block off else .reserved

/-- Where an offset of a BAR of a function leads (R126–R128, R138, R140, R141). -/
def target (f bar off : Nat) : Target :=
  if bar = 0 ∧ f = 0 then
    if off < 0x6000 then blockTarget (off / 4096) (off % 4096)
    else if off < 0x7000 then .msix (off % 4096)
    else if 0x100000 ≤ off ∧ off < 0x300000 then pageTarget ((off - 0x100000) / 4096) (off % 4096)
    else .reserved
  else if bar = 0 then
    if off < 0x2000 then blockTarget (off / 4096) (off % 4096)
    else if off < 0x3000 then .msix (off % 4096)
    else if 0x4000 ≤ off ∧ off < 0x5000 then blockTarget 4 (off % 4096)
    else if 0x8000 ≤ off ∧ off < 0xA000 then pageTarget (2 * f + (off - 0x8000) / 4096) (off % 4096)
    else .reserved
  else if bar = 2 then (if off < (if f = 0 then 2 ^ 22 else 2 ^ 18) ∧ off % 64 < 0x28 then .queue (off / 4096) (off % 4096) else .reserved)
  else if bar = 4 ∧ f = 0 then
    (if off < 2 ^ 28 ∧ off % 64 < 0x28 then .window (off / 2 ^ 22) (off % 2 ^ 22 / 4096) (off % 4096) else .reserved)
  else .reserved

/-- A narrow or misaligned write to a 64-bit register: discarded, with the record of R12. -/
def State.narrowWrite (s : State) (a : Access) (bar off : Nat) : State :=
  s.comet 0x05F0 2 (a.master % 4096) none [off, bar + a.port * 256, a.master]

/-- A whole 64-bit write to a register of a channel page: those of others than functions 0's two pages reach the PF only to be
discarded, with a record where R127 names it. -/
def State.pageWrite (s : State) (m c off v : Nat) : State :=
  if off = 0x100 then s.sendMsg m c
  else if off = 0x110 then s.takeMsg m c
  else if off = 0x118 then s.doneMsg m c
  else if off = 0x120 then s.withdrawMsg m c
  else if off = 0x208 then s.releaseLock m c
  else if off = 0x128 then
    if s.bound c m then s.setChan c fun x => { x with emptyEn := bit v 1, msgEn := bit v 0 } else s
  else s

/-- A vector's message address and data changed. -/
def State.modVec (s : State) (f e : Nat) (g : Vec → Vec) : State :=
  s.setFn f fun h => { h with vecs := h.vecs.mapIdx fun i x => if i = e then g x else x }

/-- A write to the MSI-X table, laid out as PCIe lays it out: in each 16-byte entry the message address, the message data and the vector
control word, whose bit 0 is the mask (R125, R575). -/
def State.msixWrite (s : State) (f off size v : Nat) : State :=
  let e := off / 16
  if 4 ≤ e then s
  else match off % 16, size with
    | 0, 4 => s.modVec f e fun x => { x with addr := x.addr / 2 ^ 32 * 2 ^ 32 + v }
    | 4, 4 => s.modVec f e fun x => { x with addr := v * 2 ^ 32 + x.addr % 2 ^ 32 }
    | 0, 8 => s.modVec f e fun x => { x with addr := v }
    | 8, 4 => s.modVec f e fun x => { x with data := v }
    | 12, 4 => s.maskVec f e (bit v 0)
    | 8, 8 => (s.modVec f e fun x => { x with data := v % 2 ^ 32 }).maskVec f e (bit v 32)
    | _, _ => s

/-- A write to a function's configuration space on a port (R27, R572, R575), which the model numbers as BAR 8 and whose offsets are those
of log entry 8: the Command register of the PF, the MSI-X Message Control of a function, and the PF's SR-IOV Control with NumVFs above
it. -/
def State.configWrite (s : State) (port f off size v : Nat) : State :=
  if !(s.port port).up || !(s.port port).cfgReady || !(s.port port).on f then s
  else match off, size with
    | 0x04, 2 => if f = 0 then s.setPort port fun x => { x with pfMem := bit v 1 } else s
    | 0x42, 2 =>
      let s1 := s.setFn f fun h => { h with fnMask := bit v 14 }
      if bit v 14 then s1 else s1.sendPending f
    | 0x108, 4 =>
      if f = 0 ∧ v / 65536 < 256 then
        let s1 := s.setPort port fun x => { x with vfs := if bit v 0 then v / 65536 else 0, vfMem := bit v 3 }
        forEach (s1.host.fns.map (·.1)) s1 State.flushFn
      else s
    | _, _ => s

/-- A write of a register by a host function (R7, R11, R12, R126). A write to a position of VF BAR2 that holds no page reaches no register,
so that it leaves no record (R141, log entry 102). -/
def State.hostWrite (s : State) (a : Access) (f bar off size v : Nat) : State :=
  let whole := size == 8 && off % 8 == 0
  match target f bar off with
  | .reserved => s
  | .msix o => s.msixWrite f o size v
  | .buffer c o => if s.bound c a.master then s.writeBuf a.master c o (leBytes size v) else s
  | .page c o => if whole then s.pageWrite a.master c o v else s.narrowWrite a bar off
  | .register b o =>
    if !whole then s.narrowWrite a bar off
    else if b = 4 then s.setFn f (·.fltWrite o v)
    else if b = 3 ∧ o = 8 then { s with rel := { s.rel with dumpValid := s.rel.dumpValid && !bit v 0 } }
    else s
  | .queue p o =>
    if f ≠ 0 ∧ !(s.dq.groups.any fun g => g.2.fn == f && g.2.vfPage == p) then s
    else if !whole then s.narrowWrite a bar off
    else if o % 64 = 0 then s.portDoorbell a p (o / 64) v
    else s
  | .window m p o =>
    if !whole then s.narrowWrite a bar off
    else if o % 64 ≠ 0 then s
    else if m = s.fab.device then s.portDoorbell a p (o / 64) v
    else s.windowDoorbell a.master m (p * 64 + o / 64) v

/-- A write to a channel page by a master of the module, which reaches the pages of every channel where PF BAR0 has those of the host's
(R118, R120). -/
def State.systemWrite (s : State) (a : Access) (off size v : Nat) : State :=
  if off < 0x100000 ∨ 0x100000 + 544 * 4096 ≤ off then s
  else match pageTarget ((off - 0x100000) / 4096) (off % 4096) with
    | .buffer c o => s.writeBuf a.master c o (leBytes size v)
    | .page c o => if size = 8 ∧ off % 8 = 0 then s.pageWrite a.master c o v else s.narrowWrite a 0 off
    | _ => s

/-- REGISTER_WRITE (R7): sizes of 1, 2, 4 and 8 bytes. -/
def execRegisterWrite (a : Access) (bar offset size value : Nat) (s : State) : Out :=
  .next (
    if !(size == 1 || size == 2 || size == 4 || size == 8) || decide (2 ^ (8 * size) ≤ value) then s
    else match fnOf a.master with
      | some f =>
        if bar = 8 then (if a.port < 2 ∧ f < 256 then s.configWrite a.port f offset size value else s)
        else if s.accepts a then s.hostWrite a f bar offset size value
        else s
      | none => if s.accepts a ∧ bar = 0 then s.systemWrite a offset size value else s)

/-! ## Held fault records (R134) -/

/-- HELD_RECORD_FLUSH: the oldest record held is written once the ring can take it, and one that waits is held in its place. -/
def execHeldRecordFlush (function : Nat) (s : State) : Out :=
  .next (
    match (s.fn function).held with
    | [] => s
    | r :: rest =>
      if s.fltReady function then
        let s1 := s.setFn function fun h => match h.beyond with
          | [] => { h with held := rest }
          | b :: bs => { h with held := rest ++ [{ b with flags := b.flags / 16 * 16 + 8 + b.flags % 8 }], beyond := bs }
        s1.fltWrite function r
      else s)

/-! ## Replies (R115, R145, R155, R157) -/

/-- The Supervisor can place answers: it runs and the module is powered. -/
def State.canReply (s : State) : Bool :=
  s.supervisorRuns && (s.pp.state == .service || s.pp.state == .drain || s.pp.state == .retain)

/-- An answer leaves the queue, and the reply of its journal entry is marked as sent. -/
def State.answered (s : State) (a : Answer) : State :=
  { s with cx := { s.cx with
      answers := s.cx.answers.erase a
      journal := if a.kind = 2 then s.cx.journal.map fun (j : JournalEntry) =>
          if j.hdr = a.hdr ∧ j.opcode = a.opcode then { j with replied := true } else j
        else s.cx.journal } }

/-- An answer is placed on a channel for its receiver, once that channel is empty. -/
def State.placeAnswer (s : State) (a : Answer) (c m : Nat) : State :=
  if (s.chan c).owner = 0 ∧ !(s.chan c).full then
    let s1 := (s.answered a).setChan c fun x =>
      { (x.send supervisorId s.mbx.sends) with
        owner := supervisorId
        buf := (answerBytes a).foldl (fun t b => (t.1 + 1, tabSet t.2 t.1 b)) ((0, ([] : Tab Byte))) |>.2 }
    { s1 with mbx := { s1.mbx with sends := s1.mbx.sends + 1 } }.raiseMsg c m
  else s

/-- The oldest answer of a sender leaves: on channel 2f + 1, on channel 523 for the BMC, or to the head. -/
def State.deliver (s : State) (a : Answer) : State :=
  match a.dest with
  | .host f => s.placeAnswer a (2 * f + 1) (masterOf f)
  | .bmc => s.placeAnswer a 523 bmcId
  | .relay f => (s.answered a).send s.headDevice 3 (.answer f (answerBytes a))
  | .gone => s.answered a

/-- REPLY_DELIVERY (R155). -/
def execReplyDelivery (dest : Sender) (s : State) : Out :=
  .next (
    if s.canReply then
      match s.cx.answers.find? fun a => a.dest == dest with
      | some a => s.deliver a
      | none => s
    else s)

/-- The answer that a member's message spells, for the function that sent the command. -/
def answerOf (x : Sender) (b : List Byte) : Answer :=
  { dest := x, kind := fieldAt b 2 1, opcode := fieldAt b 0 2
    hdr := { sender := x, tag := fieldAt b 8 4, major := fieldAt b 4 1, minor := fieldAt b 5 1, target := fieldAt b 14 1 }
    status := fieldAt b 12 2, payload := bytesAt b 16 (fieldAt b 6 2) }

/-- FORWARDED_REPLY_RECEIVE (R157, R158): a member's answer joins the function's queue; one after ST_UNREACHED is discarded. -/
def execForwardedReplyReceive (member function : Nat) (message : List Byte) (s : State) : Out :=
  .next (
    let x : Sender := if function < bmcRelay then .host function else .bmc
    let a := answerOf x message
    match s.fab.forwardedCmds.find? fun e => e.member == member && e.fn == function && e.hdr.tag == a.hdr.tag && e.opcode == a.opcode with
    | none => s
    | some e =>
      let rest := s.fab.forwardedCmds.erase e
      let more : Bool := a.kind == 2 && a.status == ST_ACCEPTED
      let s1 := { s with fab := { s.fab with
        forwardedCmds := if more then rest ++ [{ e with notice := true }] else rest } }
      { s1 with cx := { s1.cx with answers := s1.cx.answers ++ [a] } })

/-- A member is lost: what its forwarded commands still owe leaves at once with ST_UNREACHED (R158). -/
def State.unreachForwards (s : State) (m : Nat) : State :=
  let lost := s.fab.forwardedCmds.filter fun e => e.member == m
  let s1 := { s with fab := { s.fab with forwardedCmds := s.fab.forwardedCmds.filter fun e => e.member != m } }
  forEach lost s1 fun s e => s.answer e.hdr e.opcode (if e.notice then 3 else 2) ST_UNREACHED []

/-! ## Function-level reset, TDISP, IDE (R81, R124, R134, R226) -/

/-- What is due to a function is discarded; its commands that were taken run on. -/
def State.orphan (s : State) (f : Nat) : State :=
  let drop (d : Deferred) : Deferred :=
    if d.hdr.sender = .host f ∨ d.hdr.sender = .relay f then { d with hdr := { d.hdr with sender := .gone } } else d
  { s with
    cx := { s.cx with
      answers := s.cx.answers.filter fun a => !(a.dest == .host f || a.dest == .relay f)
      deferred := s.cx.deferred.map drop, waiting := s.cx.waiting.map drop, held := s.cx.held.map drop
      journal := s.cx.journal.map fun (j : JournalEntry) =>
        if j.hdr.sender = .host f ∨ j.hdr.sender = .relay f then { j with hdr := { j.hdr with sender := .gone }, replied := j.committed } else j }
    fab := { s.fab with forwardedCmds := s.fab.forwardedCmds.filter fun e => e.fn != f } }

/-- Every context of a function is destroyed. -/
def State.destroyContexts (s : State) (f : Nat) : State :=
  forEach ((s.ctx.ctxs.filter fun c => c.2.owner == f).map (·.1)) s fun s t =>
    ((if (s.context t).dying then s else s.markDying t)).releaseContext t

/-- The reset of one function. -/
def State.resetFn (s : State) (f : Nat) : State :=
  let s1 := (s.orphan f).destroyContexts f
  let s2 := (s1.setChan (2 * f) fun _ => freshChannel).setChan (2 * f + 1) fun _ => freshChannel
  (s2.discardHeld f).setFn f fun h => { h.fltClear with vecs := freshFn.vecs, fnMask := false }

/-- FLR of a function; of the PF, of every function, and VF Enable is cleared (R81). -/
def execFlr (function : Nat) (s : State) : Out :=
  .next (
    if 256 ≤ function ∨ !(s.host.portA.on function || s.host.portB.on function) ∨ !s.ioUp then s
    else if function = 0 then
      let s1 := forEach (List.range 256) s State.resetFn
      { s1 with host := { s1.host with
          portA := { s1.host.portA with vfs := 0, pfMem := false, vfMem := false }
          portB := { s1.host.portB with vfs := 0, pfMem := false, vfMem := false } } }
    else s.resetFn function)

/-- A VF's TDI enters ERROR: every context of the VF is destroyed (R226). -/
def execTdiError (vf : Nat) (s : State) : Out :=
  .next (
    if 1 ≤ vf ∧ vf < 256 ∧ (s.fn vf).tdi ≠ .unlocked ∧ (s.fn vf).tdi ≠ .error then
      (s.destroyContexts vf).setFn vf fun h => { h with tdi := .error }
    else s)

/-- A TDISP request moves a VF's TDI: 1 locks it, 2 runs it, 0 unlocks it (R226). -/
def execTdispRequest (vf state : Nat) (s : State) : Out :=
  .next (
    if vf = 0 ∨ 256 ≤ vf then s
    else match state, (s.fn vf).tdi with
      | 0, _ => s.setFn vf fun h => { h with tdi := .unlocked }
      | 1, .unlocked => s.setFn vf fun h => { h with tdi := .locked }
      | 2, .locked => s.setFn vf fun h => { h with tdi := .run }
      | _, _ => s)

/-- IDE_KM over SPDM sets the keys of link IDE, stream 0, or of one of the 8 selective streams of a port (R226). -/
def execIdeKmRequest (port stream : Nat) (key : List Byte) (s : State) : Out :=
  .next (
    if port < 2 ∧ stream ≤ 8 ∧ (s.port port).up then s.setPort port fun x => { x with ide := tabSet x.ide stream key } else s)

end Sys2Proof.Machine
end

