-- ==== Sys2Proof/Machine/Operands.lean ====
section
/-! DEFINITION. Element formats, their exact values, rounding and conversion, MX blocks and FP32 arithmetic (R280–R288, R306). -/

namespace Sys2Proof.Machine

/-! ## Exact values -/

/-- A finite value: (−1)^neg × man × 2^exp. -/
structure Dy where
  neg : Bool
  man : Nat
  exp : Int
deriving DecidableEq, Repr

/-- A number as read from an element. -/
inductive Num where
  | nan
  | inf (neg : Bool)
  | fin (d : Dy)
deriving DecidableEq, Repr

/-- Zero of a sign. -/
def Num.zero (neg : Bool) : Num := .fin ⟨neg, 0, 0⟩

/-- The signed integer of a value at an exponent no larger than its own. -/
def Dy.at (d : Dy) (e : Int) : Int :=
  let m : Int := d.man * 2 ^ (d.exp - e).toNat
  if d.neg then -m else m

/-- The exact sum; an exact zero is positive unless both terms are negative zeros (log entry 13). -/
def Dy.add (a b : Dy) : Dy :=
  let e := min a.exp b.exp
  let v := a.at e + b.at e
  if v = 0 then ⟨a.neg && b.neg && a.man == 0, 0, 0⟩ else ⟨decide (v < 0), v.natAbs, e⟩

/-- The exact product. -/
def Dy.mul (a b : Dy) : Dy := ⟨a.neg != b.neg, a.man * b.man, a.exp + b.exp⟩

/-- Scaled by a power of two. -/
def Dy.scale (d : Dy) (k : Int) : Dy := { d with exp := d.exp + k }

/-- Sum of numbers (R294). -/
def Num.add (a b : Num) : Num :=
  match a, b with
  | .nan, _ => .nan
  | _, .nan => .nan
  | .inf s, .inf t => if s = t then .inf s else .nan
  | .inf s, .fin _ => .inf s
  | .fin _, .inf t => .inf t
  | .fin x, .fin y => .fin (x.add y)

/-- Product of numbers (R294). -/
def Num.mul (a b : Num) : Num :=
  match a, b with
  | .nan, _ => .nan
  | _, .nan => .nan
  | .inf s, .inf t => .inf (s != t)
  | .inf s, .fin y => if y.man = 0 then .nan else .inf (s != y.neg)
  | .fin x, .inf t => if x.man = 0 then .nan else .inf (x.neg != t)
  | .fin x, .fin y => .fin (x.mul y)

/-- The number with its sign changed. -/
def Num.negate (a : Num) : Num :=
  match a with
  | .nan => .nan
  | .inf s => .inf (!s)
  | .fin d => .fin { d with neg := !d.neg }

/-- Scaled by a power of two. -/
def Num.scale (a : Num) (k : Int) : Num :=
  match a with
  | .fin d => .fin (d.scale k)
  | x => x

/-- Whether a number is NaN. -/
def Num.isNan (a : Num) : Bool :=
  match a with
  | .nan => true
  | _ => false

/-- Order of numbers, zeros equal: −1, 0, 1; none with a NaN. -/
def Num.cmp (a b : Num) : Option Int :=
  match a, b with
  | .nan, _ => none
  | _, .nan => none
  | .inf s, .inf t => some (if s = t then 0 else if s then -1 else 1)
  | .inf s, .fin _ => some (if s then -1 else 1)
  | .fin _, .inf t => some (if t then 1 else -1)
  | .fin x, .fin y =>
    let e := min x.exp y.exp
    let d := x.at e - y.at e
    some (if d < 0 then -1 else if d = 0 then 0 else 1)

/-! ## Rounding (R281, R287) -/

/-- A quotient rounded to nearest, ties to even. -/
def rne (v k : Nat) : Nat :=
  let q := v / 2 ^ k
  let r := v % 2 ^ k * 2
  if r < 2 ^ k ∨ (r = 2 ^ k ∧ q % 2 = 0) then q else q + 1

/-- A value times 2^-k rounded to nearest for any k. -/
def rneExp (v : Nat) (k : Int) : Nat := if k ≤ 0 then v * 2 ^ (-k).toNat else rne v k.toNat

/-- The position of the leading bit of a value: floor(log2). -/
def Dy.log (d : Dy) : Int := d.exp + d.man.log2

/-- The parameters of a format: exponent and mantissa bits and bias (R280). -/
structure Fmt where
  ebits : Nat
  mbits : Nat
  bias  : Nat

/-- The formats by number (R298): BF16, FP16, E4M3, E5M2, E2M1, FP32. -/
def fmtOf (f : Nat) : Fmt :=
  match f with
  | 0 => ⟨8, 7, 127⟩
  | 1 => ⟨5, 10, 15⟩
  | 2 => ⟨4, 3, 7⟩
  | 3 => ⟨5, 2, 15⟩
  | 4 => ⟨2, 1, 1⟩
  | _ => ⟨8, 23, 127⟩

/-- Bits of an element. -/
def fmtWidth (f : Nat) : Nat := 1 + (fmtOf f).ebits + (fmtOf f).mbits

/-- The 16-bit formats and FP32, whose subnormals are flushed. -/
def fmtFlushes (f : Nat) : Bool := f != 2 && f != 3 && f != 4

/-- The value of an element (R280–R282). -/
def decodeElem (f code : Nat) : Num :=
  let p := fmtOf f
  let neg := bit code (p.ebits + p.mbits)
  let e := bits code p.mbits p.ebits
  let m := bits code 0 p.mbits
  let top := 2 ^ p.ebits - 1
  if e = 0 then
    if fmtFlushes f then .zero neg else .fin ⟨neg, m, 1 - (p.bias : Int) - p.mbits⟩
  else if e = top ∧ (f = 2 ∧ m = 7 ∨ f ≠ 2 ∧ f ≠ 4 ∧ m ≠ 0) then .nan
  else if e = top ∧ f ≠ 2 ∧ f ≠ 4 then .inf neg
  else .fin ⟨neg, 2 ^ p.mbits + m, (e : Int) - p.bias - p.mbits⟩

/-- The canonical quiet NaN of a format (R283). -/
def canonicalNan (f : Nat) : Nat :=
  match f with
  | 0 => 0x7FC0
  | 1 => 0x7E00
  | 2 => 0x7F
  | 3 => 0x7F
  | _ => 0x7FC00000

/-- A finite value rounded once into a format that flushes, to infinity beyond its largest finite value. -/
def roundDy (f : Nat) (d : Dy) : Nat :=
  let p := fmtOf f
  let sign := flag d.neg (p.ebits + p.mbits)
  if d.man = 0 then sign
  else
    let e := d.log
    let q := rneExp d.man (e - p.mbits - d.exp)
    let e' := if q = 2 ^ (p.mbits + 1) then e + 1 else e
    let m := if q = 2 ^ (p.mbits + 1) then 0 else q - 2 ^ p.mbits
    if e' < 1 - (p.bias : Int) then sign
    else if (2 ^ p.ebits - 1 : Int) ≤ e' + p.bias then sign + (2 ^ p.ebits - 1) * 2 ^ p.mbits
    else sign + (e' + p.bias).toNat * 2 ^ p.mbits + m

/-- A number rounded once into BF16, FP16 or FP32 (R281, R283, R287). -/
def roundTo (f : Nat) (a : Num) : Nat :=
  match a with
  | .nan => canonicalNan f
  | .inf s => flag s ((fmtOf f).ebits + (fmtOf f).mbits) + (2 ^ (fmtOf f).ebits - 1) * 2 ^ (fmtOf f).mbits
  | .fin d => roundDy f d

/-! ## FP32 lanes -/

/-- The value of an FP32 lane. -/
def dec32 (l : Lane) : Num := decodeElem 5 l.toNat

/-- A number rounded into an FP32 lane. -/
def enc32 (a : Num) : Lane := BitVec.ofNat 32 (roundTo 5 a)

/-- FP32 sum. -/
def fadd (a b : Lane) : Lane := enc32 ((dec32 a).add (dec32 b))
/-- FP32 difference. -/
def fsub (a b : Lane) : Lane := enc32 ((dec32 a).add (dec32 b).negate)
/-- FP32 product. -/
def fmul (a b : Lane) : Lane := enc32 ((dec32 a).mul (dec32 b))
/-- Fused multiply-add with one rounding. -/
def ffma (np nc : Bool) (a b c : Lane) : Lane :=
  let p := (dec32 a).mul (dec32 b)
  let x := dec32 c
  enc32 ((if np then p.negate else p).add (if nc then x.negate else x))

/-- Whether a lane is below another, −0 below +0. -/
def below (a b : Num) : Bool :=
  match a.cmp b with
  | some c => decide (c < 0) || (c == 0 && (match a, b with
    | .fin x, .fin y => x.man == 0 && y.man == 0 && x.neg && !y.neg
    | _, _ => false))
  | none => false

/-- FP32 minimum: NaN when either is NaN, −0 below +0. -/
def fmin (a b : Lane) : Lane :=
  let x := dec32 a
  let y := dec32 b
  if x.isNan || y.isNan then enc32 .nan else if below y x then enc32 y else enc32 x

/-- FP32 maximum. -/
def fmax (a b : Lane) : Lane :=
  let x := dec32 a
  let y := dec32 b
  if x.isNan || y.isNan then enc32 .nan else if below x y then enc32 y else enc32 x

/-- The magnitude of a number. -/
def Num.abs (a : Num) : Num :=
  match a with
  | .nan => .nan
  | .inf _ => .inf false
  | .fin d => .fin { d with neg := false }

/-- Pairwise sums of neighbours. -/
def pairUp (op : Lane → Lane → Lane) : List Lane → List Lane
  | a :: b :: r => op a b :: pairUp op r
  | l => l

/-- A pairwise tree of some levels (R293, R306). -/
def treeOf (op : Lane → Lane → Lane) : Nat → List Lane → List Lane
  | 0, l => l
  | n + 1, l => treeOf op n (pairUp op l)

/-- The root of a pairwise tree over a power of two of lanes. -/
def treeSum (levels : Nat) (l : List Lane) : Lane := (treeOf fadd levels l).headD 0

/-! ## MX blocks (R284–R288) -/

/-- emax of an element format. -/
def emaxOf (f : Nat) : Int :=
  match f with
  | 2 => 8
  | 3 => 15
  | _ => 2

/-- The largest finite value's code in an element format, without its sign. -/
def largestCode (f : Nat) : Nat :=
  match f with
  | 2 => 0x7E
  | 3 => 0x7B
  | _ => 7

/-- A finite value rounded once to FP8 or FP4, subnormals included, and no larger than the largest finite value. -/
def roundElem (f : Nat) (d : Dy) : Nat :=
  let p := fmtOf f
  let sign := flag d.neg (p.ebits + p.mbits)
  if d.man = 0 then sign
  else
    let low : Int := 1 - p.bias
    let e := max d.log low
    let q := rneExp d.man (e - p.mbits - d.exp)
    -- from the smallest normal on, the code grows with the value as one number
    let code := (e - low).toNat * 2 ^ p.mbits + q
    sign + min code (largestCode f)

/-- A block of 32 FP32 values as its scale byte and element codes, with a fixed scale where one is given (R288). -/
def mxBlock (f : Nat) (fixed : Option Nat) (xs : List Lane) : Nat × List Nat :=
  let ns := xs.map dec32
  let ok := ns.all fun a => match a with
    | .fin _ => true
    | _ => false
  let ds := ns.map fun a => match a with
    | .fin d => d
    | _ => ⟨false, 0, 0⟩
  let sign (d : Dy) : Nat := flag d.neg (fmtWidth f - 1)
  if !ok then (0xFF, xs.map fun _ => 0)
  else if ds.all (·.man == 0) then (0, ds.map sign)
  else
    let logs := (ds.filter (·.man != 0)).map Dy.log
    let top := logs.foldl max (logs.headD 0)
    let x := min 127 (max (-127) (top - emaxOf f))
    match fixed with
    | some 0xFF => (0xFF, xs.map fun _ => 0)
    | some b => (b, ds.map fun d => roundElem f (d.scale (127 - (b : Int))))
    | none => ((x + 127).toNat, ds.map fun d => roundElem f (d.scale (-x)))

/-- The value of an element of a block: NaN under a scale of 0xFF (R284, R285). -/
def mxElem (f scale code : Nat) : Num :=
  if scale = 0xFF then .nan else (decodeElem f code).scale ((scale : Int) - 127)

/-! ## Elements in memory -/

/-- Elements of a format from bytes: two E2M1 elements share a byte, low bits first. -/
def elemsOf (f : Nat) (bs : List Byte) : List Nat :=
  match fmtWidth f with
  | 4 => bs.flatMap fun b => [b.toNat % 16, b.toNat / 16]
  | 8 => bs.map (·.toNat)
  | 16 => (chunks 2 bs.length bs).map leNat
  | _ => (chunks 4 bs.length bs).map leNat

/-- Bytes of elements of a format. -/
def bytesOfElems (f : Nat) (es : List Nat) : List Byte :=
  match fmtWidth f with
  | 4 => (chunks 2 es.length es).map fun p => BitVec.ofNat 8 (p.headD 0 % 16 + p.getD 1 0 % 16 * 16)
  | 8 => es.map (BitVec.ofNat 8)
  | 16 => es.flatMap (leBytes 2)
  | _ => es.flatMap (leBytes 4)

/-- The 64 lanes of 256 bytes. -/
def lanesOf (bs : List Byte) : List Lane := (chunks 4 bs.length bs).map fun c => BitVec.ofNat 32 (leNat c)

/-- The bytes of lanes. -/
def bytesOfLanes (ls : List Lane) : List Byte := ls.flatMap fun l => leBytes 4 l.toNat

/-- An element of a 16-bit format or FP32 as an FP32 lane: exact, but for the input flush (R287). -/
def widen (f code : Nat) : Lane := enc32 (decodeElem f code)

/-- An FP32 lane as an element of a 16-bit format or FP32. -/
def narrow (f : Nat) (l : Lane) : Nat := roundTo f (dec32 l)

end Sys2Proof.Machine
end

