-- ==== Sys2Proof/Machine/CoreOps.lean ====
section
/-! DEFINITION. The meanings of the memory slot and of the control slot of a core (R247–R257, R259–R262, R265, R271, R274, R275). -/

namespace Sys2Proof.Machine

/-- A field of a slot operation. -/
def fld (lo width v : Nat) : Nat × Nat × Int := (lo, width, v)

/-- A flag of a slot operation. -/
def flg (lo : Nat) (b : Bool) : Nat × Nat × Int := (lo, 1, b2n b)

/-- What a slot operation of a step does, given the step on its core. -/
def State.withStep (s : State) (n : Nat) (f : StepRec → SlotRes) : SlotRes :=
  match s.coreStep? n with
  | none => .stall s
  | some t => f t

/-- An address: a register plus a signed offset, of 64 bits. -/
def addrOf (r : CoreRegs) (base : Nat) (offset : Int) : Nat := ofSigned 64 ((r.x? base : Int) + offset)

/-- Free values in place of lanes the spec gives no value. -/
def freeLanes : Nat → State → List Lane × State
  | 0, s => ([], s)
  | n + 1, s =>
    let (v, s1) := s.draw
    let (r, s2) := freeLanes n s1
    (BitVec.ofNat 32 v :: r, s2)

/-! ## The schedule check (R259) -/

/-- Whether a core's step checks its schedule. -/
def State.checksSchedule (s : State) (n : Nat) : Bool :=
  match s.coreStep? n with
  | none => false
  | some t => ((s.programOf t).map (·.schedCheck)).getD false

/-- A slot's write of the own scratchpad is remembered for the check. -/
def State.noteWrite (s : State) (n off len : Nat) : State :=
  if s.checksSchedule n then s.setCore n fun c => { c with recent := (c.bundles, off % mib2, len) :: c.recent } else s

/-- A slot's read of the own scratchpad is compared with the slot writes and the gather entries of the 16 bundles before its own; the
first overlap in a step writes a record (log entry 14). -/
def State.noteRead (s : State) (n off len : Nat) : State :=
  let c := s.core n
  let o := off % mib2
  let hit := c.recent.any (fun e => decide (e.1 < c.bundles ∧ e.2.1 < o + len ∧ o < e.2.1 + e.2.2)) ||
    c.gather.any fun e => decide (e.wroteAt ≤ c.bundles ∧ c.bundles < e.wroteAt + 16) && e.bytes.any fun b => decide (o ≤ e.line * 64 + b.1 ∧ e.line * 64 + b.1 < o + len)
  if s.checksSchedule n && !c.recSched && hit then
    (s.cometF7 4 n [c.pc, o]).setCore n fun c => { c with recSched := true }
  else s

/-! ## Accesses of the memory slot (R248) -/

/-- What a load brings: bytes, or what became of the core. -/
inductive CoreGot where
  | bytes (s : State) (b : List Byte)
  | other (r : SlotRes)

/-- The core of the quad that a space 1 address names, and the offset. -/
def neighbour (n addr : Nat) : Nat × Nat := (n / 4 * 4 + bits addr 21 2, bits addr 0 21)

/-- An access to a neighbour of another tag. -/
def State.isolateCore (s : State) (t : StepRec) (n m addr : Nat) : State :=
  let owner := (((s.core m).tag.bind (tabGet? s.ctx.ctxs)).map (·.owner)).getD 0xFFFF
  s.isolate t.queue t.index m addr 1 n owner 0xFFFFFFFF

/-- A step that read an uncorrectable unit ends (R365, R540). -/
def State.eccEnd (s : State) (t : StepRec) (inst pa : Nat) : State :=
  (s.cometF3 4 inst inst pa (t.queue, t.index)).endStep t.queue t.index ST_ECC

/-- A read of the memory slot. -/
def State.coreRead (s : State) (n : Nat) (t : StepRec) (space addr len : Nat) : CoreGot :=
  match space with
  | 0 => .bytes (s.noteRead n addr len) (s.ownRead n addr len)
  | 1 =>
    let (m, off) := neighbour n addr
    if m = n then .bytes (s.noteRead n off len) (s.ownRead n off len)
    else if (s.core m).tag = some t.ctag then .bytes (s.wakeAt (scratchPa m 0)) ((List.range len).map fun k => s.mem.read (scratchPa m (off + k)))
    else .other (.gone (s.isolateCore t n m addr))
  | _ =>
    match s.readVa (quadUnit n) t.ctag addr len 1 (.load n) (some (t.queue, t.index)) 1 n with
    | .stall s1 => .other (.stall s1)
    | .fault k d ri a => .other (.gone ((s.dropReads (.load n)).failAccess t.queue t.index k 1 d ri a 1 n))
    | .poison pa => .other (.gone (s.eccEnd t n pa))
    | .bytes s1 b => .bytes (s1.dropReads (.load n)) b

/-- A write of the memory slot. -/
def State.coreWrite (s : State) (n : Nat) (t : StepRec) (space addr : Nat) (bs : List Byte) : SlotRes :=
  match space with
  | 0 => .done ((s.noteWrite n addr bs.length).scratchWrite n addr bs)
  | 1 =>
    let (m, off) := neighbour n addr
    if m = n then .done ((s.noteWrite n off bs.length).scratchWrite n off bs)
    else if (s.core m).tag = some t.ctag then .done ((s.wakeAt (scratchPa m 0)).scratchWrite m off bs)
    else .gone (s.isolateCore t n m addr)
  | _ =>
    match s.stage (quadUnit n) t.ctag addr bs.length 2 (some (t.queue, t.index)) 1 n with
    | .stall s1 => .stall s1
    | .fault k d ri a => .gone (s.failAccess t.queue t.index k 2 d ri a 1 n)
    | .ok s1 ps =>
      if s1.resetHit ps then .gone ((s1.storeParts ⟨t.ctag, some (t.queue, t.index), 1, n⟩ ps bs).endStep t.queue t.index ST_DIERESET)
      else .done (s1.storeParts ⟨t.ctag, some (t.queue, t.index), 1, n⟩ ps bs)

/-! ## The memory slot (R247) -/

/-- The value of loaded bytes in an x register. -/
def loadValue (b : List Byte) (sext : Bool) : Nat :=
  if sext then ofSigned 64 (toSigned (8 * b.length) (leNat b)) else leNat b

/-- The encoding of LDS. -/
def ldsKey (dst base space size : Nat) (sext : Bool) (offset : Int) : SlotKey :=
  ⟨0, 1, [fld 49 5 dst, fld 44 5 base, fld 42 2 space, fld 40 2 size, flg 39 sext], [(0, 39, offset)]⟩

/-- LDS. A load that is not naturally aligned brings a free value (log entry 16). -/
def execLds (c : SlotCtx) (dst base space size : Nat) (sext : Bool) (offset : Int) (s : State) : Out :=
  .next (s.slotOp c (ldsKey dst base space size sext offset)
    fun s => s.withStep c.core fun t =>
      let a := addrOf (s.srcOf c.core) base offset
      match s.coreRead c.core t space a (2 ^ size) with
      | .other r => r
      | .bytes s1 b =>
        if a % 2 ^ size = 0 then .done (s1.setX c.core dst (loadValue b sext))
        else let (v, s2) := s1.draw
          .done (s2.setX c.core dst v))

/-- The encoding of STS. -/
def stsKey (src base space size : Nat) (offset : Int) : SlotKey :=
  ⟨0, 2, [fld 49 5 src, fld 44 5 base, fld 42 2 space, fld 40 2 size], [(0, 39, offset)]⟩

/-- STS. A store that is not naturally aligned writes free values to the two aligned words it meets (log entry 16). -/
def execSts (c : SlotCtx) (src base space size : Nat) (offset : Int) (s : State) : Out :=
  .next (s.slotOp c (stsKey src base space size offset)
    fun s => s.withStep c.core fun t =>
      let a := addrOf (s.srcOf c.core) base offset
      let w := 2 ^ size
      if a % w = 0 then s.coreWrite c.core t space a (leBytes w ((s.srcOf c.core).x? src))
      else let (bs, s1) := freeBytes (2 * w) s
        s1.coreWrite c.core t space (a - a % w) bs)

/-- The encoding of LDV. -/
def ldvKey (dst base space : Nat) (offset : Int) : SlotKey :=
  ⟨0, 3, [fld 49 5 dst, fld 44 5 base, fld 42 2 space], [(0, 42, offset)]⟩

/-- LDV. -/
def execLdv (c : SlotCtx) (dst base space : Nat) (offset : Int) (s : State) : Out :=
  .next (s.slotOp c (ldvKey dst base space offset)
    fun s => s.withStep c.core fun t =>
      let a := addrOf (s.srcOf c.core) base offset
      match s.coreRead c.core t space a 256 with
      | .other r => r
      | .bytes s1 b =>
        if a % 64 = 0 then .done (s1.setV c.core dst (lanesOf b))
        else let (v, s2) := freeLanes 64 s1
          .done (s2.setV c.core dst v))

/-- The encoding of STV. -/
def stvKey (src base space : Nat) (offset : Int) : SlotKey :=
  ⟨0, 4, [fld 49 5 src, fld 44 5 base, fld 42 2 space], [(0, 42, offset)]⟩

/-- STV: four bank writes, not gathered. -/
def execStv (c : SlotCtx) (src base space : Nat) (offset : Int) (s : State) : Out :=
  .next (s.slotOp c (stvKey src base space offset)
    fun s => s.withStep c.core fun t =>
      let a := addrOf (s.srcOf c.core) base offset
      if a % 64 = 0 then s.coreWrite c.core t space a (bytesOfLanes ((s.srcOf c.core).v? src))
      else let (bs, s1) := freeBytes 320 s
        s1.coreWrite c.core t space (a - a % 64) bs)

/-- The encoding of LDVS. -/
def ldvsKey (dst base esize stride offset : Nat) : SlotKey :=
  ⟨0, 5, [fld 49 5 dst, fld 44 5 base, fld 42 2 esize, fld 26 16 stride, fld 0 26 offset], []⟩

/-- LDVS: lane i from offset + i × stride × e, modulo 2 MiB; BF16 and FP16 are widened to FP32 (R254). -/
def execLdvs (c : SlotCtx) (dst base esize stride offset : Nat) (s : State) : Out :=
  .next (s.slotOp c (ldvsKey dst base esize stride offset)
    fun s =>
      let e := if esize = 2 then 4 else 2
      let a := (s.srcOf c.core).x? base + offset
      let at_ (i : Nat) : Nat := (a + i * stride * e) % mib2
      let s1 := forEach (List.range 64) s fun s i => s.noteRead c.core (at_ i) e
      let lane (i : Nat) : Lane :=
        let v := leNat (s.ownRead c.core (at_ i) e)
        if esize = 2 then BitVec.ofNat 32 v else widen esize v
      .done (s1.setV c.core dst ((List.range 64).map lane)))

/-- Rows of a block of LDT as offsets of 64-byte lines. -/
def ldtRows (base pitch rows : Nat) : List Nat := (List.range rows).map fun r => (base + r * pitch) % mib2

/-- Whether two blocks share a byte. -/
def rowsMeet (a b : List Nat) : Bool := a.any fun x => b.any fun y => decide (x < y + 64 ∧ y < x + 64)

/-- The transpose of a block, rows of elements of `e` bytes. -/
def transposeRows (rows : List (List Byte)) (e n : Nat) : List (List Byte) :=
  (List.range n).map fun j => rows.flatMap fun r => bytesAt r (j * e) e

/-- The encoding of LDT. -/
def ldtKey (dst src esize spitch dpitch : Nat) : SlotKey :=
  ⟨0, 6, [fld 49 5 dst, fld 44 5 src, fld 43 1 esize, fld 27 16 spitch, fld 11 16 dpitch], []⟩

/-- LDT (R253): destination row j, column i receives source row i, column j. Where the blocks overlap, or a base is not aligned,
the destination receives free values (log entry 16). -/
def execLdt (c : SlotCtx) (dst src esize spitch dpitch : Nat) (s : State) : Out :=
  .next (s.slotOp c (ldtKey dst src esize spitch dpitch)
    fun s =>
      let e := if esize = 0 then 2 else 1
      let n := 64 / e
      let a := (s.srcOf c.core).x? src
      let d := (s.srcOf c.core).x? dst
      let from_ := ldtRows a spitch n
      let to_ := ldtRows (d - d % 64) dpitch n
      let s1 := forEach from_ s fun s o => s.noteRead c.core o 64
      let s2 := forEach to_ s1 fun s o => s.noteWrite c.core o 64
      if a % 64 ≠ 0 ∨ d % 64 ≠ 0 ∨ rowsMeet from_ to_ then
        .done (forEach to_ s2 fun s o => let (bs, s') := freeBytes 64 s
          s'.bankWrite c.core o bs)
      else
        let rows := transposeRows (from_.map fun o => s.ownRead c.core o 64) e n
        .done (forEach (to_.zip rows) s2 fun s p => s.bankWrite c.core p.1 p.2))

/-- The encoding of FLUSH. -/
def flushKey : SlotKey :=
  ⟨0, 7, [], []⟩

/-- FLUSH: every gather entry is written to its bank. -/
def execFlush (c : SlotCtx) (s : State) : Out :=
  .next (s.slotOp c flushKey fun s => .done (s.flushGather c.core))

/-- The encoding of FENCE. -/
def fenceKey : SlotKey :=
  ⟨0, 8, [], []⟩

/-- FENCE: FLUSH, and every earlier store of the core is acknowledged (R257). -/
def execFence (c : SlotCtx) (s : State) : Out :=
  .next (s.slotOp c fenceKey fun s => .done (s.flushGather c.core).settleWrites)

/-- The encoding of TOUCH. -/
def touchKey (base : Nat) (offset : Int) : SlotKey :=
  ⟨0, 9, [fld 44 5 base, fld 42 2 2], [(0, 42, offset)]⟩

/-- TOUCH: a miss of the quad's range cache starts a walk that no step waits for. -/
def execTouch (c : SlotCtx) (base : Nat) (offset : Int) (s : State) : Out :=
  .next (s.slotOp c (touchKey base offset)
    fun s => s.withStep c.core fun t =>
      let a := addrOf (s.srcOf c.core) base offset
      match s.cacheLook (quadUnit c.core) t.ctag a with
      | some _ => .done (s.touch (quadUnit c.core) t.ctag a)
      | none => .done (s.startWalk (quadUnit c.core) t.ctag a 1 none 1 c.core))

/-! ## The control slot (R249) -/

/-- The operand of a field marked "x or imm". -/
def operand (r : CoreRegs) (x : Nat) (useImm : Bool) (imm : Nat) : Nat := if useImm then imm else r.x? x

/-- The result of ALU; none where the spec states none, a shift by 64 or more (log entry 17). -/
def aluValue (fn a b : Nat) : Option Nat :=
  match fn with
  | 0 => some ((a + b) % 2 ^ 64)
  | 1 => some ((a + 2 ^ 64 - b) % 2 ^ 64)
  | 2 => some (a &&& b)
  | 3 => some (a ||| b)
  | 4 => some (a ^^^ b)
  | 5 => if b < 64 then some (a * 2 ^ b % 2 ^ 64) else none
  | 6 => if b < 64 then some (a / 2 ^ b) else none
  | 7 => if b < 64 then some (ofSigned 64 (toSigned 64 a / 2 ^ b)) else none
  | 8 => some (a * b % 2 ^ 64)
  | 9 => some (if toSigned 64 a ≤ toSigned 64 b then a else b)
  | 10 => some (if toSigned 64 a ≤ toSigned 64 b then b else a)
  | 11 => some (min a b)
  | _ => some (max a b)

/-- The encoding of ALU. -/
def aluKey (fn dst a b : Nat) (useImm : Bool) (imm : Int) : SlotKey :=
  ⟨3, 0x01, [fld 49 5 fn, fld 44 5 dst, fld 39 5 a, fld 34 5 b, flg 33 useImm], [(0, 32, imm)]⟩

/-- ALU. -/
def execAlu (c : SlotCtx) (fn dst a b : Nat) (useImm : Bool) (imm : Int) (s : State) : Out :=
  .next (s.slotOp c (aluKey fn dst a b useImm imm)
    fun s =>
      let r := s.srcOf c.core
      match aluValue fn (r.x? a) (operand r b useImm (ofSigned 64 imm)) with
      | some v => .done (s.setX c.core dst v)
      | none => let (v, s1) := s.draw
        .done (s1.setX c.core dst v))

/-- The encoding of LI. -/
def liKey (dst part : Nat) (keep : Bool) (imm16 : Nat) : SlotKey :=
  ⟨3, 0x02, [fld 49 5 dst, fld 47 2 part, flg 46 keep, fld 0 16 imm16], []⟩

/-- LI. -/
def execLi (c : SlotCtx) (dst part : Nat) (keep : Bool) (imm16 : Nat) (s : State) : Out :=
  .next (s.slotOp c (liKey dst part keep imm16)
    fun s =>
      let old := (s.srcOf c.core).x? dst
      let rest := if keep then old - bits old (16 * part) 16 * 2 ^ (16 * part) else 0
      .done (s.setX c.core dst (rest + imm16 * 2 ^ (16 * part))))

/-- The comparison that CMP makes. -/
def cmpHolds (cond a b : Nat) : Bool :=
  match cond with
  | 0 => a == b
  | 1 => a != b
  | 2 => decide (toSigned 64 a < toSigned 64 b)
  | 3 => decide (toSigned 64 b ≤ toSigned 64 a)
  | 4 => decide (a < b)
  | _ => decide (b ≤ a)

/-- The encoding of CMP. -/
def cmpKey (pdst cond a b : Nat) (useImm : Bool) (imm : Nat) : SlotKey :=
  ⟨3, 0x03, [fld 51 3 pdst, fld 48 3 cond, fld 43 5 a, fld 38 5 b, flg 37 useImm, fld 0 32 imm], []⟩

/-- CMP. -/
def execCmp (c : SlotCtx) (pdst cond a b : Nat) (useImm : Bool) (imm : Nat) (s : State) : Out :=
  .next (s.slotOp c (cmpKey pdst cond a b useImm imm)
    fun s =>
      let r := s.srcOf c.core
      .done (s.setP c.core pdst (cmpHolds cond (r.x? a) (operand r b useImm imm))))

/-- The encoding of BR. -/
def brKey (link target : Nat) (indirect : Bool) (offset : Int) : SlotKey :=
  ⟨3, 0x04, [fld 49 5 link, fld 44 5 target, flg 43 indirect], [(0, 32, offset)]⟩

/-- BR. -/
def execBr (c : SlotCtx) (link target : Nat) (indirect : Bool) (offset : Int) (s : State) : Out :=
  .next (s.slotOp c (brKey link target indirect offset)
    fun s =>
      let pc := (s.core c.core).pc
      let to_ := if indirect then (s.srcOf c.core).x? target else ofSigned 64 ((pc : Int) + offset)
      .done ((s.setX c.core link (pc + 1)).setCore c.core fun x => { x with branch := some to_ }))

/-- The encoding of LOOP. -/
def loopKey (lc count : Nat) (useImm : Bool) (endOff countImm : Nat) : SlotKey :=
  ⟨3, 0x05, [fld 52 2 lc, fld 47 5 count, flg 46 useImm, fld 16 16 endOff, fld 0 16 countImm], []⟩

/-- LOOP: a count of 0 skips the body. -/
def execLoop (c : SlotCtx) (lc count : Nat) (useImm : Bool) (endOff countImm : Nat) (s : State) : Out :=
  .next (s.slotOp c (loopKey lc count useImm endOff countImm)
    fun s =>
      let k := operand (s.srcOf c.core) count useImm countImm
      .done (s.setCore c.core fun x =>
        if k = 0 then { x with pc := x.pc + endOff }
        else { x with loops := tabSet x.loops lc ⟨x.pc + 1, x.pc + endOff, k⟩ }))

/-- The pod-wide number of a sync object (R18); a core or a device that does not exist gives a number no object has. -/
def podObject (device core obj : Nat) : Nat :=
  if core < 512 ∧ device < 64 then device * 16384 + core * 32 + obj else 2 ^ 20

/-- A signal leaves: to this device's mesh, or in the barrier class to another device (R261). -/
def State.sendSignal (s : State) (m : SignalMsg) : State :=
  if m.object / 16384 = s.fab.device ∨ 2 ^ 20 ≤ m.object then
    { s with fleet := { s.fleet with signals := s.fleet.signals ++ [m] } }
  else s.send (m.object / 16384) 2 (.signal m)

/-- The encoding of SIGNAL. -/
def signalKey (handle bank whr x value : Nat) : SlotKey :=
  ⟨3, 0x06, [fld 50 4 handle, fld 49 1 bank, fld 47 2 whr, fld 42 5 x, fld 0 16 value], []⟩

/-- SIGNAL: sent after every earlier store is acknowledged (R257). -/
def execSignal (c : SlotCtx) (handle bank whr x value : Nat) (s : State) : Out :=
  .next (s.slotOp c (signalKey handle bank whr x value)
    fun s => s.withStep c.core fun t =>
      let v := (s.srcOf c.core).x? x
      let obj := 16 * ((t.bank + bank) % 2) + handle
      let target := match whr with
        | 0 => podObject s.fab.device c.core obj
        | 1 => podObject s.fab.device v obj
        | _ => podObject (v / 512) (v % 512) obj
      let m : SignalMsg := ⟨s.fab.device, t.fn, t.ctag, t.queue, t.index, c.core, target, value⟩
      .done ((s.flushGather c.core).settleWrites.sendSignal m))

/-- A sync object changed. -/
def State.setSync (s : State) (n o : Nat) (f : SyncObj → SyncObj) : State :=
  s.setCore n fun c => { c with sync := tabMod freshSync c.sync o f }

/-- The encoding of WAIT. -/
def waitKey (handle mode x : Nat) (useImm : Bool) (imm : Nat) : SlotKey :=
  ⟨3, 0x07, [fld 50 4 handle, fld 48 2 mode, fld 43 5 x, flg 42 useImm, fld 0 32 imm], []⟩

/-- WAIT: the bundle issues only once it is satisfied; take subtracts the operand (R262). -/
def execWait (c : SlotCtx) (handle mode x : Nat) (useImm : Bool) (imm : Nat) (s : State) : Out :=
  .next (s.slotOp c (waitKey handle mode x useImm imm)
    fun s =>
      let v := operand (s.srcOf c.core) x useImm imm
      if mode = 1 then
        .done (s.setSync c.core (s.objOf c.core handle) fun o => { o with count := (o.count + 2 ^ 32 - v % 2 ^ 32) % 2 ^ 32 })
      else .done s)

/-- The encoding of SETC. -/
def setcKey (handle x : Nat) (useImm : Bool) (imm : Nat) : SlotKey :=
  ⟨3, 0x08, [fld 50 4 handle, fld 43 5 x, flg 42 useImm, fld 0 32 imm], []⟩

/-- SETC: the count of an own counter object. -/
def execSetc (c : SlotCtx) (handle x : Nat) (useImm : Bool) (imm : Nat) (s : State) : Out :=
  .next (s.slotOp c (setcKey handle x useImm imm)
    fun s =>
      let v := operand (s.srcOf c.core) x useImm imm % 2 ^ 32
      let o := s.objOf c.core handle
      if (s.syncObj c.core o).owner.isSome && !(s.syncObj c.core o).barrier then
        .done (s.setSync c.core o fun y => { y with count := v })
      else .done s)

/-- The barrier record of a handle in a step's program. -/
def State.barrierOf (s : State) (t : StepRec) (handle : Nat) : Option BarrierRec :=
  (s.programOf t).bind fun p => p.barriers.find? fun b => b.handle == handle

/-- The encoding of ARRIVE. -/
def arriveKey (handle : Nat) : SlotKey :=
  ⟨3, 0x09, [fld 50 4 handle], []⟩

/-- ARRIVE (R265): a second arrival is discarded with a record. -/
def execArrive (c : SlotCtx) (handle : Nat) (s : State) : Out :=
  .next (s.slotOp c (arriveKey handle)
    fun s => s.withStep c.core fun t =>
      let n := c.core
      let s1 := (s.flushGather n).settleWrites
      let o := s1.objOf n handle
      let y := s1.syncObj n o
      if !y.barrier then .done s1
      else if y.arrived then .done (s1.cometF0 4 n (podObject s1.fab.device n o) 0)
      else match s1.barrierOf t handle with
        | none => .done s1
        | some b =>
          let m : BarrierMsg := ⟨t.fn, t.ctag, if b.scope = 3 then t.argWord b.keyWord else 0, b.barrier, b2n y.sense, 0, n / 64, n⟩
          let s2 := s1.setSync n o fun z => { z with arrived := true, recSense := z.sense }
          .done { s2 with fleet := { s2.fleet with arrivals := s2.fleet.arrivals ++ [m] } })

/-- The encoding of ENQ. -/
def enqKey (engine inst x len : Nat) : SlotKey :=
  ⟨3, 0x0A, [fld 50 4 engine, fld 46 4 inst, fld 41 5 x, fld 40 1 len], []⟩

/-- ENQ: a descriptor is read from the own scratchpad into an engine's queue, and a credit is spent (R271). A descriptor at an
offset that is not aligned is read as free values (log entry 16). -/
def execEnq (c : SlotCtx) (engine inst x len : Nat) (s : State) : Out :=
  .next (s.slotOp c (enqKey engine inst x len)
    fun s => s.withStep c.core fun t =>
      let n := c.core
      let off := (s.srcOf n).x? x
      let k := if len = 0 then 64 else 128
      let (bs, s1) := if off % 64 = 0 then (s.ownRead n off k, s.noteRead n off k) else freeBytes k s
      let d : QDesc := ⟨engineIndex engine inst, n, t.queue, t.index, t.ctag, t.bank, bs⟩
      .done ((s1.enqueue (n / 64) (engineIndex engine inst) d).setCore n fun y => { y with
        credits := tabMod 0 y.credits (creditKey engine inst) (· + 1), outstanding := y.outstanding + 1 }))

/-- The encoding of SAFEPT. -/
def safeptKey (liveSet : Nat) : SlotKey :=
  ⟨3, 0x0B, [fld 0 16 liveSet], []⟩

/-- SAFEPT (R49, R234, R275): with a stop ordered, the core saves, is scrubbed and reports free; in DRAIN it stops there. -/
def execSafept (c : SlotCtx) (liveSet : Nat) (s : State) : Out :=
  .next (s.slotOp c (safeptKey liveSet)
    fun s => s.withStep c.core fun t =>
      let n := c.core
      let s1 := s.setCore n fun x => { x.endBundle with lastSafept := some liveSet }
      let s2 := s1.modStep t.queue t.index fun u => { u with faults := [] }
      if s2.pp.state = .drain then .gone (s2.setCore n fun x => { x with halted := true })
      else if (s2.core n).stopOrdered then .gone ((s2.saveCore t.queue t.index n).settleStep t.queue t.index)
      else .gone s2)

/-- The encoding of END. -/
def endPartKey : SlotKey :=
  ⟨3, 0x0C, [], []⟩

/-- END (R274): the core's part is over but for its descriptors; under a stop order it saves with the last of its step's cores, unless the
order lapses (R196). -/
def execEndPart (c : SlotCtx) (s : State) : Out :=
  .next (s.slotOp c endPartKey
    fun s => s.withStep c.core fun t =>
      let n := c.core
      let s1 := (s.flushGather n).setCore n fun x => { x.endBundle with ended := true }
      if (s1.core n).stopOrdered then .gone (s1.settleStep t.queue t.index) else .gone s1)

/-- The value of RDID (R250). -/
def State.rdid (s : State) (n : Nat) (t : StepRec) (which word : Nat) : Nat :=
  match which with
  | 0 => n
  | 1 => (s.core n).group
  | 2 => (s.core n).rel
  | 3 => n / 64
  | 4 => s.fab.device
  | 5 => t.ctag
  | 6 => t.index
  | 7 => s.aon.timebase
  | 8 => fieldAt t.inlineArgs (8 * word) 8
  | 9 => t.argsVa
  | _ => t.saveVa

/-- The encoding of RDID. -/
def rdidKey (dst which word : Nat) : SlotKey :=
  ⟨3, 0x0D, [fld 49 5 dst, fld 45 4 which, fld 43 2 word], []⟩

/-- RDID. -/
def execRdid (c : SlotCtx) (dst which word : Nat) (s : State) : Out :=
  .next (s.slotOp c (rdidKey dst which word)
    fun s => s.withStep c.core fun t => .done (s.setX c.core dst (s.rdid c.core t which word)))

end Sys2Proof.Machine
end

