-- ==== Sys2Proof/Machine/Sync.lean ====
section
/-! DEFINITION. Signals, barriers and the write of gather entries on their way (R256, R257, R261–R268). -/

namespace Sys2Proof.Machine

/-! ## Signals (R261, R263) -/

/-- The agent kind and agent number of a signal's sender: a core, or from 1,024 on an engine. -/
def signalAgent (sender : Nat) : Nat × Nat :=
  if sender < 1024 then (1, sender) else (engineKind ((sender - 1024) % 32) + 1, sender - 1024)

/-- An item of a step has been blocked, here or by another member: the writer's function gets a kind 5 record and the step ends. -/
def State.takeBlocked (s : State) (fn ctag q i agentKind agent detail : Nat) : State :=
  (s.fltRecord fn { s.fltBlank with
    kind := 5, status := ST_ISOLATION, ctag := ctag, queue := q, stepIndex := i, agentKind := agentKind, agent := agent
    detail := detail, flags := 2 }).endStep q i ST_ISOLATION

/-- A signal is blocked: the die counts it, a record is written, the sender's function gets a kind 5 record and the sender's step
ends; a sender on another device is told by a management message (log entry 18). -/
def State.blockSignal (s : State) (m : SignalMsg) (owner : Nat) : State :=
  let core := m.object % 16384 / 32
  let s1 := if m.object < 2 ^ 20 then s.setDie (core / 64) fun d => { d with blocked := d.blocked + 1 } else s
  if m.device = s.fab.device then
    (s1.cometF1 4 core (some m.ctag) m.object m.function owner).takeBlocked m.function m.ctag m.queue m.step (signalAgent m.sender).1
      (signalAgent m.sender).2 (m.object % 2 ^ 20)
  else (s1.cometF1 4 core (some m.ctag) m.object m.function owner).send m.device 0
    (.blocked m.function m.ctag m.queue m.step (signalAgent m.sender).1 (signalAgent m.sender).2 (m.object % 2 ^ 20))

/-- A signal reaches its object: it is applied when the object is allocated to the sender's CTAG and the sender's function owns
that CTAG here, and blocked otherwise. -/
def State.applySignal (s : State) (m : SignalMsg) : State :=
  let core := m.object % 16384 / 32
  let o := m.object % 32
  let y := s.syncObj core o
  let owner := ((y.owner.bind (tabGet? s.ctx.ctxs)).map (·.owner)).getD 0xFFFF
  if m.object < 2 ^ 20 ∧ y.owner = some m.ctag ∧ (tabGet? s.ctx.ctxs m.ctag).map (·.owner) = some m.function then
    s.setSync core o fun z => { z with count := (z.count + m.value) % 2 ^ 32 }
  else s.blockSignal m owner

/-- Whether two signals come from one sender and go to one core's sync objects, so that their order is kept (R21, R261). -/
def sameSignalWay (a b : SignalMsg) : Bool := a.device == b.device && a.sender == b.sender && a.object / 32 == b.object / 32

/-- SIGNAL_APPLY: signal `k` of those in flight arrives, unless one sent before it by the same sender to the same core has not. -/
def execSignalApply (k : Nat) (s : State) : Out :=
  .next (
    match s.fleet.signals[k]? with
    | none => s
    | some m =>
      if (s.fleet.signals.take k).any fun x => sameSignalWay x m then s
      else { s with fleet := { s.fleet with signals := s.fleet.signals.eraseIdx k } }.applySignal m)

/-! ## Barriers (R265–R268) -/

/-- The die of a step's lowest logical core. -/
def rootDie (t : StepRec) : Nat := ((minBy id t.cores).getD 0) / 64

/-- The step of a combiner entry. -/
def State.combinerStep (s : State) (c : Combiner) : Option StepRec := s.step? c.queue c.step

/-- The barrier record of a combiner entry. -/
def State.combinerBarrier (s : State) (c : Combiner) : Option BarrierRec :=
  (s.combinerStep c).bind fun t => (s.programOf t).bind fun p => p.barriers.find? fun b => b.barrier == c.barrier

/-- The entry of a die that an arrival of the same phase is for. -/
def State.matchEntry (s : State) (die : Nat) (m : BarrierMsg) : Option Combiner :=
  (s.die die).combiners.find? fun c => c.takes m && c.phase == m.phase

/-- An entry changed. -/
def State.setCombiner (s : State) (die : Nat) (c : Combiner) (f : Combiner → Combiner) : State :=
  s.setDie die fun d => { d with combiners := d.combiners.map fun x =>
    if x.queue = c.queue ∧ x.step = c.step ∧ x.barrier = c.barrier then f x else x }

/-- Releases set out for some dies. -/
def State.release (s : State) (m : BarrierMsg) (dies : List Nat) : State :=
  { s with fleet := { s.fleet with releases := s.fleet.releases ++ dies.map fun d => (d, m) } }

/-- The members of a mask. -/
def maskMembers (mask : Nat) : List Nat := bitList 64 mask

/-- A device's cores have all arrived: the pod root is told, or the device released. -/
def State.deviceArrived (s : State) (t : StepRec) (b : BarrierRec) (m : BarrierMsg) : State :=
  if b.scope = 3 then
    let root := (maskMembers b.mask).headD s.fab.device
    let m2 := { m with level := 2, source := s.fab.device }
    if root = s.fab.device then { s with fleet := { s.fleet with arrivals := s.fleet.arrivals ++ [{ m2 with die := rootDie t }] } }
    else s.send root 2 (.barrierArrival m2)
  else s.release m (coreDies t.cores)

/-- A die's cores have all arrived: a die-scope barrier is released there, another is reported to the root die. -/
def State.dieArrived (s : State) (t : StepRec) (b : BarrierRec) (m : BarrierMsg) : State :=
  if b.scope = 1 then s.release m [m.die]
  else { s with fleet := { s.fleet with arrivals := s.fleet.arrivals ++ [{ m with level := 1, die := rootDie t, source := m.die }] } }

/-- An arrival counted at the combiner of its die (R266). -/
def State.countArrival (s : State) (m : BarrierMsg) (c : Combiner) (t : StepRec) (b : BarrierRec) : State :=
  match m.level with
  | 0 =>
    let s1 := s.setCombiner m.die c fun x => { x with cores := x.cores + 1 }
    if c.cores + 1 = t.coresOn m.die then s1.dieArrived t b m else s1
  | 1 =>
    let s1 := s.setCombiner m.die c fun x => { x with dies := x.dies + 1 }
    if c.dies + 1 = (coreDies t.cores).length then s1.deviceArrived t b m else s1
  | _ =>
    let s1 := s.setCombiner m.die c fun x => { x with devices := x.devices + 1 }
    if c.devices + 1 = popCount 64 b.mask then
      forEach (maskMembers b.mask) s1 fun s d =>
        if d = s.fab.device then s.release m (coreDies t.cores) else s.send d 2 (.barrierRelease m)
    else s1

/-- The root die on which a pod arrival finds its entry. -/
def State.podDie (s : State) (m : BarrierMsg) : Option Nat :=
  (List.range 8).find? fun d => match s.matchEntry d m with
    | none => false
    | some c => match s.combinerStep c with
      | none => false
      | some t => rootDie t == d

/-- An arrival at its die: counted when its entry is there; an arrival for the next phase waits, and one
of an ended step is lost; a pod arrival without an entry is
held, 16 on a device, and beyond that waits where it is (R267). -/
def State.takeArrival (s : State) (m : BarrierMsg) (held : Bool) : State :=
  let die := if m.level = 2 then (s.podDie m).getD 8 else m.die
  match s.matchEntry die m with
  | some c =>
    match s.combinerStep c, s.combinerBarrier c with
    | some t, some b => s.countArrival { m with die := die } c t b
    | _, _ => s
  | none =>
    if m.level = 2 then
      if held || decide (s.fleet.heldArrivals.length < 16) then
        { s with fleet := { s.fleet with heldArrivals := s.fleet.heldArrivals ++ [m] } }
      else { s with fleet := { s.fleet with arrivals := s.fleet.arrivals ++ [m] } }
    else if (s.die die).combiners.any fun c => c.takes m then
      { s with fleet := { s.fleet with arrivals := s.fleet.arrivals ++ [m] } }
    else s

/-- Whether two arrivals come from one core, combiner or device and go to one combiner, so that their order is kept (R21). -/
def sameArrivalWay (a b : BarrierMsg) : Bool := a.level == b.level && a.source == b.source && a.die == b.die

/-- BARRIER_ARRIVAL: arrival `k` of those in flight, unless one before it on its way has not come, and after them of those held at the
fabric ingress. -/
def execBarrierArrival (k : Nat) (s : State) : Out :=
  .next (
    match s.fleet.arrivals[k]? with
    | some m => if (s.fleet.arrivals.take k).any (sameArrivalWay m) then s else { s with fleet := { s.fleet with arrivals := s.fleet.arrivals.eraseIdx k } }.takeArrival m false
    | none =>
      let j := k - s.fleet.arrivals.length
      match s.fleet.heldArrivals[j]? with
      | some m => { s with fleet := { s.fleet with heldArrivals := s.fleet.heldArrivals.eraseIdx j } }.takeArrival m true
      | none => s)

/-- The participants of a barrier on a die see its release: arrived bits clear and senses invert (R265). -/
def State.freeParticipants (s : State) (t : StepRec) (b : BarrierRec) (die : Nat) : State :=
  forEach (t.cores.filter fun n => n / 64 == die) s fun s n =>
    s.setSync n (16 * t.bank + b.handle) fun o => { o with arrived := false, sense := !o.sense }

/-- A release at a die: its entry enters the next phase. -/
def State.releaseDie (s : State) (die : Nat) (m : BarrierMsg) : State :=
  match s.matchEntry die m with
  | none => s
  | some c =>
    match s.combinerStep c, s.combinerBarrier c with
    | some t, some b =>
      (s.setCombiner die c fun x => { x with phase := 1 - x.phase, cores := 0, dies := 0, devices := 0 }).freeParticipants t b die
    | _, _ => s

/-- BARRIER_RELEASE_RECEIVE: a release in flight reaches its die, unless one that set out before it from the same combiner has not
(R21). -/
def execBarrierReleaseReceive (die : Nat) (m : BarrierMsg) (s : State) : Out :=
  .next (
    let before := s.fleet.releases.takeWhile fun r => !(r == (die, m))
    if s.fleet.releases.contains (die, m) && !(before.any fun r => r.1 == die && r.2.level == m.level && r.2.die == m.die) then
      { s with fleet := { s.fleet with releases := s.fleet.releases.erase (die, m) } }.releaseDie die m
    else s)

/-- A pod release from another device sets out for the dies that take part. -/
def State.podRelease (s : State) (m : BarrierMsg) : State :=
  s.release m ((List.range 8).filter fun d => (s.matchEntry d m).isSome)

/-- GATHER_BUFFER_WRITEBACK: an entry is written to its bank. -/
def execGatherBufferWriteback (core line : Nat) (s : State) : Out :=
  .next (
    match (s.core core).gather.find? fun e => e.line == line with
    | none => s
    | some e => (s.flushEntry core e).setCore core fun c => { c with gather := c.gather.filter fun x => !(x.line == line) })

end Sys2Proof.Machine
end

