-- ==== Sys2Proof/Machine/EngineBase.lean ====
section
/-! DEFINITION. How an engine takes the descriptor at the head of its queue, and how one completes, waits, faults or is refused
(R229, R271–R273, R365). -/

namespace Sys2Proof.Machine

/-- An engine instance: its die and its engine index (R233). -/
structure Eng where
  die : Nat
  idx : Nat

/-- The range cache of an engine. -/
def Eng.unit (e : Eng) : Nat := engineUnit e.die e.idx
/-- Its number as an agent (R232). -/
def Eng.agent (e : Eng) : Nat := e.die * 32 + e.idx
/-- Its kind as an agent: 2 FU to 7 Reducer. -/
def Eng.agentKind (e : Eng) : Nat := engineKind e.idx + 1
/-- Its number as a source of comet records (R548). -/
def Eng.inst (e : Eng) : Nat := 0x800 + e.agent

/-- What a descriptor comes to: done; waiting, so that it is tried again; taken off the queue but not complete; refused under R272;
a fault; a poisoned unit; or the end of its step with a status. -/
inductive EngRes where
  | done (s : State)
  | stall (s : State)
  | parked (s : State)
  | malformed
  | fault (kind access detail ri va : Nat)
  | poison (pa : Nat)
  | ends (status : Nat) (s : State)

/-! ## The header (R272) -/

/-- engine_kind. -/
def QDesc.kind (d : QDesc) : Nat := fieldAt d.bytes 0 1
/-- format. -/
def QDesc.format (d : QDesc) : Nat := fieldAt d.bytes 1 1
/-- A field of a descriptor. -/
def QDesc.field (d : QDesc) (off n : Nat) : Nat := fieldAt d.bytes off n

/-- Whether a descriptor's header keeps R272. -/
def QDesc.headerOk (d : QDesc) : Bool :=
  d.kind == engineKind d.engine && d.field 2 2 == d.bytes.length && decide (d.field 4 2 < 32) &&
    (d.field 8 4 == 0xFFFFFFFF || decide (d.field 8 4 < 32768)) && d.field 12 4 == 0

/-- The completion signal of a descriptor (R272). -/
def State.completion (s : State) (e : Eng) (d : QDesc) : State :=
  if d.field 6 2 = 0 then s
  else match s.step? d.queue d.step with
    | none => s
    | some t =>
      let obj := 16 * ((d.bank + b2n (bit (d.field 4 2) 4)) % 2) + d.field 4 2 % 16
      let x := d.field 8 4
      let target := if x = 0xFFFFFFFF then podObject s.fab.device d.core obj else podObject (x / 512) (x % 512) obj
      s.settleWrites.sendSignal ⟨s.fab.device, t.fn, d.ctag, d.queue, d.step, 1024 + e.agent, target, d.field 6 2⟩

/-- A descriptor leaves its engine's queue. -/
def State.popDesc (s : State) (e : Eng) (d : QDesc) : State :=
  (s.dropEngineReads e.die e.idx d.ctag).setEngine e.die e.idx fun x =>
    { x with queue := x.queue.erase d, inHand := none, items := [] }

/-- A descriptor completes: its signal leaves and its credit returns (R271, R273). -/
def State.completeDesc (s : State) (e : Eng) (d : QDesc) : State := (s.completion e d).creditBack d.engine d

/-- A descriptor that is not executed: its credit returns and the step ends (R272). -/
def State.refuseDesc (s : State) (e : Eng) (d : QDesc) : State :=
  ((s.popDesc e d).creditBack d.engine d).endStep d.queue d.step ST_MALFORMED

/-- A descriptor that faults is no longer in hand: it is dropped with the others of its step (R229). -/
def State.letHand (s : State) (e : Eng) (d : QDesc) : State :=
  (s.dropEngineReads e.die e.idx d.ctag).setEngine e.die e.idx fun x => { x with inHand := none, items := [] }

/-- Bytes that a step's engine could not read are recorded with their address, and counted where they are no longer populated (R26,
R365). -/
def State.noteBad (s : State) (e : Eng) (d : QDesc) (pa : Nat) : State :=
  (s.cometF3 4 e.inst e.agent pa (d.queue, d.step)).countMissing pa

/-- What a descriptor came to is done to the state. -/
def State.settleDesc (s : State) (e : Eng) (d : QDesc) (r : EngRes) : State :=
  match r with
  | .done s1 => ((s1.popDesc e d).completeDesc e d).settleStep d.queue d.step
  | .stall s1 => s1
  | .parked s1 => s1.popDesc e d
  | .malformed => s.refuseDesc e d
  | .fault k a det ri va => (s.letHand e d).failAccess d.queue d.step k a det ri va e.agentKind e.agent
  | .poison pa => (s.noteBad e d pa).endStep d.queue d.step ST_ECC
  | .ends st s1 => s1.endStep d.queue d.step st

/-- Whether an engine serves descriptors: it and its die work, its clock runs, and the module is in SERVICE, or in a warned DRAIN
with a descriptor in hand, which is finished (R49, R62, R541). -/
def State.engineRuns (s : State) (e : Eng) : Bool :=
  (s.pp.state == .service || (s.pp.state == .drain && s.pp.warned && (s.engine e.die e.idx).inHand.isSome)) &&
    !(s.engine e.die e.idx).retired && !(s.die e.die).retired && !(s.die e.die).resetting &&
    ((s.die e.die).power == .active || (s.die e.die).power == .gated)

/-- Whether a step's descriptors are served: while it runs, and to the end of the one in hand while it stops (R273). -/
def StepRec.served (t : StepRec) (inHand : Bool) : Bool :=
  t.ended.isNone && (match t.cond with
  | .running => true
  | .preempting => true
  | .suspending => inHand
  | _ => false)

/-- The descriptor at the head of an engine's queue is served, when a command selects it, or when it is of a format that the
engine does not have. -/
def State.engineSel (s : State) (e : Eng) (formats : List Nat) (mine : QDesc → Bool) (eff : QDesc → StepRec → State → EngRes) :
    State :=
  match (s.engine e.die e.idx).queue with
  | [] => s
  | d :: _ =>
    if !s.engineRuns e || !(mine d || !formats.contains d.format) then s
    else match s.step? d.queue d.step with
      | none => s
      | some t =>
        if !t.served ((s.engine e.die e.idx).inHand == some d) then s
        else if !d.headerOk || !mine d then s.refuseDesc e d
        else s.settleDesc e d (eff d t s)

/-- The same, for the formats that a command serves. -/
def State.engineOp (s : State) (e : Eng) (formats mine : List Nat) (eff : QDesc → StepRec → State → EngRes) : State :=
  s.engineSel e formats (fun d => mine.contains d.format) eff

/-! ## Operands and destinations (R229) -/

/-- An operand is read before anything else is done. -/
def withRead (s : State) (e : Eng) (t : StepRec) (va len : Nat) (k : State → List Byte → EngRes) : EngRes :=
  if len = 0 then k s []
  else match s.readVa e.unit t.ctag va len 1 (.engine e.die e.idx) (some (t.queue, t.index)) e.agentKind e.agent with
    | .bytes s1 b => k s1 b
    | .stall s1 => .stall s1
    | .fault kind d ri a => .fault kind 1 d ri a
    | .poison pa => .poison pa

/-- A destination is translated before anything is written. A write that reaches a die under reset is discarded there, and the step
ends (R82). -/
def withDest (s : State) (e : Eng) (t : StepRec) (va len : Nat) (k : State → List Part → EngRes) : EngRes :=
  if len = 0 then k s []
  else match s.stage e.unit t.ctag va len 2 (some (t.queue, t.index)) e.agentKind e.agent with
    | .ok s1 ps => if s1.resetHit ps then .ends ST_DIERESET (s1.countHits ps) else k s1 ps
    | .stall s1 => .stall s1
    | .fault kind d ri a => .fault kind 2 d ri a

/-- Several operands, in order. -/
def withReads (e : Eng) (t : StepRec) : List (Nat × Nat) → State → (State → List (List Byte) → EngRes) → EngRes
  | [], s, k => k s []
  | x :: r, s, k => withRead s e t x.1 x.2 fun s1 b => withReads e t r s1 fun s2 bs => k s2 (b :: bs)

/-- Several destinations, in order. -/
def withDests (e : Eng) (t : StepRec) : List (Nat × Nat) → State → (State → List (List Part) → EngRes) → EngRes
  | [], s, k => k s []
  | x :: r, s, k => withDest s e t x.1 x.2 fun s1 p => withDests e t r s1 fun s2 ps => k s2 (p :: ps)

/-- An engine as the writer of a step's bytes. -/
def Eng.writer (e : Eng) (t : StepRec) : Writer := ⟨t.ctag, some (t.queue, t.index), e.agentKind, e.agent⟩

/-- Bytes written to a destination of a step. -/
def State.engWrite (s : State) (e : Eng) (t : StepRec) (ps : List Part) (bs : List Byte) : State := s.storeParts (e.writer t) ps bs

/-- Bytes written to several destinations. -/
def State.engWrites (s : State) (e : Eng) (t : StepRec) : List (List Part) → List (List Byte) → State
  | p :: ps, b :: bs => (s.engWrite e t p b).engWrites e t ps bs
  | _, _ => s

/-- Whether two runs of bytes overlap. -/
def overlap (a la b lb : Nat) : Bool := decide (0 < la ∧ 0 < lb ∧ a < b + lb ∧ b < a + la)

/-! ## What an abort leaves (R200) -/

/-- The extents that a descriptor of a Function Unit, a Row Statistics Unit or a Sampling Engine writes (R315, R344, R391). -/
def QDesc.outputs (d : QDesc) : List (Nat × Nat) :=
  let f (o n : Nat) : Nat := fieldAt d.bytes o n
  let rows (base pitch n len : Nat) : List (Nat × Nat) :=
    if base = 0 then [] else (List.range n).map fun i => (base + i * pitch, len)
  let width (fmt : Nat) : Nat := if fmt = 5 then 4 else 2
  match engineKind d.engine with
  | 1 => [(f 0x20 8, f 0x28 4 * width (f 0x2F 1))]
  | 2 => (if f 1 1 = 2 ∨ f 1 1 = 5 then [] else rows (f 0x20 8) 16 (f 0x40 4) 16) ++ (if f 1 1 = 1 then rows (f 0x28 8) 4 (f 0x40 4) 4 else []) ++
      rows (f 0x18 8) (f 0x4C 4) (f 0x40 4) (f 0x44 4 * width (f 0x59 1))
  | 4 => if f 1 1 = 1 then rows (f 0x20 8) 64 (f 0x44 4) 64 ++ rows (f 0x28 8) 320 (f 0x44 4) 320
      else rows (f 0x20 8) (64 * 17) (f 0x44 4) (64 * (f 0x4D 1 + 1)) ++ rows (f 0x28 8) (320 * 17) (f 0x44 4) (320 * (f 0x4D 1 + 1))
  | _ => []

/-- The descriptor that an engine would be stopped in: the one in hand, or the first of its queue. -/
def EngineSt.working (e : EngineSt) : Option QDesc := e.inHand.orElse fun _ => e.queue.head?

/-- What the engines of an aborted step were writing when they stopped is undefined: free bytes (R200, R339, R355, R413). -/
def State.spoilStep (s : State) (t : StepRec) : State :=
  forEach (s.fleet.dies.flatMap fun d => d.2.engines.filterMap fun e => (e.2.working.filter fun x => x.of t.queue t.index).map fun x => (d.1, e.1, x))
    s fun s w => forEach w.2.2.outputs s fun s o =>
      match s.xlateNow (engineUnit w.1 w.2.1) t.ctag o.1 o.2 2 with
      | .ok ps =>
        let (bs, s1) := freeBytes o.2 s
        s1.storeParts ⟨t.ctag, some (t.queue, t.index), engineKind w.2.1 + 1, w.1 * 32 + w.2.1⟩ ps bs
      | _ => s

/-- An aborting step's cores and engines have stopped: it ends (R200). -/
def execStepAbortComplete (q i : Nat) (s : State) : Out :=
  .next (
    match s.step? q i with
    | some t => match t.cond with
      | .aborting => (s.spoilStep t).endStep q i t.faultStatus
      | _ => s
    | none => s)

end Sys2Proof.Machine
end

