-- ==== Sys2Proof/Machine/Bounds.lean ====
section
/-! DEFINITION. The contract's functions to 512 fraction bits, and the accuracy bounds that R321 and R322 set on an FP32 result. -/

namespace Sys2Proof.Machine

/-! ## Fixed point -/

/-- Fraction bits. -/
def fixBits : Nat := 512
/-- One. -/
def fixOne : Int := 2 ^ fixBits
/-- A product. -/
def fixMul (a b : Int) : Int := a * b / fixOne
/-- A quotient. -/
def fixDiv (a b : Int) : Int := a * fixOne / b
/-- A sum of `n` terms. -/
def fixSum (n : Nat) (f : Nat → Int) : Int := (List.range n).foldl (fun a i => a + f i) 0
/-- 1 + x c 0 (1 + x c 1 (1 + …)), where c i divides. -/
def fixNest (n : Nat) (x : Int) (c : Nat → Int) : Int := (List.range n).foldr (fun i a => fixOne + fixMul x a / c i) fixOne
/-- A finite FP32 value, exactly. -/
def fixOf (d : Dy) : Int :=
  let m : Int := d.man * 2 ^ (fixBits + d.exp).toNat
  if d.neg then -m else m

/-- Integer square root, from the highest bit down. -/
def isqrtBits (v : Nat) : Nat → Nat → Nat
  | 0, r => r
  | n + 1, r => if (r + 2 ^ n) * (r + 2 ^ n) ≤ v then isqrtBits v n (r + 2 ^ n) else isqrtBits v n r

/-- The square root of a number of at least 0. -/
def fixSqrt (x : Int) : Int :=
  let v := (x * fixOne).toNat
  isqrtBits v (v.log2 / 2 + 1) 0

/-! ## Elementary functions -/

/-- ln 2 = 2 atanh (1/3). -/
def fixLn2 : Int := 2 * fixSum 170 fun i => fixOne / ((2 * i + 1) * 3 ^ (2 * i + 1))
/-- atan (1/n). -/
def fixAtan (n : Nat) : Int := fixSum 120 fun i => (if i % 2 = 0 then 1 else -1) * (fixOne / ((2 * i + 1) * (n : Int) ^ (2 * i + 1)))
/-- π, by Machin's formula. -/
def fixPi : Int := 16 * fixAtan 5 - 4 * fixAtan 239

/-- e^x; 0 below 2^-600, and 2^300 at least above that. -/
def fixExp (x : Int) : Int :=
  let k := x / fixLn2
  let e := fixNest 110 (x - k * fixLn2) fun i => i + 1
  if k < -600 then 0 else if k < 0 then e / 2 ^ (-k).toNat else e * 2 ^ (min k 300).toNat

/-- ln x, for x above 0. -/
def fixLog (x : Int) : Int :=
  let e := x.toNat.log2
  let m := x * fixOne / 2 ^ e
  let z := fixDiv (m - fixOne) (m + fixOne)
  let s := (List.range 170).foldr (fun (i : Nat) a => fixOne / (2 * (i : Int) + 1) + fixMul (fixMul z z) a) 0
  ((e : Int) - fixBits) * fixLn2 + 2 * fixMul z s

/-- 1 / (1 + e^-x). -/
def fixSigmoid (x : Int) : Int :=
  let t := fixExp (if 0 ≤ x then -x else x)
  fixDiv (if 0 ≤ x then fixOne else t) (fixOne + t)

/-- tanh x. -/
def fixTanh (x : Int) : Int :=
  let t := fixExp (-2 * x.natAbs)
  let y := fixDiv (fixOne - t) (fixOne + t)
  if x < 0 then -y else y

/-- erf x. -/
def fixErf (x : Int) : Int :=
  let z : Int := x.natAbs
  let q := fixMul z z
  let y := if 16 * fixOne ≤ z then fixOne
    else fixMul (fixDiv (2 * z) (fixSqrt fixPi)) (fixMul (fixExp (-q)) (fixNest 1200 (2 * q) fun i => 2 * i + 3))
  if x < 0 then -y else y

/-- sin (x + n π/2), reduced exactly. -/
def fixSin (x n : Int) : Int :=
  let k := x / (fixPi / 2)
  let r := x - k * fixPi / 2
  let q := -fixMul r r
  let s := fixMul r (fixNest 60 q fun i => (2 * i + 2) * (2 * i + 3))
  let c := fixNest 60 q fun i => (2 * i + 1) * (2 * i + 2)
  match (k + n) % 4 with
  | 0 => s
  | 1 => c
  | 2 => -s
  | _ => -c

/-- √(2/π) to FP32. -/
def geluScale : Int := 13386282 * 2 ^ (fixBits - 24)

/-- The real result of a contract function of R322 that R322 states by a bound. -/
def exactFn (id : Nat) (x : Int) : Int :=
  match id with
  | 0x01 => fixExp x
  | 0x02 => fixExp (fixMul x fixLn2)
  | 0x03 => fixLog x
  | 0x04 => fixDiv fixOne x
  | 0x05 => fixSqrt (fixDiv fixOne x)
  | 0x07 => fixTanh x
  | 0x08 => fixSigmoid x
  | 0x09 => fixMul x (fixSigmoid x)
  | 0x0A => fixMul x (fixSigmoid (2 * fixMul geluScale (x + 44715 * fixMul x (fixMul x x) / 1000000)))
  | 0x0B => fixMul x (fixOne + fixErf (fixDiv x (fixSqrt (2 * fixOne)))) / 2
  | 0x0D => fixErf x
  | 0x0E => fixSin x 0
  | _ => fixSin x 1

/-! ## Bounds (R321, R322, R336) -/

/-- b of a function's normal variant, in ulp. -/
def fnBound (id : Nat) : Nat :=
  match id with
  | 0x04 => 1
  | 0x07 => 3
  | 0x08 => 3
  | 0x09 => 3
  | 0x0A => 4
  | 0x0B => 4
  | 0x0D => 3
  | _ => 2

/-- An FP32 ulp of a real number. -/
def fixUlp (y : Int) : Nat := 2 ^ (max y.natAbs.log2 (fixBits - 126) - 23)

/-- Whether an FP32 value keeps the bound b of a function about its real result; EXP gives a normal number (R323). The last 2^128
units cover the working precision. -/
def keepsBound (id b : Nat) (y : Int) (v : Num) : Bool :=
  let floor := if id = 0x0E ∨ id = 0x0F then 2 ^ (fixBits - 24) else 2 ^ (fixBits - 126)
  match v with
  | .fin d => decide ((fixOf d - y).natAbs ≤ max (b * fixUlp y) floor + 2 ^ 128) && (id != 1 || decide (2 ^ (fixBits - 126) ≤ fixOf d))
  | _ => false

/-- The largest finite FP32 value. -/
def fixMax : Int := (2 ^ 24 - 1) * 2 ^ (104 + fixBits)

/-- The result of a function for a finite operand, within b ulp: the one offered where it keeps the bound, else the real result rounded;
infinity beyond the range. Where the real result is 0, R321 sets no bound. -/
def boundResult (id b : Nat) (x : Int) (offered : Lane) : Lane :=
  let y := exactFn id x
  if fixMax < y.natAbs then enc32 (.inf (decide (y < 0)))
  else if (y = 0 ∧ (x = 0 ∨ id = 3)) ∨ keepsBound id b y (dec32 offered) then enc32 (dec32 offered)
  else enc32 (.fin ⟨decide (y < 0), y.natAbs, -fixBits⟩)

end Sys2Proof.Machine
end

