-- ==== Sys2Proof/Machine/Functions.lean ====
section
/-! DEFINITION. Micro-program steps on lane registers, micro-programs, libraries and their checks, and the contract's functions
(R320–R335). -/

namespace Sys2Proof.Machine

/-! ## Integers and FP32 (R328, R329) -/

/-- A value rounded to an integer, to nearest with ties to even. -/
def Dy.rint (d : Dy) : Int :=
  let m : Int := rneExp d.man (-d.exp)
  if d.neg then -m else m

/-- rint clamped to ±2^30, and 0 for NaN. -/
def rintClamp (a : Num) : Int :=
  match a with
  | .nan => 0
  | .inf s => if s then -(2 ^ 30) else 2 ^ 30
  | .fin d => max (-(2 ^ 30)) (min (2 ^ 30) d.rint)

/-- An integer as a register. -/
def intLane (v : Int) : Lane := BitVec.ofNat 32 (ofSigned 32 v)

/-- A register as a signed integer. -/
def laneInt (l : Lane) : Int := toSigned 32 l.toNat

/-- An integer as an exact number. -/
def intNum (v : Int) : Num := .fin ⟨decide (v < 0), v.natAbs, 0⟩

/-! ## Steps (R327–R329) -/

/-- A lane's registers. -/
abbrev LaneRegs := List Lane

/-- A register. -/
def zGet (z : LaneRegs) (i : Nat) : Lane := z.getD i 0

/-- A register written. -/
def zSet (z : LaneRegs) (i : Nat) (v : Lane) : LaneRegs := (List.range 8).map fun j => if j = i then v else zGet z j

/-- FMA. -/
def stepFma (z : LaneRegs) (d a b c : Nat) (negProd negAdd noAdd : Bool) : LaneRegs :=
  let p := (dec32 (zGet z a)).mul (dec32 (zGet z b))
  let p' := if negProd then p.negate else p
  let x := dec32 (zGet z c)
  zSet z d (enc32 (if noAdd then p' else p'.add (if negAdd then x.negate else x)))

/-- LDC. -/
def stepLdc (k : List Lane) (z : LaneRegs) (d index : Nat) : LaneRegs := zSet z d (k.getD index 0)

/-- RRED: the integer is that nearest the exact product (log entry 24). -/
def stepRred (k : List Lane) (z : LaneRegs) (d a c i : Nat) : LaneRegs :=
  let x := dec32 (zGet z a)
  let n := rintClamp (x.mul (dec32 (k.getD (i + 2) 0)))
  let m := (intNum n).negate
  let inner := enc32 ((m.mul (dec32 (k.getD i 0))).add x)
  let f := enc32 ((m.mul (dec32 (k.getD (i + 1) 0))).add (dec32 inner))
  zSet (zSet z c (intLane n)) d f

/-- TLU; a table that the function record does not name gives a free value (log entry 24). -/
def stepTlu (tables : List (Option (List Lane))) (z : LaneRegs) (d a t shift w : Nat) : LaneRegs :=
  let i := (zGet z a).toNat / 2 ^ shift % 2 ^ w
  zSet z d (match tables.getD t none with
    | some p => p.getD i 0
    | none => BitVec.ofNat 32 (Config.freeValue i))

/-- HORN, `n` further terms. -/
def hornTerms (k : List Lane) (x : Lane) (i : Nat) : Nat → Lane → Lane
  | 0, acc => acc
  | n + 1, acc => ffma false false (hornTerms k x i n acc) x (k.getD (i + (n + 1)) 0)

/-- HORN. -/
def stepHorn (k : List Lane) (z : LaneRegs) (d a n i : Nat) : LaneRegs :=
  zSet z d (hornTerms k (zGet z a) i n (k.getD i 0))

/-- The value of a FLD function. -/
def fldValue (a b : Lane) (fn sh : Nat) : Lane :=
  let e := bits a.toNat 23 8
  match fn with
  | 0 => intLane (if e = 0 then -127 else (e : Int) - 127)
  | 1 => BitVec.ofNat 32 (bits a.toNat 0 23 + 0x3F800000)
  | 2 => enc32 ((dec32 a).scale (laneInt b))
  | 3 => intLane (laneInt a + laneInt b)
  | 4 => intLane (laneInt a / 2 ^ sh)
  | 5 => enc32 (intNum (laneInt a))
  | 6 => intLane (rintClamp (dec32 a))
  | 7 => BitVec.ofNat 32 (a.toNat % 2 ^ 31 + flag (bit b.toNat 31) 31)
  | 8 => a &&& b
  | _ => a ^^^ b

/-- FLD. -/
def stepFld (z : LaneRegs) (d a b fn sh : Nat) : LaneRegs := zSet z d (fldValue (zGet z a) (zGet z b) fn sh)

/-- Whether a CSEL condition holds. -/
def cselHolds (cond : Nat) (a b : Num) : Bool :=
  match a.cmp b with
  | none => cond == 3 || cond == 4
  | some d => match cond with
    | 0 => decide (d < 0)
    | 1 => decide (d ≤ 0)
    | 2 => d == 0
    | 3 => d != 0
    | 4 => false
    | _ => true

/-- CSEL. -/
def stepCsel (k : List Lane) (z : LaneRegs) (d a b c : Nat) (bConst : Bool) (cond index : Nat) : LaneRegs :=
  let y := if bConst then k.getD index 0 else zGet z b
  if cselHolds cond (dec32 (zGet z a)) (dec32 y) then zSet z d (zGet z c) else z

/-! ## Programs (R328, R330) -/

/-- One step word on a lane. -/
def microStep (p : Pages) (z : LaneRegs) (w : Nat) : LaneRegs :=
  let d := bits w 24 3
  let a := bits w 21 3
  let b := bits w 18 3
  let c := bits w 15 3
  match bits w 27 5 with
  | 1 => stepFma z d a b c (bit w 0) (bit w 1) (bit w 2)
  | 2 => stepLdc p.k z d (bits w 0 10)
  | 3 => stepRred p.k z d a c (bits w 0 10)
  | 4 => stepTlu p.tables z d a (bits w 13 2) (bits w 8 5) (bits w 4 4 + 1)
  | 5 => stepHorn p.k z d a (bits w 11 4 + 1) (bits w 0 10)
  | 6 => stepFld z d a b (bits w 0 4) (bits w 4 5)
  | 7 => stepCsel p.k z d a b c (bit w 14) (bits w 11 3) (bits w 0 10)
  | _ => z

/-- A program from a list of words: registers at END, and the result. -/
def runMicro (p : Pages) : List Lane → LaneRegs → LaneRegs × Lane
  | [], z => (z, 0)
  | w :: r, z => if bits w.toNat 27 5 = 0 then (z, zGet z (bits w.toNat 21 3)) else runMicro p r (microStep p z w.toNat)

/-! ## The contract's functions without a library (R320–R323) -/

/-- The square root of a finite positive number, correctly rounded. -/
def sqrtLane (d : Dy) : Lane :=
  let shift : Nat := 64 + (if (d.exp % 2 : Int) = 0 then 0 else 1)
  let v := d.man * 2 ^ shift
  let r := isqrtBits v (v.log2 / 2 + 1) 0
  enc32 (.fin ⟨false, 2 * r + (if r * r = v then 0 else 1), (d.exp - shift) / 2 - 1⟩)

/-- An infinity or a zero of a sign, or one of a sign, as a lane. -/
def infLane (neg : Bool) : Lane := enc32 (.inf neg)
/-- Zero of a sign. -/
def zeroLane (neg : Bool) : Lane := enc32 (.zero neg)
/-- One of a sign. -/
def oneLane (neg : Bool) : Lane := enc32 (.fin ⟨neg, 1, 0⟩)

/-- Whether a number is below the value of a lane. -/
def numLt (a : Num) (l : Lane) : Bool :=
  match a.cmp (dec32 l) with
  | some d => decide (d < 0)
  | none => false

/-- The results that R322 fixes; none where it gives only a bound. -/
def contractFixed (id : Nat) (x p0 p1 : Lane) : Option Lane :=
  let a := dec32 x
  if a.isNan then some (enc32 .nan)
  else match id, a with
    | 0x01, .inf s => some (if s then 0 else infLane false)
    | 0x01, _ => if numLt a 0xC2AEA8F6 then some 0 else if numLt a 0x42B20000 then none else some (infLane false)
    | 0x02, .inf s => some (if s then 0 else infLane false)
    | 0x02, _ => if numLt a 0xC2FC0000 then some 0 else if numLt a 0x43000000 then none else some (infLane false)
    | 0x03, .inf s => some (if s then enc32 .nan else infLane false)
    | 0x03, .fin d => if d.man = 0 then some (infLane true) else if d.neg then some (enc32 .nan) else none
    | 0x04, .inf s => some (zeroLane s)
    | 0x04, .fin d => if d.man = 0 then some (infLane d.neg) else if numLt (.fin { d with neg := false }) 0x7E800001 then none else some (zeroLane d.neg)
    | 0x05, .inf s => some (if s then enc32 .nan else 0)
    | 0x05, .fin d => if d.man = 0 then some (infLane d.neg) else if d.neg then some (enc32 .nan) else none
    | 0x06, .inf s => some (if s then enc32 .nan else infLane false)
    | 0x06, .fin d => if d.man = 0 then some (zeroLane d.neg) else if d.neg then some (enc32 .nan) else some (sqrtLane d)
    | 0x07, .inf s => some (oneLane s)
    | 0x08, .inf s => some (if s then 0 else oneLane false)
    | 0x09, .inf s => some (if s then zeroLane true else infLane false)
    | 0x0A, .inf s => some (if s then zeroLane true else infLane false)
    | 0x0B, .inf s => some (if s then zeroLane true else infLane false)
    | 0x0C, _ => let y := fmax x 0
      some (fmul y y)
    | 0x0D, .inf s => some (oneLane s)
    | 0x0E, .inf _ => some (enc32 .nan)
    | 0x0F, .inf _ => some (enc32 .nan)
    | 0x10, _ => some (ffma false false x p0 p1)
    | _, _ => none

/-- Whether a contract id has a K1-compatible variant of its own. -/
def hasK1 (id : Nat) : Bool := contractIds.contains id && !([0x0B, 0x0C, 0x0D, 0x10].contains id)

/-- A contract function where no library is loaded: a value that R322 fixes, or a free one within the bound of R321, which is 2 ulp wider
for a K1-compatible variant (R336; log entry 23). -/
def contractValue (id : Nat) (compat : Bool) (x p0 p1 : Lane) : Lane :=
  match contractFixed id x p0 p1, dec32 x with
  | some v, _ => v
  | none, .fin d =>
    let k1 := compat && hasK1 id
    boundResult id (fnBound id + if k1 then 2 else 0) (fixOf d) (Config.contractFn id (b2n k1) x)
  | none, _ => enc32 .nan

/-- What computes a function: a program of a library, or the contract's own definition. -/
inductive FnSource where
  | program (words : List Lane) (pages : Pages) (f : FuncRec)
  | contract (id : Nat) (compat : Bool)

/-- The function of an id in a bank; none when it is not defined there. -/
def fnSource (bank : Option Library) (id : Nat) (compat : Bool) : Option FnSource :=
  match bank with
  | some l => match libPick l id compat with
    | some f => (libProgram l f).map fun ws => .program ws (libPages l f) f
    | none => none
  | none => if contractIds.contains id then some (.contract id compat) else none

/-- The registers before a lane's first step. -/
def startRegs (x up p0 p1 : Lane) : LaneRegs := [enc32 (dec32 x), up, p0, p1, 0, 0, 0, 0]

/-- The FP32 result of a function, flushed, and the lane's registers. -/
def FnSource.run (f : FnSource) (x up p0 p1 : Lane) : LaneRegs × Lane :=
  match f with
  | .program ws ps _ =>
    let r := runMicro ps ws (startRegs x up p0 p1)
    (r.1, enc32 (dec32 r.2))
  | .contract id compat => (startRegs x up p0 p1, contractValue id compat (enc32 (dec32 x)) p0 p1)

end Sys2Proof.Machine
end

