-- ==== Sys2Proof/Machine/FuncUnit.lean ====
section
/-! DEFINITION. The Function Units: their two descriptors, the steps of a micro-program on a lane, and the rewriting of a library
bank (R312–R339). -/

namespace Sys2Proof.Machine

/-- The library in a bank. -/
def State.bank (s : State) (b : Nat) : Option Library := if b = 0 then s.fleet.bank0 else s.fleet.bank1

/-- Bytes of an element of a format. -/
def elemBytes (f : Nat) : Nat := if f = 5 then 4 else 2

/-- A Function Unit descriptor (R315). -/
structure FuDesc where
  src    : Nat
  src2   : Nat
  dst    : Nat
  count  : Nat
  fn     : Nat
  inFmt  : Nat
  outFmt : Nat
  p0     : Lane
  p1     : Lane
  layout : Nat
  log2   : Nat

/-- The fields of a descriptor. -/
def fuDesc (d : QDesc) : FuDesc :=
  { src := d.field 0x10 8, src2 := d.field 0x18 8, dst := d.field 0x20 8, count := d.field 0x28 4, fn := d.field 0x2C 2
    inFmt := d.field 0x2E 1, outFmt := d.field 0x2F 1, p0 := BitVec.ofNat 32 (d.field 0x30 4)
    p1 := BitVec.ofNat 32 (d.field 0x34 4), layout := d.field 0x38 1, log2 := d.field 0x39 1 }

/-- Whether a format is one that the Function Units read and write. -/
def fuFmt (f : Nat) : Bool := f == 0 || f == 1 || f == 5

/-- The checks of R316 but for the function. -/
def fuOk (d : QDesc) (x : FuDesc) : Bool :=
  d.bytes.length == 64 && decide (x.src % 64 = 0 ∧ x.dst % 64 = 0 ∧ 1 ≤ x.count ∧ x.count ≤ 16777216) && fuFmt x.inFmt &&
  fuFmt x.outFmt && zeroAt d.bytes 0x3A 6 &&
  (if d.format = 1 then x.src2 == 0 && x.layout == 0 && x.log2 == 0
   else decide (x.fn ≤ 4) && (if x.layout = 0 then decide (x.src2 % 64 = 0) && x.log2 == 0
     else x.layout == 1 && x.src2 == 0 && decide (6 ≤ x.log2 ∧ x.log2 ≤ 12 ∧ x.count % 2 ^ x.log2 = 0)))

/-- The function id of a gate (R325). -/
def gateFn (bank : Option Library) (gate : Nat) : Nat :=
  match gate with
  | 0 => 0x09
  | 1 => 0x0A
  | 2 => 0x0B
  | 3 => 0x0C
  | _ => (bank.map (·.gateSlot)).getD 0

/-- The lanes of an instance after a descriptor: each holds the registers and result of its last element. -/
def State.keepLanes (s : State) (e : Eng) (bank : Nat) (f : FnSource) (rs : List (LaneRegs × Lane)) : State :=
  let last (j : Nat) : Nat := j + 64 * ((rs.length - 1 - j) / 64)
  let n := min 64 rs.length
  s.setEngine e.die e.idx fun x => { x with
    lanes := (List.range n).map fun j => (j, (rs.getD (last j) ([], 0)).1)
    result := (List.range n).map fun j => (j, (rs.getD (last j) ([], 0)).2)
    funcBank := bank
    func := match f with
      | .program _ _ r => some r
      | .contract _ _ => none }

/-- The result bytes, or free ones where the destination overlaps an input in a way the spec leaves undefined (R317). -/
def State.orFree (s : State) (bad : Bool) (bs : List Byte) : List Byte × State := if bad then freeBytes bs.length s else (bs, s)

/-- Elements of a run as FP32 lanes. -/
def laneElems (f : Nat) (b : List Byte) : List Lane := (elemsOf f b).map (widen f)

/-- Format 1: y = f(x), element by element (R317). -/
def fuElementwise (e : Eng) (d : QDesc) (t : StepRec) (s : State) : EngRes :=
  let x := fuDesc d
  let ib := x.count * elemBytes x.inFmt
  let ob := x.count * elemBytes x.outFmt
  match fnSource (s.bank t.libBank) x.fn (s.context t.ctag).compat with
  | none => .malformed
  | some f =>
    if !fuOk d x then .malformed
    else if (s.engine e.die e.idx).badBanks.contains t.libBank then .stall s
    else withRead s e t x.src ib fun s1 b => withDest s1 e t x.dst ob fun s2 ps =>
      let rs := (laneElems x.inFmt b).map fun v => f.run v 0 x.p0 x.p1
      let bad := overlap x.src ib x.dst ob && !(x.src == x.dst && ib == ob)
      let (out, s3) := s2.orFree bad (bytesOfElems x.outFmt (rs.map fun r => narrow x.outFmt r.2))
      .done ((s3.keepLanes e t.libBank f rs).engWrite e t ps out)

/-- The gate inputs and the up inputs of a format 2 descriptor, from its operands' bytes (R326). -/
def gatePairs (x : FuDesc) (bs : List (List Byte)) : List Lane × List Lane :=
  if x.layout = 0 then (laneElems x.inFmt (bs.getD 0 []), laneElems x.inFmt (bs.getD 1 []))
  else
    let n := 2 ^ x.log2
    let blocks := chunks (2 * n) (2 * x.count) (laneElems x.inFmt (bs.getD 0 []))
    (blocks.flatMap fun b => b.take n, blocks.flatMap fun b => b.drop n)

/-- Format 2: y = g(x) × up, the product rounded once (R325). -/
def fuGate (e : Eng) (d : QDesc) (t : StepRec) (s : State) : EngRes :=
  let x := fuDesc d
  let ib := x.count * elemBytes x.inFmt
  let ob := x.count * elemBytes x.outFmt
  let bank := s.bank t.libBank
  let id := gateFn bank x.fn
  match if id = 0 then none else fnSource bank id (s.context t.ctag).compat with
  | none => .malformed
  | some f =>
    if !fuOk d x then .malformed
    else if (s.engine e.die e.idx).badBanks.contains t.libBank then .stall s
    else
      let ins := if x.layout = 0 then [(x.src, ib), (x.src2, ib)] else [(x.src, 2 * ib)]
      withReads e t ins s fun s1 bs => withDest s1 e t x.dst ob fun s2 ps =>
        let (gs, us) := gatePairs x bs
        let rs := (gs.zip us).map fun p => f.run p.1 p.2 x.p0 x.p1
        let ys := (rs.zip us).map fun p => roundTo x.outFmt ((dec32 p.1.2).mul (dec32 p.2))
        let inPlace := x.layout == 0 && x.src == x.dst && ib == ob && !overlap x.src2 ib x.dst ob
        let bad := ins.any (fun i => overlap i.1 i.2 x.dst ob) && !inPlace
        let (out, s3) := s2.orFree bad (bytesOfElems x.outFmt ys)
        .done ((s3.keepLanes e t.libBank f rs).engWrite e t ps out)

/-- FU_ELEMENTWISE. -/
def execFuElementwise (die inst : Nat) (s : State) : Out :=
  .next (if inst < 8 then s.engineOp ⟨die, inst⟩ [1, 2] [1] (fuElementwise ⟨die, inst⟩) else s)

/-- FU_FUSED_GATE. -/
def execFuFusedGate (die inst : Nat) (s : State) : Out :=
  .next (if inst < 8 then s.engineOp ⟨die, inst⟩ [1, 2] [2] (fuGate ⟨die, inst⟩) else s)

/-! ## Steps on a lane (R327–R329) -/

/-- A lane of a working instance takes a step on its registers. -/
def State.laneStep (s : State) (u : FuLane) (f : LaneRegs → LaneRegs) : State :=
  if u.die < 8 ∧ u.inst < 8 ∧ u.lane < 64 ∧ s.engineRuns ⟨u.die, u.inst⟩ then
    s.setEngine u.die u.inst fun x => { x with lanes := tabMod (List.replicate 8 0) x.lanes u.lane f }
  else s

/-- The pages of the function in use on an instance, from the bank of the step that it serves (R335); none while no function is in use. -/
def State.lanePages (s : State) (u : FuLane) : Option Pages :=
  match (s.engine u.die u.inst).func, s.bank (s.engine u.die u.inst).funcBank with
  | some f, some l => some (libPages l f)
  | _, _ => none

/-- A step that reads a page. -/
def State.lanePaged (s : State) (u : FuLane) (f : Pages → LaneRegs → LaneRegs) : State :=
  match s.lanePages u with
  | none => s
  | some p => s.laneStep u (f p)

/-- FMA. -/
def execFma (u : FuLane) (d a b c : Nat) (negProd negAdd noAdd : Bool) (s : State) : Out :=
  .next (s.laneStep u fun z => stepFma z d a b c negProd negAdd noAdd)

/-- LDC. -/
def execLdc (u : FuLane) (d index : Nat) (s : State) : Out := .next (s.lanePaged u fun p z => stepLdc p.k z d index)

/-- RRED. -/
def execRred (u : FuLane) (d a c i : Nat) (s : State) : Out := .next (s.lanePaged u fun p z => stepRred p.k z d a c i)

/-- TLU. -/
def execTlu (u : FuLane) (d a t shift w : Nat) (s : State) : Out := .next (s.lanePaged u fun p z => stepTlu p.tables z d a t shift w)

/-- HORN. -/
def execHorn (u : FuLane) (d a n i : Nat) (s : State) : Out := .next (s.lanePaged u fun p z => stepHorn p.k z d a n i)

/-- FLD. -/
def execFld (u : FuLane) (d a b fn sh : Nat) (s : State) : Out := .next (s.laneStep u fun z => stepFld z d a b fn sh)

/-- CSEL. -/
def execCsel (u : FuLane) (d a b c : Nat) (bConst : Bool) (cond index : Nat) (s : State) : Out :=
  .next (s.lanePaged u fun p z => stepCsel p.k z d a b c bConst cond index)

/-- END: the lane's result. -/
def execMicroEnd (u : FuLane) (a : Nat) (s : State) : Out :=
  .next (
    if u.die < 8 ∧ u.inst < 8 ∧ u.lane < 64 ∧ s.engineRuns ⟨u.die, u.inst⟩ then
      s.setEngine u.die u.inst fun x => { x with
        result := tabSet x.result u.lane (zGet (tabGet (List.replicate 8 0) x.lanes u.lane) a) }
    else s)

/-- LIBRARY_BANK_REWRITE: the Supervisor rewrites a bank of an instance, with a record (R339). -/
def execLibraryBankRewrite (die inst bank : Nat) (s : State) : Out :=
  .next (
    if inst < 8 ∧ (s.engine die inst).badBanks.contains bank ∧ s.supervisorRuns then
      (s.setEngine die inst fun x => { x with badBanks := x.badBanks.filter (· != bank) }).cometF7 4 (0x800 + die * 32 + inst) [bank]
    else s)

end Sys2Proof.Machine
end

