-- ==== Sys2Proof/Machine/RowStats.lean ====
section
/-! DEFINITION. The Row Statistics Units: the row-statistics record, its updates and merges, and the five descriptors (R340–R355). -/

namespace Sys2Proof.Machine

/-! ## Functions inside the unit (R346) -/

/-- EXP, RECIP and RSQRT of the library that a step is bound to. -/
structure RsuFns where
  exp   : Lane → Lane
  recip : Lane → Lane
  rsqrt : Lane → Lane

/-- A function of the bound library, or of the contract where the bank holds none. -/
def rsuFn (bank : Option Library) (compat : Bool) (id : Nat) (x : Lane) : Lane :=
  ((fnSource bank id compat).getD (.contract id compat)).run x 0 0 0 |>.2

/-- The unit's functions; EXP of a zero is exactly 1. -/
def rsuFns (bank : Option Library) (compat : Bool) : RsuFns :=
  { exp := fun x => match dec32 x with
      | .fin d => if d.man = 0 then oneLane false else rsuFn bank compat 1 x
      | _ => rsuFn bank compat 1 x
    recip := rsuFn bank compat 4
    rsqrt := rsuFn bank compat 5 }

/-- The canonical NaN. -/
def nanLane : Lane := enc32 .nan

/-- Whether a lane is NaN. -/
def laneNan (l : Lane) : Bool := (dec32 l).isNan

/-- Whether a lane is NaN or an infinity of a sign. -/
def laneInf (l : Lane) (neg : Bool) : Bool := dec32 l == .inf neg

/-- A count converted to FP32 with one rounding. -/
def countLane (n : Nat) : Lane := enc32 (.fin ⟨false, n, 0⟩)

/-- The pairwise sum of a chunk of at most 256 values, padded with +0. -/
def chunkSum (l : List Lane) : Lane := treeSum 8 (l ++ List.replicate (256 - l.length) 0)

/-! ## The record (R343) -/

/-- A row-statistics record. -/
structure RowRec where
  m    : Lane
  s    : Lane
  n    : Nat
  kind : Nat
deriving DecidableEq, Repr

/-- The empty record of a kind. -/
def emptyRec (kind : Nat) : RowRec := ⟨if kind = 1 then infLane true else 0, 0, 0, kind⟩

/-- A record from its 16 bytes. -/
def recOf (b : List Byte) : RowRec :=
  ⟨BitVec.ofNat 32 (fieldAt b 0 4), BitVec.ofNat 32 (fieldAt b 4 4), fieldAt b 8 4, fieldAt b 12 1⟩

/-- A record's 16 bytes. -/
def recBytes (r : RowRec) : List Byte := leBytes 4 r.m.toNat ++ leBytes 4 r.s.toNat ++ leBytes 4 r.n ++ leBytes 4 r.kind

/-- Elements counted, saturating. -/
def countAdd (a b : Nat) : Nat := min (a + b) 0xFFFFFFFF

/-- A record whose row is NaN, with its count. -/
def nanRec (r : RowRec) (n : Nat) : RowRec := { r with m := nanLane, s := nanLane, n := countAdd r.n n }

/-! ## Softmax (R347, R348) -/

/-- A row of format 1: the record, the outputs and the correction. -/
def rowUpdate (f : RsuFns) (r : RowRec) (x : List Lane) (masked : Nat → Bool) (alpha : Lane) : RowRec × List Lane × Lane :=
  let cols := (List.range x.length).zip x
  let t := cols.map fun c => if masked c.1 then infLane true else fmul c.2 alpha
  let open' := ((List.range x.length).zip t).filter fun c => !masked c.1
  if laneNan r.m || laneNan r.s || r.kind != 1 || open'.any (fun c => laneNan c.2 || laneInf c.2 false) then
    (nanRec r open'.length, x.map fun _ => nanLane, nanLane)
  else
    let m1 := fmax r.m (t.foldl fmax (infLane true))
    let none' := laneInf m1 true
    let c := if none' then oneLane false else f.exp (fsub r.m m1)
    let e := t.map fun v => if none' || laneInf v true then 0 else f.exp (fsub v m1)
    let sigma := (chunks 256 e.length e).foldl (fun a k => fadd a (chunkSum k)) 0
    ({ r with m := m1, s := fadd (fmul r.s c) sigma, n := countAdd r.n open'.length }, e, c)

/-- A row of format 2 (R349): FP32 values before rounding to the output format. -/
def rowNormalise (f : RsuFns) (r : RowRec) (x : List Lane) (masked : Nat → Bool) (alpha : Lane) (mode : Nat) : List Lane :=
  if laneNan r.m || laneNan r.s || r.kind != 1 then x.map fun _ => nanLane
  else if dec32 r.s == Num.zero false then x.map fun _ => 0
  else ((List.range x.length).zip x).map fun c =>
    if mode = 1 then fmul c.2 (f.recip r.s)
    else if masked c.1 then 0
    else fmul (f.exp (fsub (fmul c.2 alpha) r.m)) (f.recip r.s)

/-! ## Merges (R350, R353) -/

/-- Records of kinds 2 and 3 merge. -/
def mergeMoments (f : RsuFns) (a b : RowRec) : RowRec :=
  let n := countAdd a.n b.n
  if a.kind = 2 then { a with m := fadd a.m b.m, n := n }
  else if n = 0 then emptyRec 3
  else
    let w := fmul (countLane b.n) (f.recip (countLane n))
    let dl := fsub b.m a.m
    { a with m := fadd a.m (fmul dl w), s := fadd (fadd a.s b.s) (fmul (fmul (fmul dl dl) (countLane a.n)) w), n := n }

/-- A row of format 3. -/
def rowMerge (f : RsuFns) (a b : RowRec) (oa ob : List Lane) : RowRec × List Lane :=
  if a.kind != b.kind || a.kind == 1 && (laneNan a.m || laneNan a.s || laneNan b.m || laneNan b.s) then
    (nanRec a b.n, oa.map fun _ => nanLane)
  else if a.kind != 1 then (mergeMoments f a b, oa)
  else
    let m := fmax a.m b.m
    let none' := laneInf m true
    let ca := if none' then oneLane false else f.exp (fsub a.m m)
    let cb := if none' then oneLane false else f.exp (fsub b.m m)
    ({ a with m := m, s := fadd (fmul a.s ca) (fmul b.s cb), n := countAdd a.n b.n },
     (oa.zip ob).map fun p => fadd (fmul p.1 ca) (fmul p.2 cb))

/-! ## Moments and their application (R352, R354) -/

/-- A chunk folded into a record. -/
def momentsChunk (f : RsuFns) (r : RowRec) (x : List Lane) : RowRec :=
  if r.kind = 2 then { r with m := fadd r.m (chunkSum (x.map fun v => fmul v v)), n := countAdd r.n x.length }
  else
    let mu := fmul (chunkSum x) (f.recip (countLane x.length))
    let dc := chunkSum (x.map fun v => fmul (fsub v mu) (fsub v mu))
    mergeMoments f r ⟨mu, dc, x.length, 3⟩

/-- A row of format 4. -/
def rowMoments (f : RsuFns) (kind : Nat) (r : RowRec) (x : List Lane) : RowRec :=
  if r.kind != kind || x.any (fun v => laneNan v || laneInf v true || laneInf v false) then nanRec r x.length
  else (chunks 256 x.length x).foldl (momentsChunk f) r

/-- A row of format 5. -/
def normApply (f : RsuFns) (kind : Nat) (r : RowRec) (x : List Lane) (gamma beta : Option (List Lane)) (eps : Lane) : List Lane :=
  if r.kind != kind || r.n == 0 || laneNan r.m || laneNan r.s then x.map fun _ => nanLane
  else
    let v := fmul (if kind = 2 then r.m else r.s) (f.recip (countLane r.n))
    let q := f.rsqrt (fadd v eps)
    let scaled := x.map fun e => fmul (if kind = 2 then e else fsub e r.m) q
    let a := match gamma with
      | some g => List.zipWith fmul scaled g
      | none => scaled
    match kind, beta with
    | 3, some b => List.zipWith fadd a b
    | _, _ => a

/-! ## The descriptor (R344, R345) -/

/-- A Row Statistics Unit descriptor. -/
structure RsuDesc where
  src : Nat
  dst : Nat
  stats : Nat
  aux : Nat
  aux2 : Nat
  limit : Nat
  rows : Nat
  cols : Nat
  srcPitch : Nat
  dstPitch : Nat
  alpha : Lane
  colBase : Nat
  inFmt : Nat
  outFmt : Nat
  mode : Nat
  flags : Nat

/-- The fields of a descriptor. -/
def rsuDesc (d : QDesc) : RsuDesc :=
  { src := d.field 0x10 8, dst := d.field 0x18 8, stats := d.field 0x20 8, aux := d.field 0x28 8, aux2 := d.field 0x30 8
    limit := d.field 0x38 8, rows := d.field 0x40 4, cols := d.field 0x44 4, srcPitch := d.field 0x48 4
    dstPitch := d.field 0x4C 4, alpha := BitVec.ofNat 32 (d.field 0x50 4), colBase := d.field 0x54 4
    inFmt := d.field 0x58 1, outFmt := d.field 0x59 1, mode := d.field 0x5A 1, flags := d.field 0x5B 1 }

/-- Bytes of an input row. -/
def RsuDesc.inRow (x : RsuDesc) : Nat := x.cols * elemBytes x.inFmt
/-- Bytes of an output row. -/
def RsuDesc.outRow (x : RsuDesc) : Nat := x.cols * elemBytes x.outFmt

/-- Which addresses, modes and other fields each format allows. -/
def rsuFormatOk (f : Nat) (x : RsuDesc) : Bool :=
  match f with
  | 1 => x.src != 0 && x.aux2 == 0 && x.mode == 0 && decide (x.flags ≤ 1)
  | 2 => x.src != 0 && x.dst != 0 && x.aux == 0 && x.aux2 == 0 && decide (x.mode ≤ 1) && x.flags == 0
  | 3 => x.src == 0 && x.aux != 0 && ((x.dst == 0) == (x.aux2 == 0)) && x.limit == 0 && x.mode == 0 && x.flags == 0 &&
      x.alpha == 0 && x.colBase == 0 && x.inFmt == 5 && x.outFmt == 5
  | 4 => x.src != 0 && x.dst == 0 && x.aux == 0 && x.aux2 == 0 && x.limit == 0 && (x.mode == 2 || x.mode == 3) &&
      decide (x.flags ≤ 1) && x.alpha == 0 && x.colBase == 0 && x.outFmt == 0
  | _ => x.src != 0 && x.dst != 0 && x.limit == 0 && (x.mode == 2 || x.mode == 3) && x.flags == 0 && x.colBase == 0

/-- The checks of R345; a pitch spans a row where the descriptor has rows of that side (log entry 25). -/
def rsuOk (d : QDesc) (x : RsuDesc) : Bool :=
  d.bytes.length == 128 && [x.src, x.dst, x.stats, x.aux, x.aux2, x.limit].all (fun a => a % 64 == 0) && x.stats != 0 &&
  decide (1 ≤ x.rows ∧ x.rows ≤ 1024) && decide ((if d.format = 3 then 0 else 1) ≤ x.cols ∧ x.cols ≤ 65536) &&
  decide (x.srcPitch % 64 = 0 ∧ x.dstPitch % 64 = 0) && fuFmt x.inFmt && fuFmt x.outFmt &&
  (x.src == 0 && x.aux2 == 0 || decide (x.inRow ≤ x.srcPitch)) && (x.dst == 0 || decide (x.outRow ≤ x.dstPitch)) &&
  rsuFormatOk d.format x && zeroAt d.bytes 0x5C 36

/-- Rows of bytes at a pitch. -/
def rowsAt (base pitch n len : Nat) : List (Nat × Nat) := (List.range n).map fun i => (base + i * pitch, len)

/-- Whether the outputs overlap an input other than in place, row by row. -/
def rsuClash (x : RsuDesc) : Bool :=
  x.dst != 0 && !(x.src == x.dst && x.srcPitch == x.dstPitch && elemBytes x.inFmt == elemBytes x.outFmt) &&
  overlap x.src ((x.rows - 1) * x.srcPitch + x.inRow) x.dst ((x.rows - 1) * x.dstPitch + x.outRow)

/-- Whether column `j` of a row is masked. -/
def RsuDesc.masked (x : RsuDesc) (limits : List Lane) (row j : Nat) : Bool :=
  x.limit != 0 && decide ((limits.getD row 0).toNat ≤ x.colBase + j)

/-- A kind mismatch leaves one record per step (R348). -/
def State.noteKind (s : State) (e : Eng) (t : StepRec) (bad : Bool) : State :=
  if bad && !t.kindNoted then
    (s.modStep t.queue t.index fun u => { u with kindNoted := true }).cometF7 4 e.inst ([t.queue] ++ words2 t.index)
  else s

/-- The functions a step's descriptors use. -/
def State.rsuFns (s : State) (t : StepRec) : RsuFns := Machine.rsuFns (s.bank t.libBank) (s.context t.ctag).compat

/-- The records of a descriptor, or empty ones of a kind where init is set. -/
def RsuDesc.recs (x : RsuDesc) (kind : Nat) (b : List Byte) : List RowRec :=
  if x.flags % 2 = 1 then List.replicate x.rows (emptyRec kind) else (chunks 16 x.rows b).map recOf

/-- Bytes of records to read: none with init set. -/
def RsuDesc.recIn (x : RsuDesc) : Nat × Nat := (x.stats, if x.flags % 2 = 1 then 0 else x.rows * 16)

/-- The rows of an operand, each with the number of its row. -/
def numbered {α : Type} (l : List α) : List (Nat × α) := (List.range l.length).zip l

/-- Format 1. -/
def rsuUpdate (e : Eng) (d : QDesc) (t : StepRec) (s : State) : EngRes :=
  let x := rsuDesc d
  let f := s.rsuFns t
  let ins := x.recIn :: (x.limit, if x.limit = 0 then 0 else x.rows * 4) :: rowsAt x.src x.srcPitch x.rows x.inRow
  let outs := (x.stats, x.rows * 16) :: (x.aux, if x.aux = 0 then 0 else x.rows * 4) ::
    rowsAt x.dst x.dstPitch x.rows (if x.dst = 0 then 0 else x.outRow)
  if !rsuOk d x then .malformed
  else withReads e t ins s fun s1 bs => withDests e t outs s1 fun s2 ps =>
    let recs := x.recs 1 (bs.getD 0 [])
    let limits := lanesOf (bs.getD 1 [])
    let rs := (numbered (recs.zip (bs.drop 2))).map fun r =>
      rowUpdate f r.2.1 (laneElems x.inFmt r.2.2) (x.masked limits r.1) x.alpha
    let ys := rs.map fun r => if x.dst = 0 then [] else bytesOfElems x.outFmt (r.2.1.map (narrow x.outFmt))
    let (bytes, s3) := s2.orFree (rsuClash x) ys.flatten
    let s4 := s3.noteKind e t (recs.any fun r => r.kind != 1)
    .done (s4.engWrites e t ps (rs.flatMap (fun r => recBytes r.1) ::
      (if x.aux = 0 then [] else bytesOfLanes (rs.map fun r => r.2.2)) :: chunks x.outRow x.rows bytes))

/-- Format 2. -/
def rsuNormalise (e : Eng) (d : QDesc) (t : StepRec) (s : State) : EngRes :=
  let x := rsuDesc d
  let f := s.rsuFns t
  let ins := (x.stats, x.rows * 16) :: (x.limit, if x.limit = 0 then 0 else x.rows * 4) :: rowsAt x.src x.srcPitch x.rows x.inRow
  if !rsuOk d x then .malformed
  else withReads e t ins s fun s1 bs => withDests e t (rowsAt x.dst x.dstPitch x.rows x.outRow) s1 fun s2 ps =>
    let recs := (chunks 16 x.rows (bs.getD 0 [])).map recOf
    let limits := lanesOf (bs.getD 1 [])
    let ys := (numbered (recs.zip (bs.drop 2))).map fun r =>
      rowNormalise f r.2.1 (laneElems x.inFmt r.2.2) (x.masked limits r.1) x.alpha x.mode
    let (bytes, s3) := s2.orFree (rsuClash x) (ys.flatMap fun y => bytesOfElems x.outFmt (y.map (narrow x.outFmt)))
    .done (s3.engWrites e t ps (chunks x.outRow x.rows bytes))

/-- A row of format 3, with free results for records of no kind that R343 names. -/
def rsuMergeRow (f : RsuFns) (a b : RowRec) (oa ob : List Lane) (s : State) : (RowRec × List Lane) × State :=
  if a.kind == b.kind && !([1, 2, 3].contains a.kind) then
    let (ms, s1) := freeBytes 8 s
    let (o, s2) := freeBytes (4 * oa.length) s1
    (({ a with m := BitVec.ofNat 32 (fieldAt ms 0 4), s := BitVec.ofNat 32 (fieldAt ms 4 4), n := countAdd a.n b.n }, lanesOf o), s2)
  else (rowMerge f a b oa ob, s)

/-- The rows of format 3, in order. -/
def rsuMergeRows (f : RsuFns) : List ((RowRec × RowRec) × (List Lane × List Lane)) → State → List (RowRec × List Lane) × State
  | [], s => ([], s)
  | r :: rest, s =>
    let (y, s1) := rsuMergeRow f r.1.1 r.1.2 r.2.1 r.2.2 s
    let (ys, s2) := rsuMergeRows f rest s1
    (y :: ys, s2)

/-- Format 3. -/
def rsuMerge (e : Eng) (d : QDesc) (t : StepRec) (s : State) : EngRes :=
  let x := rsuDesc d
  let f := s.rsuFns t
  let row := if x.dst = 0 then 0 else x.inRow
  let outs := (x.stats, x.rows * 16) :: rowsAt x.dst x.dstPitch x.rows row
  if !rsuOk d x then .malformed
  else withReads e t ((x.stats, x.rows * 16) :: (x.aux, x.rows * 16) :: rowsAt x.dst x.dstPitch x.rows row ++
      rowsAt x.aux2 x.srcPitch x.rows row) s fun s1 bs =>
    withDests e t outs s1 fun s2 ps =>
      let as := (chunks 16 x.rows (bs.getD 0 [])).map recOf
      let bs' := (chunks 16 x.rows (bs.getD 1 [])).map recOf
      let oa := ((bs.drop 2).take x.rows).map lanesOf
      let ob := (bs.drop (2 + x.rows)).map lanesOf
      let (rs, s3) := rsuMergeRows f ((as.zip bs').zip (oa.zip ob)) s2
      let clash := overlap x.aux2 ((x.rows - 1) * x.srcPitch + row) x.dst ((x.rows - 1) * x.dstPitch + row)
      let (bytes, s4) := s3.orFree clash (rs.flatMap fun r => bytesOfLanes r.2)
      let s5 := s4.noteKind e t ((as.zip bs').any fun p => p.1.kind != p.2.kind)
      .done (s5.engWrites e t ps (rs.flatMap (fun r => recBytes r.1) :: chunks row x.rows bytes))

/-- Format 4. -/
def rsuMoments (e : Eng) (d : QDesc) (t : StepRec) (s : State) : EngRes :=
  let x := rsuDesc d
  let f := s.rsuFns t
  if !rsuOk d x then .malformed
  else withReads e t (x.recIn :: rowsAt x.src x.srcPitch x.rows x.inRow) s fun s1 bs =>
    withDest s1 e t x.stats (x.rows * 16) fun s2 p =>
      let recs := x.recs x.mode (bs.getD 0 [])
      let rs := (recs.zip (bs.drop 1)).map fun r => rowMoments f x.mode r.1 (laneElems x.inFmt r.2)
      .done ((s2.noteKind e t (recs.any fun r => r.kind != x.mode)).engWrite e t p (rs.flatMap recBytes))

/-- Format 5. -/
def rsuApply (e : Eng) (d : QDesc) (t : StepRec) (s : State) : EngRes :=
  let x := rsuDesc d
  let f := s.rsuFns t
  let vec (a : Nat) : Nat × Nat := (a, if a = 0 then 0 else x.inRow)
  if !rsuOk d x then .malformed
  else withReads e t ((x.stats, x.rows * 16) :: vec x.aux :: vec x.aux2 :: rowsAt x.src x.srcPitch x.rows x.inRow) s fun s1 bs =>
    withDests e t (rowsAt x.dst x.dstPitch x.rows x.outRow) s1 fun s2 ps =>
      let recs := (chunks 16 x.rows (bs.getD 0 [])).map recOf
      let gamma := if x.aux = 0 then none else some (laneElems x.inFmt (bs.getD 1 []))
      let beta := if x.aux2 = 0 then none else some (laneElems x.inFmt (bs.getD 2 []))
      let ys := (recs.zip (bs.drop 3)).map fun r => normApply f x.mode r.1 (laneElems x.inFmt r.2) gamma beta x.alpha
      let (bytes, s3) := s2.orFree (rsuClash x) (ys.flatMap fun y => bytesOfElems x.outFmt (y.map (narrow x.outFmt)))
      .done (s3.engWrites e t ps (chunks x.outRow x.rows bytes))

/-- A Row Statistics Unit's descriptor of one format. -/
def State.rsuOp (s : State) (die inst fmt : Nat) (eff : Eng → QDesc → StepRec → State → EngRes) : Out :=
  .next (if inst < 4 then s.engineOp ⟨die, 8 + inst⟩ [1, 2, 3, 4, 5] [fmt] (eff ⟨die, 8 + inst⟩) else s)

/-- ROW_UPDATE. -/
def execRowUpdate (die inst : Nat) (s : State) : Out := s.rsuOp die inst 1 rsuUpdate

/-- ROW_NORMALISE. -/
def execRowNormalise (die inst : Nat) (s : State) : Out := s.rsuOp die inst 2 rsuNormalise

/-- ROW_MERGE. -/
def execRowMerge (die inst : Nat) (s : State) : Out := s.rsuOp die inst 3 rsuMerge

/-- MOMENTS. -/
def execMoments (die inst : Nat) (s : State) : Out := s.rsuOp die inst 4 rsuMoments

/-- NORM_APPLY. -/
def execNormApply (die inst : Nat) (s : State) : Out := s.rsuOp die inst 5 rsuApply

end Sys2Proof.Machine
end

