-- ==== Sys2Proof/Machine/KvOps.lean ====
section
/-! DEFINITION. Blocks from steps: allocation, freeing and sharing, gathers and puts, what a member serves to another, and the
upkeep of pools (R365–R387). -/

namespace Sys2Proof.Machine

/-! ## Handles and blocks (R368) -/

/-- The pool and the record of a handle. -/
def handlePool (h : Nat) : Nat := h / 2 ^ 26
/-- The record of a handle. -/
def handleRec (h : Nat) : Nat := h % 2 ^ 26

/-- The pool of a handle, when the handle is valid. -/
def State.handleIn (s : State) (h : Nat) : Option Pool :=
  (s.pool? (handlePool h)).filter fun p => h != 0 && decide (1 ≤ handleRec h ∧ handleRec h ≤ p.records)

/-- Why a handle is not a block that a context holds: the reason of R373 and the owner's function; none when it is. -/
def State.holdFault (s : State) (fn ctag h : Nat) (lostToo : Bool) : Option (Nat × Nat) :=
  match s.handleIn h with
  | none => some (3, 0xFFFF)
  | some p =>
    let r := p.record (handleRec h)
    let owner := ((tabGet? s.ctx.ctxs r.owner).map (·.owner)).getD 0xFFFF
    if !s.recLive r || (r.state == .lost && !lostToo) then some (1, 0xFFFF)
    else if r.owner = ctag then none
    else some (if owner = fn then 2 else 1, owner)

/-- The record of a valid handle. -/
def State.kvRec (s : State) (h : Nat) : KvRec := ((s.pool? (handlePool h)).map (·.record (handleRec h))).getD freshKv

/-- The key of the pool in which a block lies. -/
def State.blockKey (s : State) (h : Nat) : List Byte := ((s.pool? (homeOf (handlePool h) (s.kvRec h))).map (·.key)).getD []

/-- Bytes of a block of a handle's pool. -/
def State.blockBytes (s : State) (h : Nat) : Nat := ((s.pool? (handlePool h)).map Pool.block).getD 0

/-- The pool of a block changed. -/
def State.modRec (s : State) (h : Nat) (f : KvRec → KvRec) : State := s.modPool (handlePool h) fun p => p.setRec (handleRec h) f

/-- A block's bytes, from the frame that holds it. -/
def State.blockRead (s : State) (h off n : Nat) : List Byte := s.mem.devRead (some (s.blockKey h)) ((s.kvRec h).framePa + off) n

/-- A block's bytes written. -/
def State.blockWrite (s : State) (h off : Nat) (bs : List Byte) : State :=
  { s with mem := s.mem.devWrite (some (s.blockKey h)) ((s.kvRec h).framePa + off) bs }

/-- Whether a block can be read: it is not lost and no unit of the part is poisoned. -/
def State.blockGood (s : State) (h off n : Nat) : Bool := (s.kvRec h).state == .held && !s.poisonAt ((s.kvRec h).framePa + off) n

/-- A block becomes free: its frame is released to scrub and its record is free (R371, R385). -/
def State.freeBlock (s : State) (p i : Nat) : State :=
  let s1 := s.abandonMove p i
  match s1.pool? p with
  | none => s1
  | some x =>
    let r := x.record i
    let at_ := homeOf p r
    let s2 := match s1.pool? at_ with
      | none => s1
      | some y => s1.modPool at_ fun z => z.toScrub (y.frameOf r.framePa)
    s2.modPool p fun z => { z with recs := tabDel z.recs i }

/-! ## Refusals (R372, R373) -/

/-- A KV operation is refused: a record of kind 6, a comet record of the true cause, and the step's end. -/
def State.kvRefuse (s : State) (e : Eng) (t : StepRec) (op reason device handle va owner : Nat) : EngRes :=
  let s1 := s.fltRecord t.fn { s.fltBlank with
    kind := 6, status := ST_KVREFUSED, ctag := t.ctag, queue := t.queue, stepIndex := t.index, va := va
    agentKind := e.agentKind, agent := e.agent, detail := reason * 2 ^ 48 + op * 2 ^ 40 + device * 2 ^ 32 + handle, flags := 2 }
  .ends ST_KVREFUSED (if owner ≠ 0xFFFF then s1.cometF1 3 (handlePool handle) (some t.ctag) handle t.fn owner
    else s1.cometF0 3 (handlePool handle) handle (masterOf t.fn))

/-! ## KV_OP (R370–R372) -/

/-- A KV_OP descriptor. -/
structure KvDesc where
  list : Nat
  seq : Nat
  result : Nat
  count : Nat
  action : Nat
  pool : Nat
  amount : Nat
  hint : Nat

/-- The fields of a descriptor. -/
def kvDesc (d : QDesc) : KvDesc :=
  { list := d.field 0x10 8, seq := d.field 0x18 8, result := d.field 0x20 8, count := d.field 0x28 4, action := d.field 0x2C 1
    pool := d.field 0x2D 1, amount := d.field 0x2E 1, hint := d.field 0x2F 1 }

/-- The checks of R370. -/
def kvOk (d : QDesc) (x : KvDesc) : Bool :=
  d.bytes.length == 64 && decide (x.list % 64 = 0 ∧ 1 ≤ x.count ∧ x.count ≤ 4096) && zeroAt d.bytes 0x30 16 &&
  (match x.action with
  | 1 => decide (x.result ≠ 0 ∧ x.result % 64 = 0 ∧ x.pool < 64 ∧ x.hint < 4) && x.amount == 0
  | 2 => x.seq == 0 && x.result == 0 && x.pool == 0 && x.hint == 0 && x.amount == 0
  | 3 => x.seq == 0 && x.result == 0 && x.pool == 0 && x.hint == 0 && decide (1 ≤ x.amount)
  | _ => false)

/-- The first free record numbers of a pool, the lowest first. -/
def Pool.freeRecs (p : Pool) (n : Nat) : List Nat :=
  (((List.range p.records).map (· + 1)).filter fun i => (p.record i).state == .free).take n

/-- The zeroed frames of a pool. -/
def Pool.zeroed (p : Pool) : List Nat := (p.frames.filter fun f => f.2 == .zeroed).map (·.1)

/-- The next zeroed frame in the rotation over the stacks or packages that the pool spans, the lowest-numbered of its half. -/
def Pool.nextFrame (p : Pool) : Option (Nat × Nat) :=
  let first := p.base / 2 ^ 36
  let n := (p.base + p.length - 1) / 2 ^ 36 - first + 1
  (List.range n).findSome? fun k =>
    let h := (p.rotor + k) % n
    (p.zeroed.find? fun f => p.framePa f / 2 ^ 36 == first + h).map fun f => (f, (h + 1) % n)

/-- Frames taken one after another. -/
def Pool.takeFrames : Nat → Pool → List Nat × Pool
  | 0, p => ([], p)
  | n + 1, p =>
    match p.nextFrame with
    | none => ([], p)
    | some (f, r) =>
      let (fs, q) := Pool.takeFrames n { p with frames := tabSet p.frames f .own, rotor := r }
      (f :: fs, q)

/-- ALLOC on a pool: the record numbers taken and the pool after it; none when it cannot supply them (R371). -/
def Pool.alloc (p : Pool) (k : KvRec) (n : Nat) : Option (List Nat × Pool) :=
  let is := p.freeRecs n
  if is.length < n ∨ p.zeroed.length < n then none
  else
    let (fs, q) := p.takeFrames n
    some (is, (is.zip fs).foldl (fun q e => q.setRec e.1 fun _ => { k with framePa := p.framePa e.2 }) q)

/-- A new block's record. -/
def State.newRec (s : State) (ctag seq hint : Nat) : KvRec :=
  { freshKv with
    sequence := seq, count := 1, owner := ctag, state := .held, incarnation := s.incarnation ctag, hint := hint
    lastGather := s.aon.clock, hintAt := s.aon.clock }

/-- ALLOC. -/
def kvAlloc (e : Eng) (d : QDesc) (t : StepRec) (s : State) : EngRes :=
  let x := kvDesc d
  if !kvOk d x then .malformed
  else withDests e t [(x.list, 4 * x.count), (x.result, 8)] s fun s1 ps =>
    match s1.pool? x.pool with
    | none => s1.kvRefuse e t 1 3 s1.fab.device (x.pool * 2 ^ 26) x.list 0xFFFF
    | some p =>
      match p.alloc (s1.newRec t.ctag x.seq x.hint) x.count with
      | none => .done (s1.engWrite e t (ps.getD 1 []) (leBytes 8 1))
      | some (is, q) =>
        let s2 := s1.modPool x.pool fun _ => q
        .done (s2.engWrites e t ps [is.flatMap fun i => leBytes 4 (x.pool * 2 ^ 26 + i), leBytes 8 0])

/-- FREE or SHARE of one block. -/
def State.kvOne (s : State) (action amount h : Nat) : State :=
  if action = 3 then s.modRec h fun r => { r with count := r.count + amount }
  else if (s.kvRec h).count ≤ 1 then s.freeBlock (handlePool h) (handleRec h)
  else s.modRec h fun r => { r with count := r.count - 1 }

/-- FREE or SHARE in list order: the state after it, or the entry, the reason and the owner's function of the first that fails. -/
def State.kvList (t : StepRec) (action amount : Nat) : Nat → List Nat → State → Sum (Nat × Nat × Nat × Nat) State
  | _, [], s => .inr s
  | i, h :: r, s =>
    match s.holdFault t.fn t.ctag h true with
    | some (reason, owner) => .inl (i, h, reason, owner)
    | none =>
      if action = 3 ∧ 65535 < (s.kvRec h).count + amount then .inl (i, h, 4, 0xFFFF)
      else State.kvList t action amount (i + 1) r (s.kvOne action amount h)

/-- FREE and SHARE. -/
def kvFreeShare (e : Eng) (d : QDesc) (t : StepRec) (s : State) : EngRes :=
  let x := kvDesc d
  if !kvOk d x then .malformed
  else withRead s e t x.list (4 * x.count) fun s1 bs =>
    match State.kvList t x.action x.amount 0 ((chunks 4 x.count bs).map leNat) s1 with
    | .inr s2 => .done s2
    | .inl (i, h, reason, owner) => s1.kvRefuse e t x.action reason s1.fab.device h (x.list + 4 * i) owner

/-- The formats of the Mover. -/
def moverFormats : List Nat := [0x10, 0x11, 0x12, 0x13, 0x14, 0x15]

/-- A Mover's descriptor, when a command selects it. -/
def State.moverOp (s : State) (die mover : Nat) (mine : QDesc → Bool) (eff : Eng → QDesc → StepRec → State → EngRes) : Out :=
  .next (if mover < 8 then s.engineSel ⟨die, 16 + mover⟩ moverFormats mine (eff ⟨die, 16 + mover⟩) else s)

/-- ALLOC; it also meets a KV_OP of no action. -/
def execAlloc (die mover : Nat) (s : State) : Out :=
  s.moverOp die mover (fun d => d.format == 0x12 && d.field 0x2C 1 != 2 && d.field 0x2C 1 != 3) kvAlloc

/-- FREE. -/
def execFree (die mover : Nat) (s : State) : Out :=
  s.moverOp die mover (fun d => d.format == 0x12 && d.field 0x2C 1 == 2) kvFreeShare

/-- SHARE. -/
def execShare (die mover : Nat) (s : State) : Out :=
  s.moverOp die mover (fun d => d.format == 0x12 && d.field 0x2C 1 == 3) kvFreeShare

/-! ## Items that other members serve -/

/-- The tag of a row of the descriptor in hand. -/
def State.itemTag (s : State) (e : Eng) (row : Nat) : Nat := (s.engine e.die e.idx).tagGen % 256 * 2 ^ 24 + row % 2 ^ 16 * 2 ^ 8 + e.agent

/-- A descriptor is taken in hand with rows that other members serve. -/
def State.takeHand (s : State) (e : Eng) (d : QDesc) (rows : List Nat) : State :=
  let items := rows.map fun r => RemoteItem.mk (s.itemTag e r) r none
  s.setEngine e.die e.idx fun x => { x with inHand := some d, items := items, tagGen := (x.tagGen + 1) % 256 }

/-- The items of a descriptor in hand; none when it is not in hand. -/
def State.itemsOf (s : State) (e : Eng) (d : QDesc) : List RemoteItem :=
  let x := s.engine e.die e.idx
  if x.inHand = some d then x.items else []

/-- Another member's answer to an item reaches the engine that sent it; one that no item waits for is discarded. -/
def State.takeAnswer (s : State) (tag : Nat) (a : RemoteAns) : State :=
  s.setEngine (tag % 256 / 32) (tag % 32) fun x => { x with
    items := x.items.map fun i => if i.tag = tag ∧ i.answer = none then { i with answer := some a } else i }

/-! ## GATHER and PUT (R375–R377) -/

/-- A GATHER or PUT descriptor. -/
structure CopyDesc where
  table : Nat
  data : Nat
  first : Nat
  count : Nat
  off : Nat
  span : Nat
  pitch : Nat

/-- The fields of a descriptor. -/
def copyDesc (d : QDesc) : CopyDesc :=
  { table := d.field 0x10 8, data := d.field 0x18 8, first := d.field 0x20 4, count := d.field 0x24 4, off := d.field 0x28 4
    span := d.field 0x2C 4, pitch := d.field 0x30 4 }

/-- The checks of R376. -/
def copyOk (d : QDesc) (x : CopyDesc) : Bool :=
  d.bytes.length == 64 && decide (x.table % 64 = 0 ∧ x.data % 64 = 0 ∧ 1 ≤ x.count ∧ x.count ≤ 65536 ∧ x.off % 64 = 0 ∧
    x.span % 64 = 0 ∧ 64 ≤ x.span ∧ x.pitch % 64 = 0 ∧ x.span ≤ x.pitch) && zeroAt d.bytes 0x34 12

/-- A block table entry; `bad` where an rsv bit is set, or a device with remote 0. -/
structure TableEntry where
  handle : Nat
  device : Nat
  remote : Bool
  bad    : Bool

/-- An entry from its 8 bytes. -/
def tableEntry (b : List Byte) : TableEntry :=
  let w := fieldAt b 4 4
  ⟨fieldAt b 0 4, w % 64, bit w 6, decide (128 ≤ w) || (!bit w 6 && w % 64 != 0)⟩

/-- The entries of a table's bytes, with their numbers. -/
def tableEntries (n : Nat) (b : List Byte) : List (Nat × TableEntry) := (List.range n).zip ((chunks 8 n b).map tableEntry)

/-- Whether an entry is served by another member. -/
def State.elsewhere (s : State) (x : TableEntry) : Bool := x.remote && x.device != s.fab.device

/-- Why a local entry is refused. -/
def State.entryFault (s : State) (fn ctag h off span : Nat) (lostToo : Bool) : Option (Nat × Nat) :=
  match s.holdFault fn ctag h lostToo with
  | some f => some f
  | none => if s.blockBytes h < off + span then some (5, 0xFFFF) else none

/-- Why an entry of a GATHER is refused at the check point; one whose form is wrong names no valid block (log entry 31). -/
def State.gatherFault (s : State) (t : StepRec) (c : CopyDesc) (x : TableEntry) : Option (Nat × Nat) :=
  if x.handle = 0 then none
  else if x.bad then some (3, 0xFFFF)
  else if s.elsewhere x then (if s.adjacent x.device then none else some (6, 0xFFFF))
  else s.entryFault t.fn t.ctag x.handle c.off c.span true

/-- Why an entry of a PUT is refused. -/
def State.putFault (s : State) (t : StepRec) (c : CopyDesc) (x : TableEntry) : Option (Nat × Nat) :=
  if x.handle = 0 then none
  else if x.remote || x.bad then some (3, 0xFFFF)
  else s.entryFault t.fn t.ctag x.handle c.off c.span false

/-- The first entry that is refused. -/
def firstFault (f : TableEntry → Option (Nat × Nat)) (xs : List (Nat × TableEntry)) : Option (Nat × TableEntry × Nat × Nat) :=
  xs.findSome? fun x => (f x.2).map fun r => (x.1, x.2, r.1, r.2)

/-- The first byte of a part of a block that cannot be read. -/
def State.blockBad (s : State) (h off n : Nat) : Nat := s.badByte ((s.kvRec h).framePa + off) n

/-- The local rows of a GATHER in order, up to the first block that cannot be read; the address there, none when every row is done. -/
def gatherRows (e : Eng) (t : StepRec) (c : CopyDesc) : List (TableEntry × List Part) → State → State × Option Nat
  | [], s => (s, none)
  | (x, ps) :: r, s =>
    if x.handle = 0 then gatherRows e t c r (s.engWrite e t ps (zeros c.span))
    else if s.elsewhere x then gatherRows e t c r s
    else if !s.blockGood x.handle c.off c.span then (s, some (s.blockBad x.handle c.off c.span))
    else
      let s1 := s.engWrite e t ps (s.blockRead x.handle c.off c.span)
      gatherRows e t c r (s1.modRec x.handle fun k => { k with lastGather := s1.aon.clock })

/-- The requests for rows that other members serve. -/
def State.askRows (s : State) (e : Eng) (t : StepRec) (c : CopyDesc) (rows : List (Nat × TableEntry)) : State :=
  forEach rows s fun s x =>
    s.send x.2.device 6 (.gatherRequest ⟨s.fab.device, t.fn, t.ctag, x.2.handle, c.off, c.span, s.itemTag e x.1⟩)

/-- A GATHER whose remote rows are all answered: its rows are written, or it is refused and its rows are undefined. -/
def gatherEnd (e : Eng) (t : StepRec) (c : CopyDesc) (xs : List (Nat × TableEntry)) (items : List RemoteItem) (ps : List (List Part))
    (s : State) : EngRes :=
  match items.find? fun i => i.answer.any fun a => a.status != ST_OK with
  | some i =>
    let a := i.answer.getD ⟨ST_OK, 0, 0, 0, 0, 0, []⟩
    let (bs, s1) := freeBytes (c.span * c.count) s
    let s2 := s1.engWrites e t ps (chunks c.span c.count bs)
    let x := ((xs.find? fun x => x.1 == i.row).map (·.2)).getD ⟨0, 0, false, false⟩
    if a.status = ST_ECC then .ends ST_ECC s2
    else s2.kvRefuse e t 4 a.detail x.device x.handle (c.table + 8 * (c.first + i.row)) 0xFFFF
  | none =>
    .done (forEach items s fun s i => s.engWrite e t (ps.getD i.row []) ((i.answer.map (·.bytes)).getD []))

/-- GATHER. -/
def kvGather (e : Eng) (d : QDesc) (t : StepRec) (s : State) : EngRes :=
  let c := copyDesc d
  let items := s.itemsOf e d
  if !copyOk d c then .malformed
  else if items.any fun i => i.answer.isNone then .stall s
  else withRead s e t (c.table + 8 * c.first) (8 * c.count) fun s1 tb =>
    withDests e t (rowsAt c.data c.pitch c.count c.span) s1 fun s2 ps =>
      let xs := tableEntries c.count tb
      if !items.isEmpty then gatherEnd e t c xs items ps s2
      else match firstFault (s2.gatherFault t c) xs with
        | some (i, x, reason, owner) =>
          s2.kvRefuse e t 4 reason (if x.remote then x.device else s2.fab.device) x.handle (c.table + 8 * (c.first + i)) owner
        | none =>
          let far := xs.filter fun x => x.2.handle != 0 && s2.elsewhere x.2
          let (s3, bad) := gatherRows e t c ((xs.map (·.2)).zip ps) s2
          match bad with
          | some pa => .ends ST_ECC (s3.noteBad e d pa)
          | none => if far.isEmpty then .done s3
            else .stall ((s3.askRows e t c far).takeHand e d (far.map (·.1)))

/-- The blocks of a PUT written. -/
def putRows (c : CopyDesc) : List (TableEntry × List Byte) → State → State
  | [], s => s
  | (x, bs) :: r, s =>
    putRows c r ((s.blockWrite x.handle c.off bs).modRec x.handle fun k => { k with putGen := (k.putGen + 1) % 65536 })

/-- PUT. -/
def kvPut (e : Eng) (d : QDesc) (t : StepRec) (s : State) : EngRes :=
  let c := copyDesc d
  if !copyOk d c then .malformed
  else withRead s e t (c.table + 8 * c.first) (8 * c.count) fun s1 tb =>
    let xs := tableEntries c.count tb
    let used := xs.filter fun x => x.2.handle != 0
    withReads e t (used.map fun x => (c.data + x.1 * c.pitch, c.span)) s1 fun s2 bs =>
      match firstFault (s2.putFault t c) xs with
      | some (i, x, reason, owner) =>
        s2.kvRefuse e t 5 reason (if x.remote then x.device else s2.fab.device) x.handle (c.table + 8 * (c.first + i)) owner
      | none => .done (putRows c ((used.map (·.2)).zip bs) s2)

/-- GATHER. -/
def execGather (die mover : Nat) (s : State) : Out := s.moverOp die mover (fun d => d.format == 0x10) kvGather

/-- PUT. -/
def execPut (die mover : Nat) (s : State) : Out := s.moverOp die mover (fun d => d.format == 0x11) kvPut

/-- An answer of refusal, with its status and its detail. -/
def kvNo (status detail : Nat) : RemoteAns := ⟨status, 0, 0, 0, 0, detail, []⟩

/-- REMOTE_GATHER_REQUEST: the owner is checked as for a signal, the block as for a local entry, and the data or a refusal sent. -/
def execRemoteGatherRequest (r : GatherReq) (s : State) : Out :=
  .next (
    let owns := (tabGet? s.ctx.ctxs r.ctag).any fun c => c.owner == r.function
    let fault := if !owns then some (1, 0xFFFF) else s.entryFault r.function r.ctag r.handle r.offset r.span true
    match fault with
    | some (reason, owner) =>
      (if owner ≠ 0xFFFF then s.cometF1 3 (handlePool r.handle) (some r.ctag) r.handle r.function owner
       else s.cometF0 3 (handlePool r.handle) r.handle (masterOf r.function)).send r.requester 6 (.kvAck r.tag (kvNo ST_KVREFUSED reason))
    | none =>
      if !s.blockGood r.handle r.offset r.span then
        let pa := s.blockBad r.handle r.offset r.span
        ((s.cometF3 3 (handlePool r.handle) (handlePool r.handle) pa (0, 0)).countMissing pa).send r.requester 6 (.kvAck r.tag (kvNo ST_ECC 0))
      else (s.modRec r.handle fun k => { k with lastGather := s.aon.clock }).send r.requester 6
        (.gatherData r.tag (s.blockRead r.handle r.offset r.span)))

/-! ## Upkeep (R365, R367, R382, R383, R385) -/

/-- FRAME_SCRUB: the lowest frame of a pool that awaits scrub is zeroed. -/
def execFrameScrub (pool : Nat) (s : State) : Out :=
  .next (
    match s.pool? pool with
    | none => s
    | some p => match ((List.range p.total).drop p.tableFrames).find? fun f => (tabGet .scrub p.frames f) == .scrub with
      | none => s
      | some f => { s.modPool pool (fun q => { q with frames := tabSet q.frames f .zeroed }) with
          mem := s.mem.devWrite (some p.key) (p.framePa f) (zeros p.block) })

/-- The age of a record, in units of 2^30 ns, saturating at 63 (R369). -/
def State.ageOf (s : State) (r : KvRec) : Nat := min 63 ((s.aon.clock - r.lastGather) / 2 ^ 30)

/-- The tier in which a block lies. -/
def State.tierIn (s : State) (p : Nat) (r : KvRec) : Nat := ((s.pool? (homeOf p r)).map (·.tier)).getD 0

/-- The blocks of a pool and its partner that could move out of HBM, or back into it: pool, record number and record. -/
def State.movable (s : State) (p : Nat) (tier : Nat) : List (Nat × Nat × KvRec) :=
  [p, partnerOf p].flatMap fun k =>
    ((s.pool? k).toList.flatMap fun x => x.recs.filter fun r =>
      r.2.state == .held && s.recLive r.2 && !r.2.moving && s.tierIn k r.2 == tier && (s.pool? (partnerOf k)).isSome).map fun r => (k, r.1, r.2)

/-- The order in which blocks move out: hinted 2 before hinted 0, older age first. -/
def State.outRank (s : State) (r : KvRec) : Nat := (if r.hint = 2 then 0 else 64) + (63 - s.ageOf r)

/-- Whether firmware's policy now moves a block to the partner of the pool it lies in (R383). -/
def State.policyMoves (s : State) (p i : Nat) (r : KvRec) : Bool :=
  let hbm := if ((s.pool? p).map (·.tier)).getD 0 = 0 then p else partnerOf p
  match s.pool? hbm with
  | none => false
  | some h =>
    if s.tierIn p r = 0 then
      (h.outflow || decide (h.zeroed.length * 32 < h.total)) && decide (h.zeroed.length * 16 < h.total) && (r.hint == 0 || r.hint == 2) &&
        (s.movable p 0).all fun c => !(c.2.2.hint == 0 || c.2.2.hint == 2) || decide (s.outRank r ≤ s.outRank c.2.2)
    else
      decide (h.total < h.zeroed.length * 16) && r.hint == 1 &&
        (s.movable p 1).all fun c => c.2.2.hint != 1 || decide (r.hintAt ≤ c.2.2.hintAt) || (c.1 == p && c.2.1 == i)

/-- A zeroed frame for a move, on the die of the source where one is free. -/
def Pool.moveTarget (q : Pool) (die : Nat) : Option Nat :=
  match q.zeroed.find? fun f => halfOf (q.framePa f) / 4 == die with
  | some f => some f
  | none => q.zeroed.head?

/-- TIER_MOVE_BEGIN: firmware reserves a frame of the partner for a block that its policy moves, and a copy begins. -/
def execTierMoveBegin (pool record : Nat) (s : State) : Out :=
  .next (
    match s.pool? pool with
    | none => s
    | some p =>
      let r := p.record record
      let dest := partnerOf (homeOf pool r)
      if !(s.pp.state == .service && s.supervisorRuns && r.state == .held && s.recLive r && !r.moving && s.policyMoves pool record r) then s
      else match s.pool? dest with
        | none => s
        | some q => match q.moveTarget (halfOf r.framePa / 4) with
          | none => s
          | some f =>
            let s1 := s.modPool dest fun q => { q with frames := tabSet q.frames f .reserved }
            let s2 := s1.modPool pool fun p =>
              { p.setRec record (fun k => { k with moving := true, moveFrame := f }) with moves := p.moves ++ [(record, r.putGen, 0)] }
            let src := homeOf pool r
            s2.modPool src fun h => { h with outflow := h.tier == 0 && decide (h.zeroed.length * 16 < h.total) })

/-- A move's commit: the new frame takes the data and the old frame is released. -/
def State.commitMove (s : State) (pool record : Nat) (r : KvRec) : State :=
  let src := homeOf pool r
  let dest := partnerOf src
  match s.pool? src, s.pool? dest with
  | some a, some b =>
    let data := s.mem.devRead (some a.key) r.framePa a.block
    let pa := b.framePa r.moveFrame
    let s1 := { s with mem := s.mem.devWrite (some b.key) pa data }
    let s2 := s1.modPool dest fun q => { q with frames := tabSet q.frames r.moveFrame (if dest = pool then .own else .partner) }
    let s3 := s2.modPool src fun q => q.toScrub (a.frameOf r.framePa)
    s3.modPool pool fun p =>
      { p.setRec record (fun k => { k with framePa := pa, inPartner := !k.inPartner, moving := false, moveFrame := 0 }) with
        moves := p.moves.filter fun m => m.1 != record }
  | _, _ => s

/-- TIER_MOVE_COMMIT: the copy ends, and commits, is made again, or is abandoned (R382). -/
def execTierMoveCommit (pool record : Nat) (s : State) : Out :=
  .next (
    match s.pool? pool with
    | none => s
    | some p => match p.moves.find? fun m => m.1 == record with
      | none => s
      | some (_, gen, fails) =>
        let r := p.record record
        if s.pp.state != .service then s.abandonMove pool record
        else if s.poisonAt r.framePa p.block then
          let pa := s.badByte r.framePa p.block
          (((s.cometF3 3 pool pool pa (0, 0)).countMissing pa).abandonMove pool record).modPool pool fun p =>
            p.setRec record fun k => { k with state := .lost }
        else if r.putGen = gen then s.commitMove pool record r
        else if 2 ≤ fails then s.abandonMove pool record
        else s.modPool pool fun p => { p with moves := p.moves.map fun m => if m.1 = record then (record, r.putGen, fails + 1) else m })

/-- STALE_SWEEP: every stale record of a pool is freed and its frame sent to scrub. -/
def execStaleSweep (pool : Nat) (s : State) : Out :=
  .next (
    match s.pool? pool with
    | none => s
    | some p => forEach (p.recs.filter fun r => s.recStale r.2) s fun s r => s.freeBlock pool r.1)

/-- PATROL_SCRUB: the patrol reads a unit of the tiers; where it meets a half that re-formed, the Supervisor's rewriting of the half
with zeros has ended (R363, R365; log entry 30). -/
def execPatrolScrub (unit : Nat) (s : State) : Out :=
  .next (
    match locate (unit * 64) with
    | .tier h o =>
      if s.halfBytes h ≤ o then s
      else
        let s1 := if (s.half h).lost && s.supervisorRuns then
            { s.setHalf h (fun x => { x with lost := false }) with
              mem := { s.mem.zero (halfBase h) (2 ^ 36) with
                poison := s.mem.poison.filter fun u => !decide (halfBase h ≤ u * 64 ∧ u * 64 < halfBase h + 2 ^ 36) } }
          else s
        { s1 with tiers := { s1.tiers with patrol := unit + 1 } }
    | _ => s)

end Sys2Proof.Machine
end

