-- ==== Sys2Proof/Machine/Expand.lean ====
section
/-! DEFINITION. Stored tensors and their expansion: the unit index, raw and coded planes, and Exp-Golomb codes (R441–R444). -/

namespace Sys2Proof.Machine

/-- The bits of a coded plane, in the order in which they are read. -/
def planeBits (bs : List Byte) : List Bool := bs.flatMap fun b => (List.range 8).map fun i => bit b.toNat (7 - i)

/-- Zero bits at the front, and the bits from the first one on. -/
def zeroRun : List Bool → Nat × List Bool
  | false :: r =>
    let (n, x) := zeroRun r
    (n + 1, x)
  | l => (0, l)

/-- A number from its bits, the most significant first. -/
def bitsNat (l : List Bool) : Nat := l.foldl (fun a b => 2 * a + b2n b) 0

/-- One Exp-Golomb code of order `k`: the index, and the bits after it; none when it is corrupt (R443, R444). -/
def golomb (k : Nat) (l : List Bool) : Option (Nat × List Bool) :=
  let (z, r) := zeroRun l
  let n := z + k + 1
  if 15 < z ∨ r.length < n then none else some (bitsNat (r.take n) - 2 ^ k, r.drop n)

/-- The field value of an index under a map, for a field of `w` bits; none when it maps outside (R443, R444). -/
def fieldOf (m c w d : Nat) : Option Nat :=
  let inRange (v : Int) : Option Nat := if 0 ≤ v ∧ v < 2 ^ w then some v.toNat else none
  match m with
  | 0 => inRange (if d % 2 = 0 then (c : Int) + d / 2 else (c : Int) - (d + 1) / 2)
  | 1 => if d < 2 ^ w then some ((c + 2 ^ w - d) % 2 ^ w) else none
  | 2 => if d < 2 ^ w then some ((c + d) % 2 ^ w) else none
  | _ => inRange d

/-- The field values of a coded plane, and the bits left over. -/
def codedPlane (t c w : Nat) : Nat → List Bool → Option (List Nat × List Bool)
  | 0, l => some ([], l)
  | n + 1, l =>
    match golomb (t % 4) l with
    | none => none
    | some (d, r) => match fieldOf (t / 4) c w d, codedPlane t c w n r with
      | some x, some (xs, q) => some (x :: xs, q)
      | _, _ => none

/-- Elements and coded bits of a unit of a format (R442). -/
def unitElems (fmt : Nat) : Nat := if fmt = 0 then 2048 else 4096
/-- Bits of the coded field. -/
def codedBits (fmt : Nat) : Nat := if fmt = 2 then 4 else 8
/-- Bytes of the raw plane. -/
def rawBytes (fmt : Nat) : Nat := if fmt = 6 then 0 else 2048

/-- Raw bits and coded fields recombined. -/
def recombine (fmt : Nat) (raw : List Byte) (xs : List Nat) : List Byte :=
  match fmt with
  | 0 => (raw.zip xs).flatMap fun e => leBytes 2 (e.1.toNat / 128 * 2 ^ 15 + e.2 * 2 ^ 7 + e.1.toNat % 128)
  | 2 => ((elemsOf 4 raw).zip xs).map fun e => BitVec.ofNat 8 (e.1 / 8 * 128 + e.2 * 8 + e.1 % 8)
  | _ => xs.map (BitVec.ofNat 8)

/-- A coded unit from the bytes after its header. -/
def codedUnit (fmt table center : Nat) (b : List Byte) : Option (List Byte) :=
  match codedPlane table center (codedBits fmt) (unitElems fmt) (planeBits (b.drop (rawBytes fmt))) with
  | some (xs, left) =>
    if b.length < rawBytes fmt ∨ 8 ≤ left.length ∨ left.any id then none else some (recombine fmt (b.take (rawBytes fmt)) xs)
  | none => none

/-- A unit at an offset of a tensor's stored bytes. -/
def unitAt (fmt table center off : Nat) (stored : List Byte) : Option (List Byte) :=
  let h := fieldAt stored off 4
  let n := h % 2 ^ 31
  let b := bytesAt stored (off + 4) n
  if b.length < n ∨ stored.length < off + 4 ∨ off % 4 ≠ 0 then none
  else if h / 2 ^ 31 = 1 then codedUnit fmt table center b
  else if n = 4096 then some b else none

/-- Lists of bytes joined, when all are there. -/
def joinAll : List (Option (List Byte)) → Option (List Byte)
  | [] => some []
  | some a :: r => (joinAll r).map (a ++ ·)
  | none :: _ => none

/-- Some units of a tensor expanded, from its stored bytes. -/
def expandUnits (t : Tensor) (stored : List Byte) (first n : Nat) : Option (List Byte) :=
  joinAll ((List.range n).map fun i => unitAt t.fmt t.table t.center (fieldAt stored (4 * (first + i)) 4) stored)

/-- A tensor's bytes expanded, from the shard's data (R441). -/
def expandTensor (t : Tensor) (data : List Byte) : Option (List Byte) :=
  let stored := data.drop t.storedOff
  if t.table = 0xFF then
    (let b := stored.take t.expandedLen
     if b.length = t.expandedLen then some b else none)
  else expandUnits t stored 0 (t.expandedLen / 4096)

/-- The tensors of a shard. -/
def Image.tensorsOf (i : Image) (h : Shard) : List Tensor := (i.tensors.drop h.firstTensor).take h.tensorCount

/-- The expanded form of a shard (R440); none when it is corrupt. -/
def Image.expand (i : Image) (h : Shard) (data : List Byte) : Option (List Byte) :=
  (i.tensorsOf h).foldl (fun acc t => match acc, expandTensor t data with
    | some a, some b =>
      let room := a ++ List.replicate (t.expandedOff + b.length - a.length) 0
      some (putAt room t.expandedOff b)
    | _, _ => none) (some [])

/-- Frames of a shard, F. -/
def Shard.frames (h : Shard) : Nat := (h.storedLen + 4095) / 4096

/-- Bytes of its frames and CRC table. -/
def Shard.padded (h : Shard) : Nat := h.frames * 4096 + 4 * h.frames

/-- Whether a shard's data decode in full and have its digest (R444, R451). -/
def Image.shardGood (i : Image) (h : Shard) (data : List Byte) : Bool :=
  (i.expand h (data.take h.storedLen)).isSome && sha256 (data.take h.storedLen) == h.digest

end Sys2Proof.Machine
end

