-- ==== Sys2Proof/Machine/WeightImage.lean ====
section
/-! DEFINITION. Weight images: their tables read from a container and the checks of R455. -/

namespace Sys2Proof.Machine

/-- A layer record: first shard, shard count, max_member_bytes (R438). -/
def layerOf (b : List Byte) : Nat × Nat × Nat := (fieldAt b 0 4, fieldAt b 4 4, fieldAt b 8 8)

/-- A shard record (R439). -/
def shardOf (b : List Byte) : Shard :=
  { layer := fieldAt b 0 2, die := fieldAt b 2 1, form := fieldAt b 3 1, reader := fieldAt b 4 1, mask := fieldAt b 8 8
    hostAddr := fieldAt b 0x10 8, storedLen := fieldAt b 0x18 8, storePa := fieldAt b 0x20 8, storeLen := fieldAt b 0x28 8
    stagePa := fieldAt b 0x30 8, firstTensor := fieldAt b 0x38 4, tensorCount := fieldAt b 0x3C 4, digest := bytesAt b 0x40 32 }

/-- A tensor record (R440). -/
def tensorOf (b : List Byte) : Tensor :=
  { shard := fieldAt b 0 4, fmt := fieldAt b 4 1, table := fieldAt b 5 1, center := fieldAt b 6 1, storedOff := fieldAt b 8 8
    expandedOff := fieldAt b 0x10 8, expandedLen := fieldAt b 0x18 4 }

/-- Runs that follow one another without gaps from a start; the end of the last. -/
def tiles : Nat → List (Nat × Nat) → Option Nat
  | at_, [] => some at_
  | at_, (f, n) :: r => if f = at_ then tiles (at_ + n) r else none

/-- A mask within another. -/
def maskWithin (a b : Nat) : Bool := (List.range 64).all fun i => !bit a i || bit b i

/-- A shard's fields are in the ranges of R439. -/
def shardOk (i : Image) (k : Nat) (h : Shard) : Bool :=
  let ts := i.tensorsOf h
  decide (h.die < 8 ∧ h.form ≤ 1 ∧ h.reader < 64 ∧ h.hostAddr % 4096 = 0 ∧ 1 ≤ h.storedLen ∧ h.storedLen ≤ 2 ^ 32) &&
  decide (h.storePa % 4096 = 0 ∧ h.stagePa % 4096 = 0 ∧ 1 ≤ h.tensorCount) && maskWithin h.mask i.mask &&
  ts.all (fun t => t.shard == k) &&
  h.storeLen == (if h.form = 0 then (ts.map (·.expandedLen)).sum else (h.padded + 4095) / 4096 * 4096)

/-- A tensor's fields are in the ranges of R440 and R442. -/
def tensorOk (i : Image) (t : Tensor) : Bool :=
  match i.shards[t.shard]? with
  | none => false
  | some h =>
    decide (t.fmt ≤ 6 ∧ (t.table ≤ 15 ∨ t.table = 0xFF) ∧ t.storedOff % 64 = 0 ∧ t.storedOff < h.storedLen ∧ t.expandedLen % 4096 = 0) &&
    (t.center == 0 || (t.table != 0xFF && t.table / 4 != 3)) && (t.table == 0xFF || t.fmt == 0 || t.fmt == 2 || t.fmt == 6) &&
    (h.form == 1 || decide (t.expandedOff + t.expandedLen ≤ h.storeLen))

/-- Whether any two runs of a list overlap. -/
def anyOverlap : List (Nat × Nat) → Bool
  | [] => false
  | a :: r => r.any (fun b => overlap a.1 a.2 b.1 b.2) || anyOverlap r

/-- The tables of an image from a container's bytes, checked for their form (order 2 of R455). -/
def parseImage (model epoch : Nat) (b : List Byte) : Option Image :=
  match sectionOf b 1, sectionOf b 2, sectionOf b 3, sectionOf b 4 with
  | some h, some ls, some ss, some ts =>
    let nl := fieldAt h 2 2
    let ns := fieldAt h 0x10 4
    let nt := fieldAt h 0x14 4
    let lrecs := chunks 32 ls.length ls
    let srecs := chunks 96 ss.length ss
    let trecs := chunks 32 ts.length ts
    let i : Image :=
      { model := fieldAt h 0 1, epoch := fieldAt h 4 4, protected_ := bit (fieldAt h 1 1) 0, mask := fieldAt h 8 8
        layers := lrecs.map layerOf, shards := srecs.map shardOf, tensors := trecs.map tensorOf
        stageBase := (List.range 8).map fun d => fieldAt h (0x20 + 8 * d) 8
        stageLen := (List.range 8).map fun d => fieldAt h (0x60 + 4 * d) 4 * 65536 }
    let good := decide (i.model = model ∧ i.epoch = epoch ∧ fieldAt h 1 1 ≤ 1 ∧ 1 ≤ nl ∧ nl ≤ 256 ∧ 1 ≤ ns ∧ ns ≤ 16384 ∧ 1 ≤ nt ∧ nt ≤ 262144) &&
      zeroAt h 0x18 8 && lrecs.length == nl && srecs.length == ns && trecs.length == nt &&
      lrecs.all (fun r => zeroAt r 0x10 16) && srecs.all (fun r => zeroAt r 5 3) && trecs.all (fun r => zeroAt r 7 1 && zeroAt r 0x1C 4) &&
      tiles 0 (i.layers.map fun l => (l.1, l.2.1)) == some ns && tiles 0 (i.shards.map fun s => (s.firstTensor, s.tensorCount)) == some nt &&
      (List.range nl).all (fun l => ((i.shards.drop (i.layers.getD l (0, 0, 0)).1).take (i.layers.getD l (0, 0, 0)).2.1).all fun s => s.layer == l) &&
      (List.range ns).all (fun k => (i.shards[k]?).all (shardOk i k)) && i.tensors.all (tensorOk i) &&
      i.shards.all (fun s => !anyOverlap ((i.tensorsOf s).map fun t => (t.expandedOff, t.expandedLen)))
    if good then some i else none
  | _, _, _, _ => none

/-- The shards of an image that a member receives, with their numbers. -/
def Image.shardsFor (i : Image) (device : Nat) : List (Nat × Shard) :=
  ((List.range i.shards.length).zip i.shards).filter fun s => bit s.2.mask device

/-- The shards of a layer. -/
def Image.layerShards (i : Image) (l : Nat) : List (Nat × Shard) :=
  ((List.range i.shards.length).zip i.shards).filter fun s => s.2.layer == l

/-- Regions that other models' extents, pools and grants take. -/
def State.weightTaken (s : State) (model : Nat) : List (Nat × Nat) :=
  (s.wt.models.filter fun m => m.1 != model).flatMap fun m => (m.2.image.toList ++ m.2.openImage.toList).flatMap fun i =>
    (i.shards.map fun h => (h.storePa, h.storeLen)) ++ i.stageBase.zip i.stageLen

/-- An extent of this member lies in PF memory and in nothing else that is taken. -/
def State.extentFree (s : State) (model : Nat) (x : Nat × Nat) : Bool :=
  s.inTierMemory 0 x.1 x.2 && !meets s.tableIvs x.1 x.2 && !meets (s.weightTaken model) x.1 x.2

/-- Order 3 of R455, as this member checks it. -/
def State.imagePlaced (s : State) (model : Nat) (i : Image) : Bool :=
  let mine := i.shardsFor s.fab.device
  let store := mine.map fun h => (h.2.storePa, h.2.storeLen)
  let window (d : Nat) : Nat × Nat := (i.stageBase.getD d 0, i.stageLen.getD d 0)
  let staged (h : Shard) : Bool :=
    decide ((window h.die).1 ≤ h.stagePa ∧ h.stagePa + h.padded ≤ (window h.die).1 + (window h.die).2)
  let inDie (cap : Bool) (d : Nat) (x : Nat × Nat) : Bool :=
    let b := (if cap then capBase else 0) + d * 2 ^ 37
    decide (b ≤ x.1 ∧ x.1 + x.2 ≤ b + 2 ^ 37)
  maskWithin i.mask s.fab.members &&
  mine.all (fun h => inDie false h.2.die (h.2.storePa, h.2.storeLen) && staged h.2) &&
  store.all (s.extentFree model) && !anyOverlap store &&
  ((dedup (mine.map fun h => h.2.die)).all fun d => inDie true d (window d) && s.extentFree model (window d)) &&
  ((List.range i.layers.length).all fun l =>
    !anyOverlap ((i.layerShards l).filter (fun h => bit h.2.mask s.fab.device) |>.map fun h => (h.2.stagePa, h.2.padded)) &&
    ((dedup (((i.layerShards l).filter fun h => bit h.2.mask s.fab.device).map fun h => h.2.die)).all fun d =>
      decide ((i.layers.getD l (0, 0, 0)).2.2 ≤ (window d).2)))

/-- Order 4 of R455: the store extents are those of the epoch in service. -/
def sameStores (a b : Image) : Bool :=
  a.shards.map (fun h => (h.layer, h.die, h.mask, h.storePa, h.storeLen)) == b.shards.map fun h => (h.layer, h.die, h.mask, h.storePa, h.storeLen)

/-- The tables that a container gives a member, or the status of the first check of R455 that fails. -/
def State.checkImage (s : State) (model : Nat) (b : List Byte) : Sum Nat Image :=
  let m := s.model model
  match containerStatus 2 s.cfg.minor b.length b with
  | some st => .inl st
  | none => match parseImage model m.opened b with
    | none => .inl ST_MALFORMED
    | some i =>
      if !s.imagePlaced model i then .inl ST_RANGE
      else if m.service ≠ 0 ∧ (m.image.map fun o => sameStores o i) ≠ some true then .inl ST_RANGE
      else if s.setting 1 = 1 ∧ i.protected_ ∧ i.tensors.any (fun t => t.table != 0xFF) then .inl ST_STATE
      else .inr i

end Sys2Proof.Machine
end

