-- ==== Sys2Proof/Machine/Swap.lean ====
section
/-! DEFINITION. Distribution of weights, the epoch swap and its commands (R451–R465). -/

namespace Sys2Proof.Machine

/-! ## Models in a swap -/

/-- The image whose layers are being distributed: the open epoch's, or the old one's while a restore runs. -/
def Model.current (m : Model) : Option Image :=
  match m.phase with
  | .restoring => m.image
  | _ => m.openImage

/-- The hbuf of that image. -/
def Model.currentSource (m : Model) : Option Hbuf :=
  match m.phase with
  | .restoring => m.serviceSource
  | _ => m.source

/-- Whether a layer is being distributed. -/
def Model.distributing (m : Model) : Bool :=
  match m.phase with
  | .staging => true
  | .restoring => m.restoreStep == 0
  | _ => false

/-- The key under which an image's shards are stored (R444). -/
def Model.keyOf (m : Model) (i : Image) : Option (List Byte) := if i.protected_ then some m.key else none

/-- The key of a frame in a model's frame map. -/
def frameKey (shard frame : Nat) : Nat := shard * 2 ^ 24 + frame

/-- The members of the pod: those of the plan in force, or this device alone. -/
def State.podMask (s : State) : Nat := (s.fab.plan.map (·.mask)).getD (2 ^ s.fab.device)

/-- The other members that can be reached. -/
def State.otherMembers (s : State) : List Nat := (maskMembers s.fab.members).filter (· != s.fab.device)

/-- The PF's own read of host memory leaves by port A while its link is up, and by port B otherwise (R451). -/
def State.pfPort (s : State) : Option Nat := if s.host.portA.up then some 0 else if s.host.portB.up then some 1 else none

/-- A shard's frames and CRC table are asked of host memory, with the PASID of the container's hbuf (R146); nothing while a read of it is outstanding. -/
def State.readShard (s : State) (n k : Nat) (h : Shard) (port : Nat) : State :=
  if s.host.reads.any fun r => r.purpose == ReadPurpose.shard n k then s
  else
    let m := s.model n
    let b : Option Hbuf := match m.phase with
      | .restoring => m.serviceSource
      | _ => m.source.orElse fun _ => m.serviceSource
    s.requestRead port 0 (b.bind (·.pasid)) ⟨s.host.nextRead, port, 4096, h.hostAddr, h.padded, s.aon.clock, .shard n k, none, 0, 0xFFFFFFFF, false, 0⟩ false

/-! ## The end of an epoch (R463, R464) -/

/-- The deferred EPOCH_COMMIT of a model. -/
def State.commitItem (s : State) (n : Nat) : Option Deferred :=
  s.cx.deferred.find? fun d => match d.cmd with
    | .epochCommit k _ => k == n
    | _ => false

/-- The notice of an EPOCH_COMMIT, where one is due. -/
def State.commitNotice (s : State) (n status : Nat) : State :=
  match s.commitItem n with
  | some d => s.notice d status []
  | none => s

/-- A model without an open epoch. -/
def Model.closed (m : Model) : Model :=
  { m with
    opened := 0, source := none, openImage := none, phase := .none_, frontier := 0, podCommitted := 0, reported := 0, cuts := []
    frames := [], verified := [], badReads := [], restoreTo := 0, restoreStep := 0, endStatus := 0 }

/-- The reads of a model's shards are forgotten. -/
def State.dropShardReads (s : State) (n : Nat) : State :=
  { s with host := { s.host with reads := s.host.reads.filter fun r => match r.purpose with
    | .shard k _ => k != n
    | _ => true } }

/-- A restore fails: the model has no epoch in service (R464). -/
def State.restoreFails (s : State) (n : Nat) : State :=
  let st := (s.model n).endStatus
  let s1 := (s.dropShardReads n).setModel n fun m => { m.closed with service := 0, image := none, serviceSource := none }
  (s1.cometF7 8 (n * 16) [n]).commitNotice n st

/-- A layer's distribution begins: each shard that this member reads is asked of host memory. When no port is up, the read
fails; what follows is left to the caller. -/
def State.beginLayer (s : State) (n : Nat) : Option State :=
  let m := s.model n
  match m.current with
  | none => some s
  | some i =>
    let mine := (i.layerShards m.podCommitted).filter fun h => h.2.reader == s.fab.device
    let s1 := s.setModel n fun m => { m with
      frames := [], verified := [], badReads := [], reported := 0, restoreStep := 0
      phase := match m.phase with
        | .restoring => .restoring
        | _ => .staging }
    if mine.isEmpty then some s1
    else (s.pfPort).map fun p => forEach mine s1 fun s h => s.readShard n h.1 h.2 p

/-- The highest frontier on any member, as far as this one knows. -/
def Model.highest (m : Model) : Nat := max m.frontier (m.podCommitted + (if m.reported = 0 then 0 else 1))

/-- An epoch ends without coming into service: its steps end, and layers already committed are restored from the old image. -/
def State.endEpoch (s : State) (n status : Nat) : State :=
  let m := s.model n
  let s1 := (s.endSteps (fun t => t.model == some n && t.epochW == m.opened && m.opened != 0) ST_ABORTED).dropShardReads n
  if m.service = 0 ∨ m.highest = 0 ∨ !m.swapping then (s1.setModel n Model.closed).commitNotice n status
  else
    let s2 := s1.setModel n fun m => { m with
      phase := .restoring, restoreTo := m.highest, restoreStep := 0, podCommitted := 0, frontier := 0, endStatus := status
      openImage := none, source := none }
    match s2.beginLayer n with
    | some s3 => s3
    | none => s2.restoreFails n

/-- A failure at this member ends the epoch, and the other members are told. -/
def State.failEpoch (s : State) (n status : Nat) : State :=
  let m := s.model n
  match m.phase with
  | .restoring => s.restoreFails n
  | _ =>
    let told := if s.isHead then s.otherMembers else [s.headDevice]
    (forEach told s fun s d => s.send d 0 (.epochEnd n m.opened status)).endEpoch n status

/-- Another member's word that an epoch has failed. -/
def State.takeEpochEnd (s : State) (n epoch status : Nat) : State :=
  let m := s.model n
  if m.opened ≠ epoch ∨ !m.isOpen then s
  else if s.isHead then s.failEpoch n status else s.endEpoch n status

/-- A layer's distribution begins, or its failure ends the epoch. -/
def State.startLayer (s : State) (n : Nat) : State :=
  match s.beginLayer n with
  | some s1 => s1
  | none => s.failEpoch n ST_HOSTIO

/-! ## The distribution tree (R452) -/

/-- Whether a port between two members is up: this member's own by its links, others' by the plan. -/
def State.portUp (s : State) (a b : Nat) : Bool :=
  if a = s.fab.device then s.adjacent b
  else if b = s.fab.device then s.adjacent a
  else (s.fab.plan.toList.flatMap (·.members)).any fun p => p.device == a && p.links.any fun l => l.any fun x => x.1 == b

/-- The tree grown by a depth: members and their parents. -/
def growTree (up : Nat → Nat → Bool) (mask : Nat) : Nat → List (Nat × Nat) → List Nat → List (Nat × Nat)
  | 0, t, _ => t
  | n + 1, t, level =>
    let join := (maskMembers mask).filterMap fun m =>
      if t.any (fun e => e.1 == m) then none else (level.find? (up m)).map fun p => (m, p)
    if join.isEmpty then t else growTree up mask n (t ++ join) (join.map (·.1))

/-- The members of a shard's tree, each with its parent. -/
def State.tree (s : State) (h : Shard) : List (Nat × Nat) := growTree s.portUp h.mask 64 [(h.reader, h.reader)] [h.reader]

/-- This member's children. -/
def State.children (s : State) (h : Shard) : List Nat :=
  ((s.tree h).filter fun e => e.2 == s.fab.device && e.1 != s.fab.device).map (·.1)

/-- This member's parent. -/
def State.parent (s : State) (h : Shard) : Option Nat :=
  ((s.tree h).find? fun e => e.1 == s.fab.device && e.1 != h.reader).map (·.2)

/-! ## Frames (R451, R453) -/

/-- A shard of the layer in distribution that a number names. -/
def Model.shardNow (m : Model) (k : Nat) : Option Shard :=
  (m.current.bind fun i => i.shards[k]?).filter fun h => m.distributing && h.layer == m.podCommitted

/-- Whether this member receives a shard. -/
def State.takesShard (s : State) (h : Shard) : Bool := bit h.mask s.fab.device

/-- The frames of a shard that a member lacks. -/
def Model.missing (m : Model) (k : Nat) (h : Shard) : List Nat :=
  (List.range h.frames).filter fun j => (tabGet? m.frames (frameKey k j)).isNone

/-- The stored form of a shard in staging: its frames. -/
def State.staged (s : State) (m : Model) (i : Image) (h : Shard) : List Byte := s.mem.devRead (m.keyOf i) h.stagePa (h.frames * 4096)

/-- A frame that passed its CRC reaches staging with its CRC and goes on to this member's children; after the last frame the shard
is decoded and its digest checked. A shard that fails is forgotten whole. -/
def State.takeFrame (s : State) (n k j : Nat) (bytes : List Byte) : State :=
  let m := s.model n
  match m.current, m.shardNow k with
  | some i, some h =>
    let on := forEach (s.children h) s fun s c => s.send c 7 (.weightFrame n k j bytes)
    if !s.takesShard h || m.verified.contains k || (tabGet? m.frames (frameKey k j)).isSome then (if s.takesShard h then s else on)
    else
      let mem1 := on.mem.devWrite (m.keyOf i) (h.stagePa + 4096 * j) bytes
      let s1 := { on with mem := mem1.devWrite (m.keyOf i) (h.stagePa + 4096 * h.frames + 4 * j) (leBytes 4 (crc32c bytes)) }
      let s2 := s1.setModel n fun m => { m with frames := tabSet m.frames (frameKey k j) 1 }
      if !((s2.model n).missing k h).isEmpty then s2
      else if i.shardGood h (s2.staged m i h) then s2.setModel n fun m => { m with verified := m.verified ++ [k] }
      else s2.setModel n fun m => { m with frames := m.frames.filter fun f => f.1 / 2 ^ 24 != k }
  | _, _ => s

/-- A frame is asked of a member. -/
def State.askFrame (s : State) (n k j to_ : Nat) : State := s.send to_ 7 (.frameRequest n k j)

/-- A frame is asked of the parent, or of host memory where this member is the reader. -/
def State.askParent (s : State) (n k j : Nat) (h : Shard) : State :=
  if h.reader = s.fab.device then
    match s.pfPort with
    | some p => s.readShard n k h p
    | none => s
  else match s.parent h with
    | some p => s.askFrame n k j p
    | none => s

/-! ## Frames of a store (R439, R447) -/

/-- A frame of a form 1 shard in its store extent. -/
def State.storeFrame (s : State) (m : Model) (i : Image) (h : Shard) (j : Nat) : List Byte :=
  s.mem.devRead (m.keyOf i) (h.storePa + 4096 * j) 4096

/-- The CRC of a frame in the store's table. -/
def State.storeCrc (s : State) (m : Model) (i : Image) (h : Shard) (j : Nat) : Nat :=
  leNat (s.mem.devRead (m.keyOf i) (h.storePa + 4096 * h.frames + 4 * j) 4)

/-- A frame that fits the store's table takes the place of one that does not. -/
def State.mendFrame (s : State) (n k j : Nat) (bytes : List Byte) : State :=
  let m := s.model n
  match m.image with
  | none => s
  | some i => match i.shards[k]? with
    | none => s
    | some h =>
      if h.form = 1 ∧ s.takesShard h ∧ j < h.frames ∧ bytes.length = 4096 ∧ crc32c bytes = s.storeCrc m i h j ∧
          crc32c (s.storeFrame m i h j) ≠ s.storeCrc m i h j then
        { s with mem := s.mem.devWrite (m.keyOf i) (h.storePa + 4096 * j) bytes }
      else s

/-- A store frame that fails its CRC is restored: from this member's staging copy, from its parent, or from host memory. -/
def State.restoreFrame (s : State) (n k j : Nat) (h : Shard) : State :=
  let m := s.model n
  match m.image with
  | none => s
  | some i =>
    let own := s.mem.devRead (m.keyOf i) (h.stagePa + 4096 * j) 4096
    if crc32c own = s.storeCrc m i h j then s.mendFrame n k j own else s.askParent n k j h

/-- What a reader's read of a shard brought: frames that pass go on; where a frame or the digest fails the shard is read again, and
after four failures it is corrupt at source (R453, R463). -/
def State.shardRead (s : State) (n k : Nat) (b : List Byte) : State :=
  let m := s.model n
  match m.current, m.shardNow k with
  | some i, some h =>
    let frames := chunks 4096 h.frames (b.take (h.frames * 4096))
    let crcs := (chunks 4 h.frames (b.drop (h.frames * 4096))).map leNat
    let good := ((List.range h.frames).zip (frames.zip crcs)).filter fun f => crc32c f.2.1 == f.2.2
    let whole := good.length == h.frames && i.shardGood h b
    let s1 := forEach good s fun s f => s.takeFrame n k f.1 f.2.1
    if whole then s1
    else
      let bad := tabGet 0 m.badReads k + 1
      if 4 ≤ bad then s1.failEpoch n ST_DIGEST
      else
        let s2 := s1.setModel n fun m => { m with badReads := tabSet m.badReads k bad }
        match s2.pfPort with
        | some p => s2.readShard n k h p
        | none => s2.failEpoch n ST_HOSTIO
  | _, _ => forEach (numbered (chunks 4096 b.length (b.take (b.length / 4100 * 4096)))) s fun s f => s.mendFrame n k f.1 f.2

/-- A reader's read of a shard fails as a host access. -/
def State.shardFails (s : State) (n k : Nat) : State :=
  if ((s.model n).shardNow k).isSome then s.failEpoch n ST_HOSTIO else s

/-- WEIGHT_FRAME_RECEIVE: a frame whose CRC passes is staged and sent on; one whose CRC fails is asked for again. -/
def execWeightFrameReceive (model shard frame crc : Nat) (bytes : List Byte) (s : State) : Out :=
  .next (
    let m := s.model model
    match m.shardNow shard with
    | some h =>
      if h.frames ≤ frame ∨ bytes.length ≠ 4096 then s
      else if crc32c bytes = crc then s.takeFrame model shard frame bytes
      else if s.takesShard h then s.askParent model shard frame h else s
    | none => if crc32c bytes = crc then s.mendFrame model shard frame bytes else s)

/-- FRAME_REQUEST_TIMEOUT: a frame still missing after later frames have arrived is asked of the parent. -/
def execFrameRequestTimeout (model shard frame : Nat) (s : State) : Out :=
  .next (
    let m := s.model model
    match m.shardNow shard with
    | none => s
    | some h =>
      if s.takesShard h ∧ frame < h.frames ∧ (tabGet? m.frames (frameKey shard frame)).isNone ∧
          (m.frames.any fun f => f.1 / 2 ^ 24 == shard && decide (frameKey shard frame < f.1)) then s.askParent model shard frame h
      else s)

/-- FRAME_REQUEST_RECEIVE: a holder serves the frame from staging; one without it asks its own parent. -/
def execFrameRequestReceive (source model shard frame : Nat) (s : State) : Out :=
  .next (
    let m := s.model model
    match m.current.bind (fun i => i.shards[shard]?), m.current with
    | some h, some i =>
      if h.frames ≤ frame then s
      else if (m.shardNow shard).isSome then
        (if (tabGet? m.frames (frameKey shard frame)).isSome then
          s.send source 7 (.weightFrame model shard frame (s.mem.devRead (m.keyOf i) (h.stagePa + 4096 * frame) 4096))
        else s.askParent model shard frame h)
      else s
    | _, _ => match m.image.bind fun i => i.shards[shard]? with
      | none => s
      | some h => match m.image with
        | none => s
        | some i =>
          let own := s.mem.devRead (m.keyOf i) (h.stagePa + 4096 * frame) 4096
          if h.form = 1 ∧ frame < h.frames ∧ crc32c own = s.storeCrc m i h frame then s.send source 7 (.weightFrame model shard frame own)
          else s.askParent model shard frame h)

/-- FRAME_REQUEST_ROUND: every frame still missing is asked of the parent and then of each other holder with a port, with a record. -/
def execFrameRequestRound (model : Nat) (s : State) : Out :=
  .next (
    let m := s.model model
    let open' := (m.current.toList.flatMap fun i => i.layerShards m.podCommitted).filter fun h =>
      m.distributing && s.takesShard h.2 && !m.verified.contains h.1
    if open'.isEmpty then s
    else
      let s1 := forEach open' s fun s h => forEach (m.missing h.1 h.2) s fun s j =>
        let others := (maskMembers h.2.mask).filter fun d => s.adjacent d && s.parent h.2 != some d
        forEach others (s.askParent model h.1 j h.2) fun s d => s.askFrame model h.1 j d
      s1.cometF7 8 (model * 16) [model, m.podCommitted])

/-! ## The cycle of a layer (R458, R459) -/

/-- Whether the drain of a swap is complete: every step below a cut read, every old-epoch step launched. -/
def State.drained (s : State) (n : Nat) : Bool :=
  let m := s.model n
  m.cuts.all (fun c => decide (c.2 ≤ (s.queue c.1).consumed)) &&
  s.dq.steps.all fun t => !(t.model == some n && t.ended.isNone && decide (t.index < tabGet 0 m.cuts t.queue) && (match t.cond with
    | .awaiting => true
    | .held => true
    | _ => false))

/-- Whether a core of a step is past a layer: its mark, or its report, or its having been let go. -/
def State.corePast (s : State) (t : StepRec) (l n : Nat) : Bool :=
  match tabGet? t.saved n with
  | some v => v.ended || decide (l < v.mark)
  | none =>
    let c := s.core n
    if c.step = some (t.queue, t.index) then c.reported || decide (l < c.mark) else true

/-- Whether every core of every old-epoch step of a model is past a layer. -/
def State.oldPast (s : State) (n l : Nat) : Bool :=
  s.dq.steps.all fun t => !(t.model == some n && t.ended.isNone && t.epochW == (s.model n).service && !t.cores.isEmpty) ||
    t.cores.all (s.corePast t l)

/-- The first byte of a shard's staging or store extent that a copy cannot reach: unreadable in staging, or no longer populated. -/
def State.copyBlock (s : State) (h : Shard) : Option Nat :=
  if s.poisonAt h.stagePa h.padded then some (s.badByte h.stagePa h.padded)
  else if !s.partPopulated h.storePa h.storeLen then some (s.badByte h.storePa h.storeLen)
  else none

/-- A copy that cannot reach a shard reads and writes nothing: the address is recorded, and counted where it is no longer populated
(R26). -/
def State.noteBlocked (s : State) (n : Nat) (h : Shard) : State :=
  match s.copyBlock h with
  | some pa => (s.cometF3 8 (n * 16 + h.die) n pa (0, 0)).countMissing pa
  | none => s

/-- A shard is copied from staging to its store, expanded where its form says so. -/
def State.copyShard (s : State) (m : Model) (i : Image) (h : Shard) : State :=
  let bytes := if h.form = 0 then (i.expand h (s.staged m i h)).getD []
    else s.mem.devRead (m.keyOf i) h.stagePa h.padded ++ zeros (h.storeLen - h.padded)
  { s with mem := s.mem.devWrite (m.keyOf i) h.storePa bytes }

/-- LAYER_COPY: the layer is staged, no old-epoch core can still read it, and Movers copy it to its store. Where a shard's memory has been
lost the layer stays uncommitted (R26; log entry 107). -/
def execLayerCopy (model : Nat) (s : State) : Out :=
  .next (
    let m := s.model model
    match m.current with
    | none => s
    | some i =>
      let l := m.podCommitted
      let mine := (i.layerShards l).filter fun h => s.takesShard h.2
      let restore : Bool := match m.phase with
        | .restoring => true
        | _ => false
      let ready := m.distributing && s.pp.state == .service && mine.all (fun h => m.verified.contains h.1) &&
        (restore || s.oldPast model l && (l != 0 || s.drained model))
      if !ready then s
      else if mine.any fun h => (s.copyBlock h.2).isSome then forEach mine s fun s h => s.noteBlocked model h.2
      else
        let s1 := forEach mine s fun s h => s.copyShard m i h.2
        s1.setModel model fun m => if restore then { m with restoreStep := 1 } else { m with phase := .copying })

/-- The GATEs of a die that wait for a layer below a frontier complete. -/
def State.openGates (s : State) (n frontier : Nat) : State :=
  forEach s.fleet.dies s fun s d =>
    let ready := d.2.gates.filter fun g => decide (g.field 0x10 2 < frontier) && (s.step? g.queue g.step).any fun t =>
      t.model == some n && t.epochW == (s.model n).opened
    forEach ready s fun s g =>
      let s1 := s.setDie d.1 fun x => { x with gates := x.gates.erase g }
      let s2 := s1.setCore g.core fun c => { c with mark := max c.mark (g.field 0x10 2) }
      (s2.completeDesc ⟨d.1, g.engine⟩ g).mirrorOut g.queue

/-- A member's report of a layer reaches the head. -/
def State.takeLayerReport (s : State) (member n layer : Nat) : State :=
  if (s.model n).podCommitted = layer then s.setModel n fun m => { m with reported := setBit m.reported member } else s

/-- LAYER_COMMIT: the copy ends, the frontier rises, waiting GATEs complete, and the member reports to the head. -/
def execLayerCommit (model : Nat) (s : State) : Out :=
  .next (
    let m := s.model model
    let l := m.podCommitted
    if !(s.pp.state == .service && s.supervisorRuns) then s
    else
      let report (s : State) : State :=
        if s.isHead then s.takeLayerReport s.fab.device model l else s.send s.headDevice 7 (.layerReport model l)
      match m.phase with
      | .copying => report ((s.setModel model fun m => { m with frontier := l + 1, phase := .waiting }).openGates model (l + 1))
      | .restoring => if m.restoreStep = 1 then report (s.setModel model fun m => { m with restoreStep := 2 }) else s
      | _ => s)

/-- The swap of a model ends: its new epoch is in service and the old tables are dropped. -/
def State.endSwap (s : State) (n : Nat) : State :=
  let s1 := s.setModel n fun m => { m.closed with service := m.opened, image := m.openImage, serviceSource := m.source }
  s1.commitNotice n ST_OK

/-- The head journals the pod-wide commit of a layer, which stands before or after an EPOCH_ABORT of the epoch there (R171). -/
def State.journalLayer (s : State) (n layer : Nat) : State :=
  if !s.isHead then s
  else
    let h := ((s.commitItem n).map (·.hdr)).getD ⟨.gone, 0, 0, 0, s.fab.device⟩
    { s with cx := { s.cx with
        journal := s.cx.journal ++ [⟨s.cx.nextId, h, 0x0502, none, true, true, ST_OK, leBytes 1 n ++ leBytes 2 layer⟩], nextId := s.cx.nextId + 1 } }

/-- POD_LAYER_COMMIT: every member has reported; the head journals the commit, and the next layer begins or the swap ends. A
member does the same at the head's word. -/
def execPodLayerCommit (model : Nat) (s : State) : Out :=
  .next (
    let m := s.model model
    let all := !s.isHead || maskWithin s.podMask m.reported
    if !(all && s.supervisorRuns) then s
    else
      let told := (if s.isHead then forEach s.otherMembers s fun s d => s.send d 0 (.podLayer model m.podCommitted) else s).journalLayer
        model m.podCommitted
      let next := told.setModel model fun m => { m with podCommitted := m.podCommitted + 1 }
      match m.phase with
      | .waiting =>
        if ((m.openImage.map (·.layers.length)).getD 0) ≤ m.podCommitted + 1 then told.endSwap model else next.startLayer model
      | .restoring =>
        if m.restoreStep ≠ 2 then s
        else if m.restoreTo ≤ m.podCommitted + 1 then (told.setModel model Model.closed).commitNotice model m.endStatus
        else next.startLayer model
      | _ => s)

/-! ## The commands (R454–R456, R464) -/

/-- Whether a PLACEMENT_APPLY of a model has been accepted and its notice not yet sent. -/
def State.placing (s : State) (n : Nat) : Bool :=
  s.cx.deferred.any fun d => match d.cmd with
    | .placementApply k _ => k == n
    | _ => false

/-- A pod command goes from the head to the other members. -/
def State.podForward (s : State) (h : CmdHdr) (c : Command) : State :=
  if s.isHead then forEach s.otherMembers s fun s m => s.send m 3 (.command (relayFn h.sender) (cmdMessage h c)) else s

/-- An epoch opens on this member. -/
def State.openEpoch (s : State) (n epoch : Nat) (src : Hbuf) : State :=
  let (key, s1) := if (s.model n).key.isEmpty then s.randomKey else ((s.model n).key, s)
  s1.setModel n fun m => { m with resident := true, opened := epoch, source := some src, phase := .opened, key := key }

/-- Whether a model has an open epoch, in whatever phase. -/
def Model.busy (m : Model) : Bool :=
  match m.phase with
  | .none_ => false
  | _ => true

/-- EPOCH_BEGIN. -/
def cmdEpochBegin (h : CmdHdr) (n epoch : Nat) (src : Hbuf) (s : State) : CmdRes :=
  if n < 16 ∧ (s.model n).busy then .refuse ST_STATE s
  else if 16 ≤ n ∨ epoch ≤ (s.model n).service ∨ src.addr % 64 ≠ 0 then .refuse ST_RANGE s
  else if s.placing n then .refuse ST_BUSY s
  else .ok [] ((s.podForward h (.epochBegin n epoch src)).openEpoch n epoch src)

/-- The switch is taken: every queue's cut is its producer index (R456). -/
def State.takeSwitch (s : State) (n epoch : Nat) : State :=
  let m := s.model n
  if m.phase != .opened || m.opened != epoch then s
  else s.setModel n fun m => { m with phase := .checking, cuts := tabMap (fun _ c => c) (s.dq.queues.map fun q => (q.1, q.2.producer)) }

/-- EPOCH_COMMIT: the doorbells latched for each member and then the switch go out, and the head takes the switch itself. -/
def cmdEpochCommit (n epoch : Nat) (s : State) : CmdRes :=
  if 16 ≤ n then .refuse ST_RANGE s
  else if (s.model n).phase != .opened || (s.model n).opened != epoch then .refuse ST_STATE s
  else
    let s1 := { s with dq := { s.dq with switches := s.dq.switches ++ s.otherMembers.map fun d => ⟨d, n, epoch, s.dq.relayOrder⟩ } }
    let s2 := (forEach s.otherMembers s1 fun s d => s.forwardSwitch d).takeSwitch n epoch
    .accept (match (s.model n).source with
      | some b => s2.askBuffer 0 b
      | none => s2)

/-- SWITCH_RECEIVE. -/
def execSwitchReceive (model epoch : Nat) (s : State) : Out := .next (if model < 16 then s.takeSwitch model epoch else s)

/-- The tables pass: distribution of layer 0 begins. -/
def State.tablesPass (s : State) (n : Nat) (i : Image) : State :=
  (s.setModel n fun m => { m with openImage := some i, frontier := 0, podCommitted := 0 }).startLayer n

/-- EPOCH_COMMIT_CHECK: the head's read of the container, and each member's checks of its tables. On a member, which has no item,
the tables name their model. -/
def execEpochCommitCheck (item : Nat) (data : HostData) (s : State) : Out :=
  .next (
    if !s.supervisorRuns then s
    else match ((s.item item).map fun (d : Deferred) => d.cmd : Option Command), (if (s.item item).isSome then s.bufferData 0 data else data) with
      | some (.epochCommit n _), .ok b =>
        if (s.model n).phase != .checking || (s.model n).source.map (·.length) != some b.length then s
        else match s.checkImage n b with
          | .inl st => s.failEpoch n st
          | .inr i => s.tablesPass n i
      | some (.epochCommit n _), _ => if (s.model n).phase == .checking then s.failEpoch n ST_HOSTIO else s
      | none, .ok b =>
        let n := ((sectionOf b 1).map fun x => fieldAt x 0 1).getD 16
        if s.isHead || (s.model n).phase != .checking then s
        else match s.checkImage n b with
          | .inl st => s.failEpoch n st
          | .inr i => s.tablesPass n i
      | _, _ => s)

/-- EPOCH_ABORT. -/
def cmdEpochAbort (h : CmdHdr) (n epoch : Nat) (s : State) : CmdRes :=
  if 16 ≤ n then .refuse ST_RANGE s
  else if !(s.model n).isOpen || (s.model n).opened != epoch then .refuse ST_STATE s
  else .ok [] ((s.podForward h (.epochAbort n epoch)).endEpoch n ST_ABORTED)

/-- EPOCH_BEGIN. -/
def execEpochBegin (h : CmdHdr) (model epoch : Nat) (source : Hbuf) (s : State) : Out :=
  .next (s.command h (.epochBegin model epoch source) (cmdEpochBegin h model epoch source))

/-- EPOCH_COMMIT. -/
def execEpochCommit (h : CmdHdr) (model epoch : Nat) (s : State) : Out :=
  .next (s.command h (.epochCommit model epoch) (cmdEpochCommit model epoch))

/-- EPOCH_ABORT. -/
def execEpochAbort (h : CmdHdr) (model epoch : Nat) (s : State) : Out :=
  .next (s.command h (.epochAbort model epoch) (cmdEpochAbort h model epoch))

end Sys2Proof.Machine
end

