-- ==== Sys2Proof/Machine/Placement.lean ====
section
/-! DEFINITION. Placement tables and PLACEMENT_APPLY (R417–R419). -/

namespace Sys2Proof.Machine

/-- Bytes of a header, a layer record and an expert entry. -/
def placeHeader : Nat := 64
/-- Bytes of a layer record. -/
def placeLayer : Nat := 16
/-- Bytes of an expert entry. -/
def placeEntry : Nat := 32

/-- A replica word. -/
def replicaOf (w : Nat) : Nat × Nat := (bits w 16 6, bits w 0 12)

/-- The replica words of an expert entry, and those beyond its count. -/
def replicaWords (b : List Byte) : List Nat × List Nat :=
  let ws := (chunks 4 4 (bytesAt b 16 16)).map leNat
  (ws.take (fieldAt b 0 2), ws.drop (fieldAt b 0 2))

/-- Whether an expert entry has its reserved bits zero. -/
def expertOk (b : List Byte) : Bool :=
  let (ws, rest) := replicaWords b
  zeroAt b 2 14 && ws.all (fun w => decide (w / 2 ^ 22 = 0) && bits w 12 4 == 0) && rest.all (· == 0)

/-- Whether the layer records tile the entries exactly. -/
def layersTile : Nat → List (List Byte) → Nat → Bool
  | at_, [], total => at_ == total
  | at_, l :: r, total => fieldAt l 4 4 == at_ && layersTile (at_ + fieldAt l 0 2) r total

/-- A placement table's version, and the table, from its bytes; the status of its first failure of form. -/
def parsePlacement (model length : Nat) (b : List Byte) : Sum Nat Placement :=
  let nl := fieldAt b 6 2
  let lrecs := chunks placeLayer nl (bytesAt b placeHeader (placeLayer * nl))
  let body := b.drop (placeHeader + placeLayer * nl)
  let entries := chunks placeEntry body.length body
  if b.length < placeHeader + placeLayer * nl ∨ fieldAt b 0 4 ≠ 0x50584C50 ∨ fieldAt b 4 1 ≠ 1 ∨ fieldAt b 5 1 ≠ model ∨
      fieldAt b 0xC 4 ≠ length ∨ b.length ≠ length ∨ zeroAt b 0x1E 34 = false ∨ body.length % placeEntry ≠ 0 ∨
      lrecs.any (fun l => !zeroAt l 2 2 || !zeroAt l 8 8) ∨ entries.any (fun e => !expertOk e) ∨ layersTile 0 lrecs entries.length = false then
    .inl ST_MALFORMED
  else
    let p : Placement :=
      { version := fieldAt b 8 4, mask := fieldAt b 0x10 8, rowBytes := fieldAt b 0x18 4, perSource := fieldAt b 0x1C 2
        layers := lrecs.map fun l => ⟨((entries.drop (fieldAt l 4 4)).take (fieldAt l 0 2)).map fun e => (replicaWords e).1.map replicaOf⟩ }
    if nl < 1 ∨ 256 < nl ∨ p.version = 0 ∨ 40 * 2 ^ 20 < length ∨ p.rowBytes % 64 ≠ 0 ∨ p.rowBytes < 64 ∨ 65536 < p.rowBytes ∨
        p.perSource % 16 ≠ 0 ∨ p.perSource < 16 ∨ 1024 < p.perSource ∨ lrecs.any (fun l => decide (fieldAt l 0 2 < 1 ∨ 4096 < fieldAt l 0 2)) ∨
        entries.any (fun e => decide (fieldAt e 0 2 < 1 ∨ 4 < fieldAt e 0 2)) then .inl ST_RANGE
    else .inr p

/-- The local indices of a layer on a member, by expert. -/
def PlaceLayer.locals (l : PlaceLayer) (device : Nat) : List (Nat × Nat) :=
  (numbered l.experts).flatMap fun e => (e.2.filter fun r => r.1 == device).map fun r => (r.2, e.1)

/-- Replicas of a layer on a member. -/
def PlaceLayer.count (l : PlaceLayer) (device : Nat) : Nat := (l.locals device).length

/-- Whether a layer's replicas keep R418. -/
def PlaceLayer.ok (l : PlaceLayer) (mask : Nat) : Bool :=
  l.experts.all (fun rs => rs.all (fun r => bit mask r.1) && (dedup (rs.map (·.1))).length == rs.length) &&
  (List.range 64).all fun d =>
    let is := (l.locals d).map (·.1)
    (List.range is.length).all fun i => is.contains i

/-- What a member finds of a table: the status of the first failure of R418, or the table. -/
def State.checkPlacement (s : State) (model length : Nat) (b : List Byte) : Sum Nat Placement :=
  match parsePlacement model length b with
  | .inl st => .inl st
  | .inr p =>
    if !p.layers.all (fun l => l.ok p.mask) || !maskWithin p.mask s.fab.members then .inl ST_RANGE
    else if s.dq.steps.any (fun t => t.model == some model && t.ended.isNone) || s.wt.entries.any (fun e => e.model == model) ||
        (s.model model).busy then .inl ST_BUSY
    else .inr p

/-- A table in force on this member. -/
def State.installPlacement (s : State) (model : Nat) (p : Placement) : State :=
  { s with wt := { s.wt with placements := tabSet s.wt.placements model p } }

/-- The placement table of a model. -/
def State.placement? (s : State) (model : Nat) : Option Placement := tabGet? s.wt.placements model

/-- PLACEMENT_APPLY up to its acceptance. -/
def cmdPlacementApply (model : Nat) (src : Hbuf) (s : State) : CmdRes :=
  if 16 ≤ model ∨ src.addr % 64 ≠ 0 then .refuse ST_RANGE s else .accept s

/-- A member's answer to the head about a model's table: staged, or the status of its first failure, and later that it has committed. -/
def State.takePlaceDone (s : State) (member n status : Nat) : State :=
  let jobs := tabMap (fun k (j : PlaceJob) => if k = n then { j with answers := tabSet j.answers member status } else j) s.wt.placeJobs
  { s with wt := { s.wt with placeJobs := jobs } }

/-- The table that a member has staged comes into force at the head's word, and the member says so. -/
def State.takePlaceCommit (s : State) (n : Nat) : State :=
  match tabGet? s.wt.stagedTables n with
  | none => s
  | some p =>
    let s1 := s.installPlacement n p
    { s1 with wt := { s1.wt with stagedTables := tabDel s1.wt.stagedTables n } }.send s.headDevice 0 (.placeDone s.fab.device n ST_OK)

/-- The other members to which a table goes, in ascending order. -/
def State.placeFar (s : State) (p : Placement) : List Nat := (maskMembers p.mask).filter (· != s.fab.device)

/-- The installation ends with a notice. -/
def State.placeEnd (s : State) (d : Deferred) (n status : Nat) : State :=
  { s with wt := { s.wt with placeJobs := tabDel s.wt.placeJobs n } }.notice d status []

/-- Every member has staged the table: each commits, in ascending order, this one among them. -/
def State.placeCommit (s : State) (d : Deferred) (n : Nat) (p : Placement) : State :=
  let s1 := if bit p.mask s.fab.device then s.installPlacement n p else s
  let far := s.placeFar p
  if far.isEmpty then s1.placeEnd d n ST_OK
  else
    let s2 := { s1 with wt := { s1.wt with placeJobs := tabSet s1.wt.placeJobs n ⟨p, [], true⟩ } }
    forEach far s2 fun s m => s.send m 0 (.placeCommit n)

/-- The worst of the members' answers, in the order of R418: form, range, busy; none where every member has staged the table. -/
def PlaceJob.failure (j : PlaceJob) : Option Nat :=
  [ST_MALFORMED, ST_RANGE, ST_BUSY].find? fun st => j.answers.any fun a => a.2 == st

/-- An installation goes on: until every member has answered nothing happens, unless one has become unreachable (`lost`). Nothing is
installed on any member where one refused the table (R418). -/
def State.placeOn (s : State) (d : Deferred) (n : Nat) (j : PlaceJob) (lost : Bool) : State :=
  let waits := (s.placeFar j.table).any fun m => (tabGet? j.answers m).isNone
  if waits then (if lost then s.placeEnd d n ST_UNREACHED else s)
  else if j.committing then s.placeEnd d n ST_OK
  else match j.failure with
    | some st => s.placeEnd d n st
    | none => s.placeCommit d n j.table

/-- The table that the head has read: it is checked, sent to every other member of the mask and, where there is none, installed. -/
def State.placeBegin (s : State) (d : Deferred) (n length : Nat) (b : List Byte) : State :=
  match s.checkPlacement n length b with
  | .inl st => s.notice d st []
  | .inr p =>
    if (s.placeFar p).isEmpty then s.placeCommit d n p
    else
      let s1 := { s with wt := { s.wt with placeJobs := tabSet s.wt.placeJobs n ⟨p, [], false⟩ } }
      forEach (s.placeFar p) s1 fun s m => s.send m 0 (.placement n b)

/-- A member checks the table that the head sent, stages it, and answers. -/
def State.placeStage (s : State) (n : Nat) (b : List Byte) : State :=
  match s.checkPlacement n b.length b with
  | .inl st => s.send s.headDevice 0 (.placeDone s.fab.device n st)
  | .inr p =>
    { s with wt := { s.wt with stagedTables := tabSet s.wt.stagedTables n p } }.send s.headDevice 0 (.placeDone s.fab.device n ST_OK)

/-- PLACEMENT_APPLY_INSTALL: the head reads the table and sends it, then has the members commit, then sends the notice; `lost` tells that a
member became unreachable after installing began. A member, which has no item, checks and stages what the head sent. -/
def execPlacementApplyInstall (item : Nat) (data : HostData) (lost : Bool) (s : State) : Out :=
  .next (
    if !s.supervisorRuns then s
    else match s.item item, data with
      | some d, data => (match d.cmd with
        | .placementApply n src => (match tabGet? s.wt.placeJobs n, s.bufferData ((senderFn d.hdr.sender).getD 0) data with
          | some j, _ => s.placeOn d n j lost
          | none, .ok b => if b.length ≠ src.length then s else s.placeBegin d n src.length b
          | none, _ => s.notice d ST_HOSTIO [])
        | _ => s)
      | none, .ok b => if s.isHead || decide (16 ≤ fieldAt b 5 1) then s else s.placeStage (fieldAt b 5 1) b
      | none, _ => s)

/-- PLACEMENT_APPLY. -/
def execPlacementApply (h : CmdHdr) (model : Nat) (source : Hbuf) (s : State) : Out :=
  .next (s.command h (.placementApply model source) (cmdPlacementApply model source))

end Sys2Proof.Machine
end

