-- ==== Sys2Proof/Machine/Sampling.lean ====
section
/-! DEFINITION. The Sampling Engine: rows, cuts, draws, log-probabilities and the verification of drafts (R388–R413). -/

namespace Sys2Proof.Machine

/-! ## Parameters (R394, R395) -/

/-- A parameter record. -/
structure SamParams where
  seed     : Nat
  stream   : Nat
  position : Nat
  draw     : Nat
  temp     : Lane
  topP     : Lane
  minP     : Lane
  topK     : Nat
  altCount : Nat
  flags    : Nat
  rep      : Lane
  presence : Lane
  biasCount : Nat
  biasVa   : Nat
  maskVa   : Nat

/-- A parameter record from its 64 bytes. -/
def samParams (b : List Byte) : SamParams :=
  let lane (o : Nat) : Lane := BitVec.ofNat 32 (fieldAt b o 4)
  { seed := fieldAt b 0 8, stream := fieldAt b 8 4, position := fieldAt b 12 4, draw := fieldAt b 0x10 4, temp := lane 0x14
    topP := lane 0x18, minP := lane 0x1C, topK := fieldAt b 0x20 2, altCount := fieldAt b 0x22 1, flags := fieldAt b 0x23 1
    rep := lane 0x24, presence := lane 0x28, biasCount := fieldAt b 0x2C 4, biasVa := fieldAt b 0x30 8, maskVa := fieldAt b 0x38 8 }

/-- Whether every parameter lies in its range. -/
def SamParams.ok (p : SamParams) (hasAlts : Bool) : Bool :=
  (p.temp == 0 || decide (0x00800000 ≤ p.temp.toNat ∧ p.temp.toNat < 0x7F800000)) &&
  decide (0 < p.topP.toNat ∧ p.topP.toNat ≤ 0x3F800000) && (decide (p.minP.toNat ≤ 0x3F800000) || p.minP == 0x80000000) &&
  decide (p.topK ≤ 1024 ∧ p.altCount ≤ 20 ∧ p.flags < 4 ∧ 0x3F800000 ≤ p.rep.toNat ∧ p.rep.toNat < 0x7F800000) &&
  decide (p.presence.toNat % 2 ^ 31 < 0x7F800000 ∧ p.biasCount ≤ 4096) && (p.biasCount != 0 || p.biasVa == 0) &&
  (p.altCount == 0 || hasAlts)

/-- Whether the sampling is greedy. -/
def SamParams.greedy (p : SamParams) : Bool := p.temp == 0

/-- A bias list: token and bias. -/
def biasList (b : List Byte) : List (Nat × Lane) :=
  (chunks 8 b.length b).map fun e => (fieldAt e 0 4, BitVec.ofNat 32 (fieldAt e 4 4))

/-- Whether tokens ascend strictly. -/
def tokensAscend : List Nat → Bool
  | a :: b :: r => decide (a < b) && tokensAscend (b :: r)
  | _ => true

/-- Whether a bias list keeps R395. -/
def biasOk (vocab : Nat) (l : List (Nat × Lane)) : Bool :=
  l.all (fun e => decide (e.1 < vocab ∧ e.2.toNat % 2 ^ 31 < 0x7F800000)) && tokensAscend (l.map (·.1))

/-- Bytes of one bitmap. -/
def bitmapLen (vocab : Nat) : Nat := (vocab + 511) / 512 * 64

/-- The bit of a token in a bitmap. -/
def bitmapHas (b : List Byte) (v : Nat) : Bool := bit (b.getD (v / 8) 0).toNat (v % 8)

/-! ## Exact values (R396) -/

/-- An exact sum. -/
def exactSum (l : List Num) : Num := l.foldl Num.add (Num.zero false)

/-- Whether one number is above another. -/
def numGt (a b : Num) : Bool :=
  match a.cmp b with
  | some c => decide (0 < c)
  | none => false

/-- Whether one number is not below another. -/
def numGe (a b : Num) : Bool :=
  match a.cmp b with
  | some c => decide (0 ≤ c)
  | none => false

/-- An item put into a list ordered by descending value, ties by ascending token. -/
def rankInsert (x : Nat × Num) : List (Nat × Num) → List (Nat × Num)
  | [] => [x]
  | y :: r => if numGt x.2 y.2 || (!numGt y.2 x.2 && decide (x.1 < y.1)) then x :: y :: r else y :: rankInsert x r

/-- Items in rank order. -/
def ranked (l : List (Nat × Num)) : List (Nat × Num) := l.foldr rankInsert []

/-- The first item whose cumulative weight exceeds a bound; the last where none does. -/
def drawFrom (bound : Num) : Num → List (Nat × Num) → Nat
  | _, [] => 0
  | _, [x] => x.1
  | acc, x :: r => if numGt (acc.add x.2) bound then x.1 else drawFrom bound (acc.add x.2) r

/-- A draw over items in ascending token order (R400). -/
def drawToken (u total : Num) (l : List (Nat × Num)) : Nat := drawFrom (u.mul total) (Num.zero false) l

/-- How many items at the front of a list have cumulative weights below a bound, and one more. -/
def prefixTo (bound : Num) : Num → List Num → Nat
  | _, [] => 0
  | acc, x :: r => if numGe (acc.add x) bound then 1 else 1 + prefixTo bound (acc.add x) r

/-! ## Random draws (R403) -/

/-- The word of a draw. -/
def drawWord (p : SamParams) (position purpose : Nat) : Nat :=
  let key := (philox [p.stream, 0, 0, 0xFFFFFFFF] [p.seed % 2 ^ 32, p.seed / 2 ^ 32]).take 2
  (philox [position % 2 ^ 32, p.draw, purpose, 0] key).headD 0

/-- The uniform of a draw: an odd multiple of 2^-24. -/
def uniform (p : SamParams) (position purpose : Nat) : Num := .fin ⟨false, 2 * (drawWord p position purpose / 512) + 1, -24⟩

/-! ## A row (R397–R402) -/

/-- EXP, LOG and RECIP of the engine. -/
structure SamFns where
  exp   : Lane → Lane
  log   : Lane → Lane
  recip : Lane → Lane

/-- The normal variants of the bound library; EXP of a zero is exactly 1 (R390). -/
def samFns (bank : Option Library) : SamFns :=
  { exp := (rsuFns bank false).exp, log := rsuFn bank false 3, recip := rsuFn bank false 4 }

/-- What a row comes to before its token is drawn. -/
structure SamRow where
  status : Nat
  z      : List Lane
  yv     : List Lane
  m0     : Lane
  lnS0   : Lane
  ent    : Lane
  m      : Lane
  /-- Survivors in rank order, with their exponentials. -/
  surv   : List (Nat × Num)
  total  : Num
  lnS    : Lane

/-- The distribution's entropy from its sum, its weighted sum and the logarithm of the sum (R398, R399). -/
def entropyOf (f : SamFns) (ln sum : Lane) (t : Num) : Lane := fsub ln (fmul (enc32 t) (f.recip sum))

/-- A list's tokens with their numbers. -/
def withTokens (l : List Lane) : List (Nat × Lane) := (List.range l.length).zip l

/-- Bias, masks and temperature (steps 1 to 3 of R397). -/
def modified (f : SamFns) (p : SamParams) (bias : List (Nat × Lane)) (masks : List Byte) (j : Nat) (z : Lane) : Lane :=
  let len := masks.length / 2
  let y := fadd z (((bias.find? fun e => e.1 == j).map (·.2)).getD 0)
  let y1 := if p.maskVa != 0 && bitmapHas masks j then infLane true
    else if p.maskVa != 0 && bitmapHas (masks.drop len) j then
      fsub (fmul y (if numGt (dec32 y) (Num.zero false) then f.recip p.rep else p.rep)) p.presence
    else y
  if p.greedy then y1 else fmul y1 (f.recip p.temp)

/-- A row without a distribution. -/
def failedRow (status : Nat) (z : List Lane) : SamRow := ⟨status, z, [], nanLane, nanLane, nanLane, nanLane, [], Num.zero false, nanLane⟩

/-- Steps 1 to 6 of R397 on a row of logits. -/
def sampleRow (f : SamFns) (p : SamParams) (bias : List (Nat × Lane)) (masks : List Byte) (z : List Lane) : SamRow :=
  let yv := (withTokens z).map fun e => modified f p bias masks e.1 e.2
  let open' := (withTokens yv).filter fun e => !(p.maskVa != 0 && bitmapHas masks e.1)
  let bad (l : Lane) : Bool := laneNan l || laneInf l false
  let ranks := ranked (((withTokens yv).filter fun e => numGt (dec32 e.2) (.inf true)).map fun e => (e.1, dec32 e.2))
  if z.any bad || open'.any (fun e => bad e.2) then failedRow 1 z
  else match ranks with
    | [] => failedRow 2 z
    | top :: _ =>
      let m0 := z.foldl fmax (infLane true)
      let fin := z.filter fun v => !laneInf v true
      let e0 := fin.map fun v => (f.exp (fsub v m0), fsub v m0)
      let s0 := enc32 (exactSum (e0.map fun e => dec32 e.1))
      let t0 := exactSum (e0.map fun e => dec32 (fmul e.1 e.2))
      let lnS0 := f.log s0
      let ent0 := entropyOf f lnS0 s0 t0
      let m := enc32 top.2
      if p.greedy then
        ⟨0, z, yv, m0, lnS0, if bit p.flags 0 then 0 else ent0, m, [(top.1, dec32 (oneLane false))], dec32 (oneLane false), 0⟩
      else
        let gap (t : Nat × Num) : Lane := fsub (enc32 t.2) m
        let exps := ranks.map fun t => (t, dec32 (f.exp (gap t)))
        let nk := if p.topK = 0 then ranks.length else min p.topK ranks.length
        let sk := exactSum ((exps.take nk).map (·.2))
        let np := prefixTo ((dec32 p.topP).mul sk) (Num.zero false) ((exps.take nk).map (·.2))
        let floor := dec32 (f.log p.minP)
        let keep := (exps.take np).filter fun e => numGe (dec32 (gap e.1)) floor
        let s := exactSum (keep.map (·.2))
        let sf := enc32 s
        let tq := exactSum (keep.map fun e => dec32 (fmul (enc32 e.2) (gap e.1)))
        let ln := f.log sf
        ⟨0, z, yv, m0, lnS0, if bit p.flags 0 then entropyOf f ln sf tq else ent0, m, keep.map (fun e => (e.1.1, e.2)), s, ln⟩

/-- Items in ascending order of their tokens. -/
def byToken (vocab : Nat) (l : List (Nat × Num)) : List (Nat × Num) := (List.range vocab).filterMap fun v => l.find? fun e => e.1 == v

/-- logp_raw of a token (R398). -/
def SamRow.raw (r : SamRow) (v : Nat) : Lane := fsub (fsub (r.z.getD v 0) r.m0) r.lnS0

/-- logp_sample of a token (R399, R401, R406). -/
def SamRow.sampled (r : SamRow) (p : SamParams) (v : Nat) : Lane :=
  if !r.surv.any (fun e => e.1 == v) then infLane true
  else if p.greedy then 0
  else fsub (fsub (r.yv.getD v 0) r.m) r.lnS

/-- The weight of a token among a row's survivors; 0 outside them. -/
def SamRow.weight (r : SamRow) (v : Nat) : Num := ((r.surv.find? fun e => e.1 == v).map (·.2)).getD (Num.zero false)

/-- The token drawn from a row's survivors at a counter position, and its uniform (R400, R401). -/
def SamRow.draw (r : SamRow) (p : SamParams) (position : Nat) : Nat × Lane :=
  if p.greedy then ((r.surv.headD (0, Num.zero false)).1, 0)
  else
    let u := uniform p position 0
    (drawToken u r.total (byToken r.z.length r.surv), enc32 u)

/-! ## Result records (R405–R407) -/

/-- The tokens of a record's alternatives, in their order (R406). -/
def SamRow.alternatives (r : SamRow) (p : SamParams) : List Nat :=
  let l := if bit p.flags 1 then r.surv
    else ranked (((withTokens r.z).filter fun e => !laneInf e.2 true).map fun e => (e.1, dec32 e.2))
  (l.take p.altCount).map (·.1)

/-- A record: its 64 bytes and its alternatives' bytes. -/
structure SamOut where
  record : List Byte
  alts   : List Byte

/-- The epochs that tag a step's records (R407). -/
def samEpochs (t : StepRec) : List Byte :=
  leBytes 4 (if t.model.isSome then t.epochW else 0) ++ leBytes 4 (if t.adapter.isSome then t.epochA else 0)

/-- The record of a token. -/
def samRecord (t : StepRec) (p : SamParams) (r : SamRow) (position v : Nat) (u : Lane) (origin : Nat) : SamOut :=
  let lane (l : Lane) : List Byte := leBytes 4 l.toNat
  let alts := r.alternatives p
  { record := leBytes 4 v ++ lane (r.raw v) ++ lane (r.sampled p v) ++ lane r.ent ++ samEpochs t ++ leBytes 4 r.surv.length ++
      leBytes 4 (position % 2 ^ 32) ++ leBytes 4 p.draw ++ lane u ++ lane r.m0 ++ lane r.lnS0 ++
      [0, BitVec.ofNat 8 (b2n p.greedy + 2 * b2n (bit p.flags 0) + 4 * origin), BitVec.ofNat 8 alts.length] ++ zeros 13
    alts := alts.flatMap fun a => leBytes 4 a ++ lane (r.raw a) ++ lane (r.sampled p a) ++ zeros 4 }

/-- The record of a row with another status; its origin is free (R402). -/
def samFailed (t : StepRec) (p : SamParams) (status position : Nat) (s : State) : SamOut × State :=
  let nan := leBytes 4 nanLane.toNat
  let (origin, s1) := s.draw
  ({ record := leBytes 4 0xFFFFFFFF ++ nan ++ nan ++ nan ++ samEpochs t ++ zeros 4 ++ leBytes 4 (position % 2 ^ 32) ++ leBytes 4 p.draw ++
      nan ++ nan ++ nan ++
      [BitVec.ofNat 8 status, BitVec.ofNat 8 (b2n p.greedy + 2 * b2n (bit p.flags 0) + 4 * (origin % 4)), 0] ++ zeros 13
     alts := [] }, s1)

/-- Several such records at consecutive positions. -/
def samFailedRun (t : StepRec) (p : SamParams) (status : Nat) : List Nat → State → List SamOut × State
  | [], s => ([], s)
  | pos :: r, s =>
    let (o, s1) := samFailed t p status pos s
    let (os, s2) := samFailedRun t p status r s1
    (o :: os, s2)

/-! ## The descriptor (R391–R393) -/

/-- A Sampling Engine descriptor. -/
structure SamDesc where
  logits : Nat
  params : Nat
  result : Nat
  alt : Nat
  draft : Nat
  tokens : Nat
  vocab : Nat
  rows : Nat
  pitch : Nat
  inFmt : Nat
  drafts : Nat

/-- The fields of a descriptor. -/
def samDesc (d : QDesc) : SamDesc :=
  { logits := d.field 0x10 8, params := d.field 0x18 8, result := d.field 0x20 8, alt := d.field 0x28 8, draft := d.field 0x30 8
    tokens := d.field 0x38 8, vocab := d.field 0x40 4, rows := d.field 0x44 4, pitch := d.field 0x48 4, inFmt := d.field 0x4C 1
    drafts := d.field 0x4D 1 }

/-- The checks of R393. -/
def samOk (d : QDesc) (x : SamDesc) : Bool :=
  d.bytes.length == 128 && [x.logits, x.params, x.result, x.alt, x.draft, x.tokens].all (fun a => a % 64 == 0) &&
  x.logits != 0 && x.params != 0 && x.result != 0 && decide (1 ≤ x.vocab ∧ x.vocab ≤ 1048576) && (x.inFmt == 0 || x.inFmt == 5) &&
  decide (x.pitch % 64 = 0 ∧ x.vocab * elemBytes x.inFmt ≤ x.pitch) && zeroAt d.bytes 0x4E 50 &&
  (if d.format = 1 then decide (1 ≤ x.rows ∧ x.rows ≤ 1024) && x.draft == 0 && x.tokens == 0 && x.drafts == 0
   else decide (1 ≤ x.rows ∧ x.rows ≤ 64 ∧ 1 ≤ x.drafts ∧ x.drafts ≤ 16) && x.draft != 0 && x.tokens != 0)

/-- The bias list and the bitmaps that a record in range names. -/
def samLists (x : SamDesc) (p : SamParams) : List (Nat × Nat) :=
  if p.ok (x.alt != 0) then [(p.biasVa, p.biasCount * 8), (p.maskVa, if p.maskVa = 0 then 0 else 2 * bitmapLen x.vocab)]
  else [(0, 0), (0, 0)]

/-- The slots that a descriptor writes: row or sequence, and slot number. -/
def SamDesc.slots (x : SamDesc) (fmt : Nat) : List Nat :=
  if fmt = 1 then List.range x.rows
  else (List.range x.rows).flatMap fun r => (List.range (x.drafts + 1)).map (17 * r + ·)

/-- The records and alternatives written to a descriptor's slots; free bytes where they overlap an input (R392). -/
def samFinish (e : Eng) (d : QDesc) (t : StepRec) (x : SamDesc) (ins : List (Nat × Nat)) (outs : State → List SamOut × State)
    (s : State) : EngRes :=
  let slots := x.slots d.format
  let recs := slots.map fun i => (x.result + 64 * i, 64)
  let alts := if x.alt = 0 then [] else slots.map fun i => (x.alt + 320 * i, 320)
  withDests e t recs s fun s1 pr => withDests e t alts s1 fun s2 pa =>
    let (os, s3) := outs s2
    if (recs ++ alts).any (fun o => ins.any fun i => overlap i.1 i.2 o.1 o.2) then
      let (rb, s4) := freeBytes (64 * slots.length) s3
      let (ab, s5) := freeBytes (320 * alts.length) s4
      .done ((s5.engWrites e t pr (chunks 64 slots.length rb)).engWrites e t pa (chunks 320 slots.length ab))
    else .done ((s3.engWrites e t pr (os.map (·.record))).engWrites e t pa (os.map (·.alts)))

/-! ## Rows (R397) and drafts (R408–R410) -/

/-- A row's parameters, bias list and bitmaps. -/
structure SamInput where
  p     : SamParams
  bias  : List (Nat × Lane)
  masks : List Byte
  ok    : Bool

/-- The inputs of each row or sequence. -/
def samInputs (x : SamDesc) (ps : List SamParams) (lists : List (List Byte)) : List SamInput :=
  (ps.zip (chunks 2 ps.length lists)).map fun e =>
    let bias := biasList (e.2.getD 0 [])
    ⟨e.1, bias, e.2.getD 1 [], e.1.ok (x.alt != 0) && biasOk x.vocab bias⟩

/-- The record of one row of format 1. -/
def samOne (f : SamFns) (t : StepRec) (i : SamInput) (z : List Lane) (s : State) : SamOut × State :=
  if !i.ok then samFailed t i.p 3 i.p.position s
  else
    let r := sampleRow f i.p i.bias i.masks z
    if r.status ≠ 0 then samFailed t i.p r.status i.p.position s
    else
      let (v, u) := r.draw i.p i.p.position
      (samRecord t i.p r i.p.position v u 0, s)

/-- The records of rows, in ascending order. -/
def samRows (f : SamFns) (t : StepRec) : List (SamInput × List Lane) → State → List SamOut × State
  | [], s => ([], s)
  | r :: rest, s =>
    let (o, s1) := samOne f t r.1 r.2 s
    let (os, s2) := samRows f t rest s1
    (o :: os, s2)

/-- The residual weights of a rejected draft, in ascending token order (R408). -/
def residual (vocab : Nat) (target draft : SamRow) : List (Nat × Num) :=
  ((List.range vocab).map fun v =>
    (v, ((target.weight v).mul draft.total).add ((draft.weight v).mul target.total).negate)).filter fun e => numGt e.2 (Num.zero false)

/-- What becomes of one draft token: whether it is accepted, the token emitted, its uniform and its origin. -/
def judge (p : SamParams) (vocab position x : Nat) (target draft : SamRow) : Bool × Nat × Lane × Nat :=
  let u := uniform p position 1
  if p.greedy then
    let g := (target.surv.headD (0, Num.zero false)).1
    if x = g then (true, x, 0, 1) else (false, g, 0, 2)
  else if target.surv.any (fun e => e.1 == x) &&
      numGe ((target.weight x).mul draft.total) ((u.mul (draft.weight x)).mul target.total) then (true, x, enc32 u, 1)
  else
    let u' := uniform p position 2
    let w := residual vocab target draft
    (false, drawToken u' (exactSum (w.map (·.2))) w, enc32 u', 2)

/-- The slots of a sequence from one position on: the drafts still to verify with their target and draft rows, then the last row. -/
def verifyFrom (t : StepRec) (p : SamParams) (vocab : Nat) (last : SamRow) : Nat → List (Nat × SamRow × SamRow) → State → List SamOut × State
  | pos, [], s =>
    if last.status ≠ 0 then
      let (o, s1) := samFailed t p last.status pos s
      ([o], s1)
    else
      let (v, u) := last.draw p pos
      ([samRecord t p last pos v u 3], s)
  | pos, (x, target, draft) :: rest, s =>
    let after := (List.range (rest.length + 1)).map (pos + 1 + ·)
    if target.status ≠ 0 ∨ draft.status ≠ 0 then
      let (o, s1) := samFailed t p (if target.status ≠ 0 then target.status else draft.status) pos s
      let (os, s2) := samFailedRun t p 4 after s1
      (o :: os, s2)
    else
      let (ok, v, u, origin) := judge p vocab pos x target draft
      let here := samRecord t p target pos v u origin
      let (os, s1) := if ok then verifyFrom t p vocab last (pos + 1) rest s else samFailedRun t p 4 after s
      (here :: os, s1)

/-- A sequence of format 2: its inputs, its target rows, its draft rows and its draft tokens. -/
def samSequence (f : SamFns) (t : StepRec) (vocab : Nat) (i : SamInput) (targets drafts : List (List Lane)) (xs : List Nat)
    (s : State) : List SamOut × State :=
  if !i.ok || xs.any (fun v => decide (vocab ≤ v)) then
    samFailedRun t i.p 3 ((List.range targets.length).map (i.p.position + ·)) s
  else
    let ts := targets.map (sampleRow f i.p i.bias i.masks)
    let ds := drafts.map (sampleRow f i.p i.bias i.masks)
    verifyFrom t i.p vocab (ts.getLastD (failedRow 2 [])) i.p.position (xs.zip (ts.zip ds)) s

/-- The sequences, in ascending order. -/
def samSequences (f : SamFns) (t : StepRec) (vocab : Nat) :
    List (SamInput × List (List Lane) × List (List Lane) × List Nat) → State → List SamOut × State
  | [], s => ([], s)
  | q :: rest, s =>
    let (o, s1) := samSequence f t vocab q.1 q.2.1 q.2.2.1 q.2.2.2 s
    let (os, s2) := samSequences f t vocab rest s1
    (o ++ os, s2)

/-- Format 1. -/
def samRowsDesc (e : Eng) (d : QDesc) (t : StepRec) (s : State) : EngRes :=
  let x := samDesc d
  let f := samFns (s.bank t.libBank)
  let len := x.vocab * elemBytes x.inFmt
  let logits := rowsAt x.logits x.pitch x.rows len
  if !samOk d x then .malformed
  else withRead s e t x.params (64 * x.rows) fun s1 pb =>
    let ps := (chunks 64 x.rows pb).map samParams
    let lists := ps.flatMap (samLists x)
    withReads e t lists s1 fun s2 lb => withReads e t logits s2 fun s3 zb =>
      let rows := (samInputs x ps lb).zip (zb.map (laneElems x.inFmt))
      samFinish e d t x ((x.params, 64 * x.rows) :: lists ++ logits) (samRows f t rows) s3

/-- Format 2. -/
def samDraftsDesc (e : Eng) (d : QDesc) (t : StepRec) (s : State) : EngRes :=
  let x := samDesc d
  let f := samFns (s.bank t.libBank)
  let len := x.vocab * elemBytes x.inFmt
  let n := x.drafts
  let targets := rowsAt x.logits x.pitch (x.rows * (n + 1)) len
  let drafts := rowsAt x.draft x.pitch (x.rows * n) len
  let toks := rowsAt x.tokens 64 x.rows (4 * n)
  if !samOk d x then .malformed
  else withRead s e t x.params (64 * x.rows) fun s1 pb =>
    let ps := (chunks 64 x.rows pb).map samParams
    let lists := ps.flatMap (samLists x)
    withReads e t lists s1 fun s2 lb => withReads e t targets s2 fun s3 tb => withReads e t drafts s3 fun s4 db =>
      withReads e t toks s4 fun s5 xb =>
        let tz := chunks (n + 1) x.rows (tb.map (laneElems x.inFmt))
        let dz := chunks n x.rows (db.map (laneElems x.inFmt))
        let xs := xb.map fun b => (chunks 4 n b).map leNat
        samFinish e d t x ((x.params, 64 * x.rows) :: lists ++ targets ++ drafts ++ toks)
          (samSequences f t x.vocab ((samInputs x ps lb).zip (tz.zip (dz.zip xs)))) s5

/-- SAMPLE_ROWS. -/
def execSampleRows (die : Nat) (s : State) : Out := .next (s.engineOp ⟨die, 14⟩ [1, 2] [1] (samRowsDesc ⟨die, 14⟩))

/-- VERIFY_DRAFTS. -/
def execVerifyDrafts (die : Nat) (s : State) : Out := .next (s.engineOp ⟨die, 14⟩ [1, 2] [2] (samDraftsDesc ⟨die, 14⟩))

end Sys2Proof.Machine
end

