-- ==== Sys2Proof/Machine/Sends.lean ====
section
/-! DEFINITION. SENDs to other members and the Reducers that sum their streams (R488, R492–R495). -/

namespace Sys2Proof.Machine

/-! ## SEND (R492, R493) -/

/-- A SEND descriptor. -/
structure SendDesc where
  src : Nat
  dst : Nat
  len : Nat
  key : Nat
  mode : Nat
  device : Nat
  die : Nat
  inst : Nat
  fmt : Nat

/-- The fields of a descriptor. -/
def sendDesc (d : QDesc) : SendDesc :=
  { src := d.field 0x10 8, dst := d.field 0x18 8, len := d.field 0x20 4, key := d.field 0x24 4, mode := d.field 0x28 1
    device := d.field 0x29 1, die := d.field 0x2A 1, inst := d.field 0x2B 1, fmt := d.field 0x2C 1 }

/-- The ranges of R492. -/
def sendOk (d : QDesc) (x : SendDesc) : Bool :=
  d.bytes.length == 64 && decide (x.src % 64 = 0 ∧ x.len % 64 = 0 ∧ 64 ≤ x.len ∧ x.len ≤ 2 ^ 28 ∧ x.device < 64) && zeroAt d.bytes 0x2D 19 &&
  (match x.mode with
  | 1 => decide (x.dst % 64 = 0) && x.key == 0 && x.die == 0 && x.inst == 0 && x.fmt == 0
  | 2 => x.dst == 0 && decide (x.die < 8 ∧ x.inst < 2) && (x.fmt == 0 || x.fmt == 5)
  | _ => false)

/-- Whether a destination can be reached: it is this member or adjacent (R488). -/
def State.reaches (s : State) (m : Nat) : Bool := m == s.fab.device || s.adjacent m

/-- The engine index of a Reducer. -/
def reducerIdx (inst : Nat) : Nat := 24 + inst

/-- A chunk of a stream waits at the ingress of its Reducer, or of the one that serves in its place. -/
def State.takeChunk (s : State) (c : ReduceChunk) : State :=
  let e := s.server c.die (reducerIdx c.inst)
  s.setEngine e.1 e.2 fun x => { x with ingress := x.ingress ++ [c] }

/-- What another member answered to a SEND: it is acknowledged, blocked, or faulted at the destination. -/
def sendAnswer (e : Eng) (d : QDesc) (t : StepRec) (device : Nat) (a : RemoteAns) (s : State) : EngRes :=
  if a.status = ST_OK then .done s
  else if a.status = ST_ISOLATION then .stall (s.takeBlocked t.fn t.ctag t.queue t.index e.agentKind e.agent a.detail)
  else .stall ((s.letHand e d).faultStepAt device t.queue t.index a.kind a.access a.detail a.ri a.va e.agentKind e.agent)

/-- A SEND whose answer has not come, or has. -/
def sendItem (e : Eng) (d : QDesc) (t : StepRec) (x : SendDesc) (i : RemoteItem) (s : State) : EngRes :=
  match i.answer with
  | none => .stall s
  | some a => sendAnswer e d t x.device a s

/-- SEND mode 1. -/
def sendWrite (e : Eng) (d : QDesc) (t : StepRec) (s : State) : EngRes :=
  let x := sendDesc d
  if !sendOk d x then .malformed
  else match s.itemsOf e d with
    | i :: _ => sendItem e d t x i s
    | [] =>
      if !s.reaches x.device then .malformed
      else withRead s e t x.src x.len fun s1 b =>
        if x.device = s1.fab.device then withDest s1 e t x.dst x.len fun s2 ps => .done (s2.engWrite e t ps b)
        else .stall ((s1.send x.device 6 (.remoteWrite ⟨s1.fab.device, t.fn, t.ctag, x.dst, b, s1.itemTag e 0⟩)).takeHand e d [0])

/-- SEND mode 2; a stream to this member's own Reducer uses no fabric. -/
def sendStream (e : Eng) (d : QDesc) (t : StepRec) (s : State) : EngRes :=
  let x := sendDesc d
  if !sendOk d x then .malformed
  else match s.itemsOf e d with
    | i :: _ => sendItem e d t x i s
    | [] =>
      if !s.reaches x.device then .malformed
      else withRead s e t x.src x.len fun s1 b =>
        let c : ReduceChunk := ⟨s1.fab.device, t.fn, t.ctag, x.key, x.die, x.inst, b, true, s1.itemTag e 0⟩
        if x.device = s1.fab.device then .done (s1.takeChunk c) else .stall ((s1.send x.device 4 (.reduceChunk c)).takeHand e d [0])

/-- SEND mode 1; it also meets a SEND of no mode. -/
def execSendRemoteWrite (die mover : Nat) (s : State) : Out :=
  s.moverOp die mover (fun d => d.format == 0x15 && d.field 0x28 1 != 2) sendWrite

/-- SEND mode 2. -/
def execSendReduceStream (die mover : Nat) (s : State) : Out :=
  s.moverOp die mover (fun d => d.format == 0x15 && d.field 0x28 1 == 2) sendStream

/-! ## At the destination (R263, R493) -/

/-- Whether a function owns a CTAG here. -/
def State.ownsCtag (s : State) (fn ctag : Nat) : Bool := (tabGet? s.ctx.ctxs ctag).any fun c => c.owner == fn

/-- An item of another member is blocked: a record is written here. -/
def State.blockItem (s : State) (source fn ctag : Nat) : State :=
  s.cometF1 7 (0x100 + ((s.portsTo source).head?.map (·.1)).getD 0) (some ctag) s.fab.device fn
    (((tabGet? s.ctx.ctxs ctag).map (·.owner)).getD 0xFFFF)

/-- An answer that nothing was written, with a fault at the destination. -/
def faultAns (kind detail ri va : Nat) : RemoteAns := ⟨faultStatus kind, kind, 2, ri, va, detail, []⟩

/-- The write of a remote SEND: the whole destination is translated before any byte is written. -/
def State.remoteWrite (s : State) (w : RemoteWrite) : State × RemoteAns :=
  let c := s.context w.ctag
  if !s.ownsCtag w.function w.ctag then (s.blockItem w.source w.function w.ctag, kvNo ST_ISOLATION s.fab.device)
  else match s.xlateNow (relayUnit 0) w.ctag w.dstVa w.bytes.length 2 with
    | .miss va => (s, faultAns 1 0 0xFFFFFFFF va)
    | .fault 5 _ _ _ => (s.blockItem w.source w.function w.ctag, kvNo ST_ISOLATION s.fab.device)
    | .fault k d ri va => (s, faultAns k d ri va)
    | .ok ps =>
      if s.canWrite c ps then ((s.storeParts ⟨w.ctag, none, 10, 0⟩ ps w.bytes).settleWrites, kvNo ST_OK 0)
      else (s, faultAns 3 (hostDetail 6 0 c.homePort) (firstHost ps).1 (firstHost ps).2)

/-- REMOTE_WRITE_RECEIVE. -/
def execRemoteWriteReceive (w : RemoteWrite) (s : State) : Out :=
  .next (
    if s.pp.state != .service then s
    else
      let (s1, a) := s.remoteWrite w
      s1.send w.source 6 (.kvAck w.tag a))

/-- REDUCE_CHUNK_RECEIVE. -/
def execReduceChunkReceive (c : ReduceChunk) (s : State) : Out :=
  .next (
    if s.pp.state != .service then s
    else if !s.ownsCtag c.function c.ctag then
      (s.blockItem c.source c.function c.ctag).send c.source 4 (.streamAck c.tag (kvNo ST_ISOLATION s.fab.device))
    else (s.takeChunk c).send c.source 4 (.streamAck c.tag (kvNo ST_OK 0)))

/-! ## REDUCE (R494, R495) -/

/-- A REDUCE descriptor. -/
structure ReduceDesc where
  own : Nat
  dst : Nat
  mask : Nat
  count : Nat
  key : Nat
  inFmt : Nat
  outFmt : Nat

/-- The fields of a descriptor. -/
def reduceDesc (d : QDesc) : ReduceDesc :=
  { own := d.field 0x10 8, dst := d.field 0x18 8, mask := d.field 0x20 8, count := d.field 0x28 4, key := d.field 0x2C 4
    inFmt := d.field 0x30 1, outFmt := d.field 0x31 1 }

/-- The ranges of R494 on a member. -/
def reduceOk (d : QDesc) (x : ReduceDesc) (device : Nat) : Bool :=
  d.bytes.length == 64 && decide (x.count % 64 = 0 ∧ 64 ≤ x.count ∧ x.count ≤ 16777216) && (x.inFmt == 0 || x.inFmt == 5) &&
  (x.outFmt == 0 || x.outFmt == 5) && zeroAt d.bytes 0x32 14 && (bit x.mask device || x.own == 0)

/-- Bytes of an element of a Reducer's format. -/
def reduceElem (f : Nat) : Nat := if f = 5 then 4 else 2

/-- The sums of several contributions, element by element. -/
def sumRows (n : Nat) (rows : List (List Lane)) : List Lane :=
  rows.foldl (fun acc r => (acc.zip r).map fun e => fadd e.1 e.2) (List.replicate n 0)

/-- The streams of a source among those taken: their bytes, and whether the last has come. -/
def streamOf (cs : List ReduceChunk) (m : Nat) : List Byte × Bool :=
  let mine := cs.filter fun c => c.source == m
  (mine.flatMap (·.bytes), mine.any (·.last))

/-- REDUCE: it waits in hand until each contributor's stream is whole. -/
def reducerSum (e : Eng) (d : QDesc) (t : StepRec) (s : State) : EngRes :=
  let x := reduceDesc d
  if !reduceOk d x s.fab.device then .malformed
  else
    let (mine, rest) := takeStreams t.ctag x.key [] (s.engine e.die e.idx).ingress
    let own := bit x.mask s.fab.device
    let far := (bitList 64 x.mask).filter (· != s.fab.device)
    let n := x.count * reduceElem x.inFmt
    let bad := far.any fun m =>
      let (b, whole) := streamOf mine m
      decide (n < b.length) || (whole && b.length != n)
    if bad then .ends ST_MALFORMED (if (s.engine e.die e.idx).inHand = some d then s else s.setEngine e.die e.idx fun y => { y with ingress := rest })
    else withRead s e t x.own (if own then n else 0) fun s1 ob => withDest s1 e t x.dst (x.count * reduceElem x.outFmt) fun s2 ps =>
      if far.any fun m => !(streamOf mine m).2 then
        .stall (if (s2.engine e.die e.idx).inHand = some d then s2 else s2.takeHand e d [])
      else
        let row (m : Nat) : List Lane := (elemsOf x.inFmt (if m = s2.fab.device then ob else (streamOf mine m).1)).map (widen x.inFmt)
        let sums := sumRows x.count ((bitList 64 x.mask).map row)
        .done ((s2.engWrite e t ps (bytesOfElems x.outFmt (sums.map (narrow x.outFmt)))).setEngine e.die e.idx fun y => { y with ingress := rest })

/-- REDUCE. -/
def execReduce (die inst : Nat) (s : State) : Out :=
  .next (if inst < 2 then s.engineOp ⟨die, reducerIdx inst⟩ [1] [1] (reducerSum ⟨die, reducerIdx inst⟩) else s)

end Sys2Proof.Machine
end

