-- ==== Sys2Proof/Machine/Routing.lean ====
section
/-! DEFINITION. Open entries, grants, slot writes, reports and returned rows as a member receives them, and the choice of experts
(R415–R423, R425, R430–R432). -/

namespace Sys2Proof.Machine

/-! ## Selection and gates (R415, R416) -/

/-- Status of a row: routed, invalid scores, gate not formed. -/
structure Routed where
  status : Nat
  /-- Experts in choice order with their gate weights. -/
  chosen : List (Nat × Lane)

/-- The selected set of a row: experts in choice order, with their scores. -/
def selectExperts (scores : List Lane) (tau : Lane) (kMin kMax : Nat) : List (Nat × Lane) :=
  let order := ranked ((numbered scores).map fun e => (e.1, dec32 e.2))
  let above := (order.filter fun e => !numGt (dec32 tau) e.2).length
  (order.take (min kMax (max kMin above))).map fun e => (e.1, scores.getD e.1 0)

/-- An exact sum, rounded once. -/
def roundedSum (xs : List Lane) : Lane := enc32 (exactSum (xs.map dec32))

/-- Whether a value is finite and above zero. -/
def finitePositive (x : Lane) : Bool :=
  match dec32 x with
  | .fin d => !d.neg && d.man != 0
  | _ => false

/-- A row routed under a gate mode. -/
def routeRow (f : RsuFns) (scores : List Lane) (tau : Lane) (kMin kMax gateMode : Nat) : Routed :=
  if scores.any (fun x => laneNan x || laneInf x false) then ⟨1, []⟩
  else
    let sel := selectExperts scores tau kMin kMax
    match gateMode with
    | 0 => ⟨0, sel⟩
    | 1 =>
      let sum := roundedSum (sel.map (·.2))
      if !finitePositive sum then ⟨2, []⟩ else ⟨0, sel.map fun e => (e.1, fmul e.2 (f.recip sum))⟩
    | _ =>
      let top := (sel.headD (0, 0)).2
      let x (e : Nat × Lane) : Lane := if laneInf top true then oneLane false else f.exp (fsub e.2 top)
      let sum := roundedSum (sel.map x)
      ⟨0, sel.map fun e => (e.1, fmul (x e) (f.recip sum))⟩

/-! ## Replicas and slots (R419, R422, R423) -/

/-- The replicas of an expert in the order in which a source tries them. -/
def replicaOrder (source expert : Nat) (rs : List (Nat × Nat)) : List (Nat × Nat) :=
  let k := (source + expert) % rs.length
  let turned := rs.drop k ++ rs.take k
  turned.filter (fun r => r.1 == source) ++ turned.filter fun r => r.1 != source

/-- The rank of a member in a mask. -/
def rankIn (mask m : Nat) : Nat := popCount 64 (mask % 2 ^ m)

/-- The first slot of a lane of a source, and the slots of its share. -/
def Placement.share (p : Placement) (source lane : Nat) : Nat × Nat :=
  (rankIn p.mask source * p.perSource + lane * (p.perSource / 16), p.perSource / 16)

/-- Members in the mask. -/
def Placement.members (p : Placement) : Nat := popCount 64 p.mask

/-- Bytes of the queue of one local index. -/
def Placement.queueBytes (p : Placement) : Nat := 1088 + p.members * p.perSource * (p.rowBytes + 64)

/-- A layer's record. -/
def Placement.layer (p : Placement) (l : Nat) : PlaceLayer := p.layers.getD l ⟨[]⟩

/-- The lane of a Scatter Engine. -/
def Eng.lane (e : Eng) : Nat := e.die * 2 + (e.idx - 12)

/-- The part of some runs between two offsets. -/
def partsSlice : List Part → Nat → Nat → List Part
  | [], _, _ => []
  | p :: r, off, len =>
    if len = 0 then []
    else if p.len ≤ off then partsSlice r (off - p.len) len
    else
      let n := min len (p.len - off)
      let place := match p.place with
        | .dev pa key x => .dev (pa + off) key x
        | .host a x n => .host (a + off) x n
      ⟨p.va + off, n, p.ri, place⟩ :: partsSlice r 0 (len - n)

/-- The tail of a slot: token handle, gate, expert and choice. -/
def slotTail (handle : Nat) (gate : Lane) (expert choice : Nat) : List Byte :=
  leBytes 8 handle ++ leBytes 4 gate.toNat ++ leBytes 2 expert ++ leBytes 1 choice ++ zeros 49

/-- A token handle (R430). -/
def tokenHandle (home choice row : Nat) : Nat := home * 2 ^ 58 + choice * 2 ^ 48 + row % 2 ^ 32

/-! ## Open entries (R420) -/

/-- The open entry of a match. -/
def State.entryOf (s : State) (m : SeMatch) : Option OpenEntry := s.wt.entries.find? fun e => e.m == m

/-- An open entry changed. -/
def State.modEntry (s : State) (m : SeMatch) (f : OpenEntry → OpenEntry) : State :=
  { s with wt := { s.wt with entries := s.wt.entries.map fun e => if e.m = m then f e else e } }

/-- The table that an open entry was opened with. -/
def State.entryTable (s : State) (x : OpenEntry) : Placement := (s.placement? x.model).getD ⟨x.m.version, 0, 0, 0, []⟩

/-- An expert's counters changed. -/
def OpenEntry.count (x : OpenEntry) (e : Nat) (f : ExpertCount → ExpertCount) : OpenEntry := { x with counts := tabMod freshCount x.counts e f }

/-- Bytes written to part of an open entry's regions. -/
def State.entryWrite (s : State) (x : OpenEntry) (ps : List Part) (off : Nat) (bs : List Byte) : State :=
  s.storeParts ⟨x.m.ctag, some (x.queue, x.step), 4, x.agent⟩ (partsSlice ps off bs.length) bs

/-- A sync object of an open entry's core gains 1. -/
def State.entrySignal (s : State) (x : OpenEntry) (sync : Nat) : State :=
  let obj := 16 * ((x.bank + b2n (bit sync 4)) % 2) + sync % 16
  s.settleWrites.sendSignal ⟨s.fab.device, x.m.function, x.m.ctag, x.queue, x.step, 1024 + x.agent, podObject s.fab.device x.core obj, 1⟩

/-! ## Grants (R421) -/

/-- Entries of the grant table. -/
def grantEntries : Nat := 1024

/-- The recorded grants of a match and sub-step. -/
def State.grantOf (s : State) (m : SeMatch) (sub : Nat) : Option GrantRec := s.wt.grants.find? fun g => g.m == m && g.subStep == sub

/-- A grant set changed. -/
def State.modGrant (s : State) (m : SeMatch) (sub : Nat) (f : GrantRec → GrantRec) : State :=
  { s with wt := { s.wt with grants := s.wt.grants.map fun g => if g.m = m ∧ g.subStep = sub then f g else g } }

/-- A grant reaches its source: it is recorded, or kept at its granter when the table is full. -/
def State.takeGrant (s : State) (g : GrantMsg) : State :=
  if (s.grantOf g.m g.subStep).isSome then s.modGrant g.m g.subStep fun r => { r with mask := setBit r.mask g.granter }
  else if s.wt.grants.length < grantEntries then
    { s with wt := { s.wt with grants := s.wt.grants ++ [⟨g.m, g.subStep, 2 ^ g.granter, [], 0⟩] } }
  else if g.granter = s.fab.device then { s with wt := { s.wt with keptGrants := s.wt.keptGrants ++ [g] } }
  else s.send g.granter 0 (.grantFull g)

/-- A grant goes to its destination. -/
def State.sendGrant (s : State) (g : GrantMsg) : State := if g.dest = s.fab.device then s.takeGrant g else s.send g.dest 5 (.grant g)

/-- Grants of an entry's sub-step go to every member. -/
def State.sendGrants (s : State) (m : SeMatch) (sub mask : Nat) : State :=
  forEach (bitList 64 mask) s fun s d => s.sendGrant ⟨m, sub, s.fab.device, d⟩

/-- GRANT_RECEIVE. -/
def execGrantReceive (g : GrantMsg) (s : State) : Out :=
  .next (if s.pp.state == .service && g.dest == s.fab.device && decide (g.granter < 64) then s.takeGrant g else s)

/-- GRANT_RESEND: a kept grant is sent again while its entry is open in the sub-step that it grants. -/
def execGrantResend (k : Nat) (s : State) : Out :=
  .next (
    match s.wt.keptGrants[k]? with
    | none => s
    | some g =>
      let s1 := { s with wt := { s.wt with keptGrants := s.wt.keptGrants.eraseIdx k } }
      if (s.entryOf g.m).any fun x => x.subStep == g.subStep then s1.sendGrant g else s1)

/-! ## Items that reach an open entry (R423, R425, R430, R432) -/

/-- Detail of a block: expert number and receiving member. -/
def seDetail (expert device : Nat) : Nat := expert % 4096 + device % 64 * 4096

/-- A block is recorded on the receiving member. -/
def State.seBlock (s : State) (m : SeMatch) (expert : Nat) : State :=
  s.cometF1 8 0 (some m.ctag) expert m.function (((tabGet? s.ctx.ctxs m.ctag).map (·.owner)).getD 0xFFFF)

/-- The entry that an item of a match may reach. -/
def State.entryFor (s : State) (m : SeMatch) (sub : Option Nat) : Option OpenEntry :=
  (s.entryOf m).filter fun x => s.ownsCtag m.function m.ctag && sub.all (· == x.subStep) && (sub.isNone || !x.ready)

/-- A slot write is applied, or refused as a block. -/
def State.takeSlot (s : State) (w : SlotWrite) : Option State :=
  (s.entryFor w.m (some w.sub)).bind fun x =>
    let p := s.entryTable x
    let (first, n) := p.share w.source w.lane
    if bit p.mask w.source && decide (w.lane < 16 ∧ first ≤ w.slot ∧ w.slot < first + n ∧ w.local_ < (p.layer x.m.layer).count s.fab.device) &&
        w.bytes.length == p.rowBytes + 64 then
      let s1 := s.entryWrite x x.queueParts (64 + w.local_ * p.queueBytes + 0x440 + w.slot * (p.rowBytes + 64)) w.bytes
      some (s1.modEntry w.m fun y =>
        { y.count w.expert (fun c => { c with received := c.received + 1, bytes := c.bytes + w.bytes.length }) with
          fill := tabMod 0 y.fill (w.local_ * 1024 + w.source * 16 + w.lane) (· + 1) })
    else none

/-- Slots filled of a queue by lane of a source, and in all. -/
def OpenEntry.filled (x : OpenEntry) (local_ : Nat) : Nat := ((x.fill.filter fun f => f.1 / 1024 == local_).map (·.2)).sum

/-- Tokens left in spill lists after the sub-step. -/
def OpenEntry.spillTotal (x : OpenEntry) : Nat := (x.reports.map (·.2)).sum

/-- The open record. -/
def OpenEntry.openRecord (x : OpenEntry) : List Byte :=
  leBytes 2 x.subStep ++ zeros 2 ++ leBytes 4 x.reports.length ++ leBytes 4 x.spillTotal ++ leBytes 4 ((x.fill.map (·.2)).sum)
    ++ leBytes 4 x.m.epoch ++ zeros 44

/-- The header and the fill table of a queue. -/
def OpenEntry.queueHead (x : OpenEntry) (local_ expert : Nat) : List Byte :=
  leBytes 2 expert ++ leBytes 2 local_ ++ leBytes 4 (x.filled local_) ++ zeros 56
    ++ (List.range 1024).flatMap fun i => leBytes 1 (tabGet 0 x.fill (local_ * 1024 + i))

/-- Every report of a sub-step has come: headers, fill tables and the open record are written, and the ready object gains 1. -/
def State.subStepReady (s : State) (x : OpenEntry) : State :=
  let p := s.entryTable x
  let s1 := forEach ((p.layer x.m.layer).locals s.fab.device) s fun s l =>
    s.entryWrite x x.queueParts (64 + l.1 * p.queueBytes) (x.queueHead l.1 l.2)
  let s2 := s1.entryWrite x x.queueParts 0 x.openRecord
  (s2.modEntry x.m fun y => { y with ready := true }).entrySignal x x.readySync

/-- A report is counted, or refused as a block. -/
def State.takeReport (s : State) (r : LaneReport) : Option State :=
  ((s.entryFor r.m (some r.sub)).filter fun x => bit (s.entryTable x).mask r.source && decide (r.lane < 16)).map fun x =>
    let p := s.entryTable x
    let s1 := s.modEntry r.m fun y => { y with reports := tabSet y.reports (r.source * 16 + r.lane) r.spill }
    match s1.entryOf r.m with
    | some y => if y.reports.length = 16 * p.members then s1.subStepReady y else s1
    | none => s1

/-- A returned row is written to the combine area, or refused as a block. -/
def State.takeReturn (s : State) (r : ReturnRow) : Option State :=
  (s.entryFor r.m none).bind fun x =>
    let row := bits r.handle 0 32
    if row < x.homeRows ∧ !x.combineParts.isEmpty ∧ r.bytes.length = x.outRowBytes ∧ r.handle / 2 ^ 58 = s.fab.device then
      let s1 := s.entryWrite x x.combineParts ((row * 16 + bits r.handle 48 4) * x.outRowBytes) r.bytes
      some (s1.entrySignal x x.returnSync)
    else none

/-- An item of another member is applied or blocked, and answered. -/
def State.takeItem (s : State) (source tag expert : Nat) (m : SeMatch) (r : Option State) : State :=
  if s.pp.state != .service then s
  else match r with
    | some s1 => s1.send source 5 (.scatterAck tag (kvNo ST_OK 0))
    | none => (s.seBlock m expert).send source 5 (.scatterAck tag (kvNo ST_ISOLATION (seDetail expert s.fab.device)))

/-- SLOT_WRITE_RECEIVE. -/
def execSlotWriteReceive (w : SlotWrite) (s : State) : Out := .next (s.takeItem w.source w.tag w.expert w.m (s.takeSlot w))

/-- REPORT_RECEIVE. -/
def execReportReceive (r : LaneReport) (s : State) : Out := .next (s.takeItem r.source r.tag 0 r.m (s.takeReport r))

/-- RETURN_ROW_RECEIVE. -/
def execReturnRowReceive (r : ReturnRow) (s : State) : Out := .next (s.takeItem r.source r.tag r.expert r.m (s.takeReturn r))

end Sys2Proof.Machine
end

