-- ==== Sys2Proof/Machine/Scatter.lean ====
section
/-! DEFINITION. The Scatter Engine's descriptors: QUEUE_OPEN, SCATTER, QUEUE_RELEASE and RETURN, and its side table (R414, R420–R431). -/

namespace Sys2Proof.Machine

/-! ## The side table (R414) -/

/-- Entries of a side table. -/
def sideEntries : Nat := 4

/-- A descriptor that must wait leaves the head of the queue for the side table, if there is room. -/
def State.toSide (s : State) (e : Eng) (d : QDesc) : State :=
  s.setEngine e.die e.idx fun x => if x.side.length < sideEntries then { x with queue := x.queue.erase d, side := x.side ++ [d] } else x

/-- The first descriptor of the side table that may go on comes to the head of the queue, when nothing is in hand. -/
def State.wakeSide (s : State) (e : Eng) (ready : QDesc → Bool) : State :=
  let x := s.engine e.die e.idx
  if x.inHand.isSome then s
  else match x.side.find? ready with
    | none => s
    | some d => s.setEngine e.die e.idx fun x => { x with side := x.side.erase d, queue := d :: x.queue }

/-- The formats of the Scatter Engine. -/
def seFormats : List Nat := [1, 2, 3, 4]

/-- A Scatter Engine's descriptor, when a command selects it; one of the side table whose wait has ended goes first. -/
def State.seOp (s : State) (die inst : Nat) (mine : QDesc → Bool) (ready : Eng → QDesc → State → Bool)
    (eff : Eng → QDesc → StepRec → State → EngRes) : Out :=
  let e : Eng := ⟨die, 12 + inst⟩
  .next (if inst < 2 then
      (if s.engineRuns e then s.wakeSide e (fun d => mine d && ready e d s) else s).engineSel e seFormats mine (eff e)
    else s)

/-! ## What a descriptor is matched by (R420) -/

/-- The table that a step's Scatter Engine descriptors use: its model's, when it places this member. -/
def State.seTable (s : State) (t : StepRec) : Option Placement :=
  (t.model.bind s.placement?).filter fun p => bit p.mask s.fab.device

/-- The match of a step's descriptor. -/
def seMatch (p : Placement) (t : StepRec) (key layer : Nat) : SeMatch := ⟨t.fn, t.ctag, key, layer, t.epochW, p.version⟩

/-- Whether every other member of the mask is adjacent (R488). -/
def State.maskReached (s : State) (p : Placement) : Bool := (bitList 64 p.mask).all s.reaches

/-- A descriptor of a step that may use the engine, with its table; a step without one is refused (R414, R424). -/
def withTable (s : State) (t : StepRec) (k : Placement → EngRes) : EngRes :=
  match s.seTable t with
  | none => .malformed
  | some p => k p

/-! ## QUEUE_OPEN (R420, R431) -/

/-- Open entries that a member holds. -/
def openEntries : Nat := 256

/-- The checks of R431. -/
def openOk (d : QDesc) (p : Placement) : Bool :=
  d.bytes.length == 128 && zeroAt d.bytes 0x38 72 && decide (d.field 0x2C 2 < p.layers.length ∧ d.field 0x2E 1 < 32 ∧ d.field 0x2F 1 < 32 ∧
    d.field 0x30 4 % 64 = 0)

/-- Whether a QUEUE_OPEN finds an entry for it. -/
def openReady (_e : Eng) (d : QDesc) (s : State) : Bool :=
  decide (s.wt.entries.length < openEntries) && (match s.step? d.queue d.step with
  | none => true
  | some t => match s.seTable t with
    | none => true
    | some p => (s.entryOf (seMatch p t (d.field 0x28 4) (d.field 0x2C 2))).isNone)

/-- QUEUE_OPEN. -/
def seOpen (e : Eng) (d : QDesc) (t : StepRec) (s : State) : EngRes :=
  withTable s t fun p =>
    let layer := d.field 0x2C 2
    let m := seMatch p t (d.field 0x28 4) layer
    let q := d.field 0x10 8
    let c := d.field 0x18 8
    let out := d.field 0x30 4
    let home := d.field 0x34 4
    if !openOk d p || !s.maskReached p then .malformed
    else if !openReady e d s then .stall (s.toSide e d)
    else withDests e t [(q, 64 + (p.layer layer).count s.fab.device * p.queueBytes), (c, if c = 0 then 0 else 16 * out * home),
        (d.field 0x20 8, 32 * (p.layer layer).experts.length)] s fun s1 ps =>
      let x : OpenEntry :=
        { m := m, core := d.core, agent := e.agent, bank := d.bank, queue := t.queue, step := t.index, model := t.model.getD 0
          queueParts := ps.getD 0 [], combineParts := ps.getD 1 [], counterParts := ps.getD 2 [], readySync := d.field 0x2E 1
          returnSync := d.field 0x2F 1, outRowBytes := out, homeRows := home, subStep := 0, ready := false, reports := [], fill := []
          counts := [] }
      .done (({ s1 with wt := { s1.wt with entries := s1.wt.entries ++ [x] } }).sendGrants m 0 p.mask)

/-- QUEUE_OPEN. -/
def execQueueOpen (die inst : Nat) (s : State) : Out := s.seOp die inst (fun d => d.format == 2) openReady seOpen

/-! ## SCATTER (R424–R427) -/

/-- A SCATTER descriptor. -/
structure ScatterDesc where
  scores : Nat
  rows : Nat
  route : Nat
  spillIn : Nat
  spillOut : Nat
  count : Nat
  base : Nat
  scorePitch : Nat
  rowPitch : Nat
  tau : Lane
  key : Nat
  layer : Nat
  sub : Nat
  fmt : Nat
  kMin : Nat
  kMax : Nat
  gate : Nat

/-- The fields of a descriptor. -/
def scatterDesc (d : QDesc) : ScatterDesc :=
  { scores := d.field 0x10 8, rows := d.field 0x18 8, route := d.field 0x20 8, spillIn := d.field 0x28 8, spillOut := d.field 0x30 8
    count := d.field 0x38 4, base := d.field 0x3C 4, scorePitch := d.field 0x40 4, rowPitch := d.field 0x44 4
    tau := BitVec.ofNat 32 (d.field 0x48 4), key := d.field 0x4C 4, layer := d.field 0x50 2, sub := d.field 0x52 2, fmt := d.field 0x54 1
    kMin := d.field 0x55 1, kMax := d.field 0x56 1, gate := d.field 0x57 1 }

/-- Scoring mode. -/
def ScatterDesc.scoring (x : ScatterDesc) : Bool := x.scores != 0

/-- Experts of a descriptor's layer. -/
def ScatterDesc.experts (x : ScatterDesc) (p : Placement) : List (List (Nat × Nat)) := (p.layer x.layer).experts

/-- The checks of R424. -/
def scatterOk (d : QDesc) (x : ScatterDesc) (p : Placement) : Bool :=
  let n := (x.experts p).length
  d.bytes.length == 128 && zeroAt d.bytes 0x58 40 &&
  decide (x.scores % 64 = 0 ∧ x.rows % 64 = 0 ∧ x.route % 64 = 0 ∧ x.spillIn % 64 = 0 ∧ x.spillOut % 64 = 0 ∧ x.layer < p.layers.length ∧
    x.scorePitch % 64 = 0 ∧ n * elemBytes x.fmt ≤ x.scorePitch ∧ x.rowPitch % 64 = 0 ∧ p.rowBytes ≤ x.rowPitch ∧ 1 ≤ x.kMin ∧
    x.kMin ≤ x.kMax ∧ x.kMax ≤ 16 ∧ x.kMax ≤ n ∧ x.gate ≤ 2) && (x.fmt == 0 || x.fmt == 5) && !laneNan x.tau && !laneInf x.tau false &&
  !laneInf x.tau true && (if x.scoring then decide (x.count ≤ 1024) && x.spillIn == 0 && x.sub == 0
    else x.route == 0 && x.count == 0 && decide (1 ≤ x.sub))

/-- A choice to be placed: the index of its row, its expert, choice index, gate, handle, and whether it is a first try. -/
structure Choice where
  row : Nat
  expert : Nat
  choice : Nat
  gate : Lane
  handle : Nat

/-- The choices of routed rows. -/
def routedChoices (home base : Nat) (rs : List Routed) : List Choice :=
  (numbered rs).flatMap fun r => (numbered r.2.chosen).map fun c => ⟨r.1, c.2.1, c.1, c.2.2, tokenHandle home c.1 (base + r.1)⟩

/-- A route record (R426). -/
def routeRecord (r : Routed) : List Byte :=
  let k := r.chosen.length
  leBytes 1 r.status ++ leBytes 1 k ++ zeros 6 ++ (r.chosen.flatMap fun c => leBytes 2 c.1) ++ (List.replicate (2 * (16 - k)) 0xFF)
    ++ (r.chosen.flatMap fun c => leBytes 4 c.2.toNat) ++ zeros (4 * (16 - k)) ++ zeros 24

/-- An entry of a spill list (R427). -/
def spillEntry (c : Choice) : List Byte :=
  leBytes 4 c.row ++ leBytes 2 c.expert ++ leBytes 1 c.choice ++ zeros 1 ++ leBytes 4 c.gate.toNat ++ zeros 4 ++ leBytes 8 c.handle ++ zeros 8

/-- A spill list. -/
def spillList (cs : List Choice) : List Byte := leBytes 4 cs.length ++ zeros 60 ++ cs.flatMap spillEntry

/-- The choice of a spill entry. -/
def spillChoice (b : List Byte) : Choice := ⟨fieldAt b 0 4, fieldAt b 4 2, fieldAt b 6 1, BitVec.ofNat 32 (fieldAt b 8 4), fieldAt b 16 8⟩

/-- The key under which a lane's used slots of a replica are counted. -/
def usedKey (lane : Nat) (r : Nat × Nat) : Nat := lane * 2 ^ 20 + r.1 * 2 ^ 13 + r.2

/-- What placing has come to: the state, slot writes for other members, choices that found no slot, and whether one was blocked here. -/
structure Placing where
  s : State
  out : List (Nat × SlotWrite)
  spill : List Choice
  blocked : Option Nat

/-- One choice placed at the first replica at which its lane still holds a slot (R419, R422). -/
def Placing.place (a : Placing) (e : Eng) (p : Placement) (m : SeMatch) (x : ScatterDesc) (c : Choice) (row : List Byte) : Placing :=
  let dev := a.s.fab.device
  let lane := e.lane
  let (first, share) := p.share dev lane
  let used := ((a.s.grantOf m x.sub).map (·.used)).getD []
  let s0 := if x.scoring then a.s.modEntry m fun y => y.count c.expert fun k => { k with sent := k.sent + 1 } else a.s
  match (replicaOrder dev c.expert ((x.experts p).getD c.expert [])).find? fun r => tabGet 0 used (usedKey lane r) < share with
  | none => { a with s := s0.modEntry m (fun y => y.count c.expert fun k => { k with spilled := k.spilled + 1 }), spill := a.spill ++ [c] }
  | some r =>
    let k := tabGet 0 used (usedKey lane r)
    let s1 := s0.modGrant m x.sub fun g => { g with used := tabSet g.used (usedKey lane r) (k + 1) }
    let w : SlotWrite := ⟨m, dev, lane, x.sub, r.2, first + k, c.expert, row ++ slotTail c.handle c.gate c.expert c.choice, a.s.itemTag e a.out.length⟩
    if r.1 = dev then
      match s1.takeSlot w with
      | some s2 => { a with s := s2 }
      | none => { a with s := s1.seBlock m c.expert, blocked := some (seDetail c.expert dev) }
    else { a with s := s1, out := a.out ++ [(r.1, w)] }

/-- Choices placed in order, up to the first that is blocked here. -/
def placeAll (e : Eng) (p : Placement) (m : SeMatch) (x : ScatterDesc) : List (Choice × List Byte) → Placing → Placing
  | [], a => a
  | (c, row) :: r, a => if a.blocked.isSome then a else placeAll e p m x r (a.place e p m x c row)

/-- The step of a descriptor ends for a block, here or on another member. -/
def State.seBlocked (s : State) (e : Eng) (t : StepRec) (detail : Nat) : EngRes :=
  .stall (s.takeBlocked t.fn t.ctag t.queue t.index e.agentKind e.agent detail)

/-- The rows under which a report's acknowledgements are awaited. -/
def reportRow : Nat := 0x8000

/-- A lane's use of a grant set ends; the set is freed after its last lane. -/
def State.laneDone (s : State) (m : SeMatch) (sub lane : Nat) : State :=
  let s1 := s.modGrant m sub fun g => { g with lanes := setBit g.lanes lane }
  { s1 with wt := { s1.wt with grants := s1.wt.grants.filter fun g => !(g.m == m && g.subStep == sub && g.lanes == 0xFFFF) } }

/-- The report of a lane goes to every member of the mask. -/
def scatterReport (e : Eng) (d : QDesc) (t : StepRec) (p : Placement) (m : SeMatch) (sub spill : Nat) (s : State) : EngRes :=
  let far := (bitList 64 p.mask).filter (· != s.fab.device)
  let s1 := s.settleWrites.laneDone m sub e.lane
  let rep (tag : Nat) : LaneReport := ⟨m, s.fab.device, e.lane, sub, spill, tag⟩
  let s2 := forEach far s1 fun s dst => s.send dst 5 (.laneReport (rep (s.itemTag e (reportRow + dst))))
  match s2.takeReport (rep 0) with
  | none => (s2.seBlock m 0).seBlocked e t (seDetail 0 s.fab.device)
  | some s3 => if far.isEmpty then .done s3 else .stall (s3.takeHand e d (far.map (reportRow + ·)))

/-- The items of a descriptor in hand: waiting, blocked, or all acknowledged. -/
def withAcks (e : Eng) (t : StepRec) (items : List RemoteItem) (s : State) (k : State → EngRes) : EngRes :=
  match items.findSome? fun i => i.answer.filter fun a => a.status != ST_OK with
  | some a => s.seBlocked e t a.detail
  | none => if items.any fun i => i.answer.isNone then .stall s else k s

/-- The choices that a SCATTER places, with its routed rows, read from scores or from a spill list. -/
def scatterChoices (e : Eng) (t : StepRec) (x : ScatterDesc) (p : Placement) (s : State) (k : State → List Routed → List Choice → EngRes) : EngRes :=
  if x.scoring then
    withReads e t (rowsAt x.scores x.scorePitch x.count ((x.experts p).length * elemBytes x.fmt)) s fun s1 bs =>
      let rs := bs.map fun b => routeRow (rsuFns (s1.bank t.libBank) false) ((elemsOf x.fmt b).map (widen x.fmt)) x.tau x.kMin x.kMax x.gate
      k s1 rs (routedChoices s1.fab.device x.base rs)
  else withRead s e t x.spillIn 64 fun s1 h =>
    withRead s1 e t (x.spillIn + 64) (32 * fieldAt h 0 4) fun s2 b => k s2 [] ((chunks 32 (fieldAt h 0 4) b).map spillChoice)

/-- Whether grants of a SCATTER's match and sub-step have come from every member. -/
def State.granted (s : State) (p : Placement) (m : SeMatch) (sub : Nat) : Bool := (s.grantOf m sub).any fun g => maskWithin p.mask g.mask

/-- Whether a SCATTER may leave the side table. -/
def scatterReady (_e : Eng) (d : QDesc) (s : State) : Bool :=
  match s.step? d.queue d.step with
  | none => true
  | some t => match s.seTable t with
    | none => true
    | some p => s.granted p (seMatch p t (scatterDesc d).key (scatterDesc d).layer) (scatterDesc d).sub

/-- A SCATTER places its choices: slot writes go out, the spill list and route records are written. -/
def scatterGo (e : Eng) (d : QDesc) (t : StepRec) (x : ScatterDesc) (p : Placement) (m : SeMatch) (s : State) : EngRes :=
  scatterChoices e t x p s fun s1 rs cs =>
    withReads e t (cs.map fun c => (x.rows + c.row * x.rowPitch, p.rowBytes)) s1 fun s2 rows =>
      withDests e t [(x.route, if x.scoring then 128 * x.count else 0),
          (x.spillOut, 64 + 32 * (if x.scoring then x.kMax * x.count else cs.length))] s2 fun s3 ps =>
        let a := placeAll e p m x (cs.zip rows) ⟨s3, [], [], none⟩
        match a.blocked with
        | some det => a.s.seBlocked e t det
        | none =>
          let s4 := forEach a.out a.s fun s w => s.send w.1 5 (.slotWrite w.2)
          let s5 := s4.engWrites e t ps [rs.flatMap routeRecord, spillList a.spill]
          if a.out.isEmpty then scatterReport e d t p m x.sub a.spill.length s5
          else .stall ((s5.takeHand e d (List.range a.out.length)).setEngine e.die e.idx fun y => { y with spill := a.spill.length })

/-- SCATTER. -/
def seScatter (e : Eng) (d : QDesc) (t : StepRec) (s : State) : EngRes :=
  withTable s t fun p =>
    let x := scatterDesc d
    let m := seMatch p t x.key x.layer
    match s.itemsOf e d with
    | i :: r => withAcks e t (i :: r) s fun s1 =>
        if reportRow ≤ i.row then .done s1 else scatterReport e d t p m x.sub (s1.engine e.die e.idx).spill s1
    | [] =>
      if !scatterOk d x p || !s.maskReached p then .malformed
      else if !s.granted p m x.sub then .stall (s.toSide e d)
      else scatterGo e d t x p m s

/-- SCATTER. -/
def execScatter (die inst : Nat) (s : State) : Out := s.seOp die inst (fun d => d.format == 1) scatterReady seScatter

/-! ## QUEUE_RELEASE (R428, R431) -/

/-- Nothing of a release waits in the side table. -/
def neverWaits (_e : Eng) (_d : QDesc) (_s : State) : Bool := false

/-- A counter record. -/
def counterRecord (x : OpenEntry) (expert : Nat) : List Byte :=
  let c := tabGet freshCount x.counts expert
  leBytes 4 c.sent ++ leBytes 4 c.spilled ++ leBytes 4 c.received ++ leBytes 2 (x.subStep + 1) ++ zeros 2 ++ leBytes 8 c.bytes ++ zeros 8

/-- QUEUE_RELEASE. -/
def seRelease (_e : Eng) (d : QDesc) (t : StepRec) (s : State) : EngRes :=
  withTable s t fun p =>
    let action := d.field 0x16 1
    match (s.entryOf (seMatch p t (d.field 0x10 4) (d.field 0x14 2))).filter fun x => x.queue == t.queue && x.step == t.index with
    | none => .malformed
    | some x =>
      if d.bytes.length ≠ 64 ∨ zeroAt d.bytes 0x17 41 = false ∨ !x.ready then .malformed
      else if action = 1 ∧ 0 < x.spillTotal then
        .done ((s.modEntry x.m fun y => { y with fill := [], subStep := y.subStep + 1, ready := false, reports := [] }).sendGrants x.m
          (x.subStep + 1) p.mask)
      else if action = 2 ∧ x.spillTotal = 0 then
        let recs := (List.range (p.layer x.m.layer).experts.length).flatMap (counterRecord x)
        let s1 := s.entryWrite x x.counterParts 0 recs
        .done { s1 with wt := { s1.wt with entries := s1.wt.entries.filter fun y => y.m != x.m } }
      else .malformed

/-- QUEUE_RELEASE, action 1; it also meets a release of no action. -/
def execQueueReleaseNext (die inst : Nat) (s : State) : Out :=
  s.seOp die inst (fun d => d.format == 3 && d.field 0x16 1 != 2) neverWaits seRelease

/-- QUEUE_RELEASE, action 2. -/
def execQueueReleaseClose (die inst : Nat) (s : State) : Out :=
  s.seOp die inst (fun d => d.format == 3 && d.field 0x16 1 == 2) neverWaits seRelease

/-! ## RETURN (R430) -/

/-- Rows of this member's own homes written; the detail of the first block. -/
def returnHere (m : SeMatch) (dev : Nat) : List (Nat × List Byte) → State → State × Option Nat
  | [], s => (s, none)
  | (h, b) :: r, s =>
    if h / 2 ^ 58 % 64 ≠ dev then returnHere m dev r s
    else match s.takeReturn ⟨m, dev, 0, h, b, 0⟩ with
      | some s1 => returnHere m dev r s1
      | none => (s.seBlock m 0, some (seDetail 0 dev))

/-- RETURN. -/
def seReturn (e : Eng) (d : QDesc) (t : StepRec) (s : State) : EngRes :=
  withTable s t fun p =>
    match s.itemsOf e d with
    | i :: r => withAcks e t (i :: r) s .done
    | [] =>
      let count := d.field 0x20 4
      let m := seMatch p t (d.field 0x2C 4) (d.field 0x30 2)
      if d.bytes.length ≠ 64 ∨ zeroAt d.bytes 0x32 14 = false ∨ count < 1 ∨ 65536 < count ∨ d.field 0x28 4 % 8 ≠ 0 ∨
          p.layers.length ≤ d.field 0x30 2 ∨ !s.maskReached p then .malformed
      else match s.entryOf m with
        | none => .malformed
        | some x => withReads e t (rowsAt (d.field 0x18 8) (d.field 0x28 4) count 8) s fun s1 hs =>
          withReads e t (rowsAt (d.field 0x10 8) (d.field 0x24 4) count x.outRowBytes) s1 fun s2 rows =>
            let dev := s2.fab.device
            let items := (hs.map leNat).zip rows
            let far := (numbered items).filter fun i => i.2.1 / 2 ^ 58 % 64 != dev
            match far.find? fun i => !bit p.mask (i.2.1 / 2 ^ 58 % 64) with
            | some i => (s2.seBlock m 0).seBlocked e t (seDetail 0 (i.2.1 / 2 ^ 58))
            | none => match returnHere m dev items s2 with
              | (s3, some det) => s3.seBlocked e t det
              | (s3, none) =>
                let s4 := forEach far s3 fun s i =>
                  s.send (i.2.1 / 2 ^ 58 % 64) 5 (.returnRow ⟨m, dev, 0, i.2.1, i.2.2, s.itemTag e i.1⟩)
                if far.isEmpty then .done s4 else .stall (s4.takeHand e d (far.map (·.1)))

/-- RETURN. -/
def execReturnRows (die inst : Nat) (s : State) : Out := s.seOp die inst (fun d => d.format == 4) neverWaits seReturn

end Sys2Proof.Machine
end

