-- ==== Sys2Proof/Machine/Plan.lean ====
section
/-! DEFINITION. Links and their identities, ports, circuit plans, pod states and pod time (R468–R471, R479–R491, R497–R500). -/

namespace Sys2Proof.Machine

/-! ## RLY.MEMBERS and routes (R205, R487, R489) -/

/-- Time in ns of the bounds on heartbeats, routes and time responses. -/
def podPatience : Nat := 1000000

/-- The bit of a member clears: at the head pending relay entries are discarded and counted with a record, its credits are free again,
and its mirror is to be refreshed before the bit sets again (R205). -/
def State.loseMember (s : State) (m : Nat) : State :=
  if !bit s.fab.members m then s
  else
    let mine := (s.dq.relay.filter fun r => r.member == m).length
    let s1 := { s with
      fab := { s.fab with members := clearBit s.fab.members m, unrefreshed := if s.isHead then setBit s.fab.unrefreshed m else s.fab.unrefreshed }
      dq := { s.dq with
        relay := s.dq.relay.filter fun r => r.member != m, switches := s.dq.switches.filter fun w => w.member != m
        discarded := (s.dq.discarded + mine) % 2 ^ 32, inFlight := tabDel s.dq.inFlight m
        relaySent := tabDel s.dq.relaySent m, relayAcked := tabDel s.dq.relayAcked m } }
    (if s.isHead then s1.cometF0 6 0 m 0 else s1).unreachForwards m

/-- The bit of a member sets: the head sends it the pod state. -/
def State.gainMember (s : State) (m : Nat) : State :=
  if bit s.fab.members m then s
  else
    let s1 := { s with fab := { s.fab with members := setBit s.fab.members m } }
    if s1.isHead then s1.send m 3 (.podState s1.fab.podState) else s1

/-- The head asks a member that it had lost for its mirror; any other's bit sets (R205, R489). -/
def State.admitMember (s : State) (m : Nat) : State :=
  if bit s.fab.members m then s
  else if bit s.fab.unrefreshed m then s.send m 0 .mirrorAsk
  else s.gainMember m

/-- Whether the head has had a heartbeat of a member within the last 1 ms (R489). -/
def State.beatFresh (s : State) (m : Nat) : Bool := (tabGet? s.fab.beats m).any fun t => decide (s.aon.clock - t < podPatience)

/-- A member's whole mirror has been refreshed: its bit sets while its route and its heartbeat last (R205, R489). -/
def State.mirrorRefreshed (s : State) (m : Nat) : State :=
  if !s.isHead || !bit s.fab.unrefreshed m then s
  else
    let s1 := { s with fab := { s.fab with unrefreshed := clearBit s.fab.unrefreshed m } }
    if (s1.route m).isSome && s1.beatFresh m then s1.gainMember m else s1

/-- A member sends the head its whole mirror, and word that it has (R205; log entry 33). -/
def State.sendMirrors (s : State) : State :=
  if s.isHead then s
  else (forEach (s.dq.groups.map (·.1)) s State.mirrorGroup).send s.headDevice 3 .mirrorDone

/-- The members of the plan in force. -/
def State.planMembers (s : State) : List Nat := (s.fab.plan.toList.flatMap (·.members)).map (·.device)

/-- A link has entered or left the matched state: routes, and what hangs on them, are computed again. -/
def State.rerouted (s : State) : State :=
  let s1 := forEach (s.planMembers.filter (· != s.fab.device)) s fun s m =>
    match s.route m with
    | none => s.loseMember m
    | some _ => if !s.isHead then s.gainMember m else if s.beatFresh m then s.admitMember m else s
  let mark (h : Nat) (m : Stored) : Stored :=
    { m with noRouteSince := if (s1.routeWithin m.dest (3 - h)).isSome then none else some (m.noRouteSince.getD s1.aon.clock) }
  { s1 with fab := { s1.fab with store := s1.fab.store.map fun (e : Nat × List Stored) => (e.1, e.2.map (mark e.1)) } }.pump

/-! ## Links (R468–R471, R481) -/

/-- A link number. -/
def linkOk (l : Nat) : Bool := decide (l < 18)

/-- Whether a link has trained to the end of a stage. -/
def Link.trained (x : Link) : Bool :=
  match x.state with
  | .identified => true
  | .matched => true
  | .quarantined => true
  | .mgmtOnly => true
  | _ => false

/-- A flit kept for replay, as it was before it took its sequence number. -/
def txFlitOf (b : List Byte) : TxFlit :=
  let h := fieldAt b 0 8
  ⟨bits h 59 3, bits h 62 2 == 1, bit h 14, bits h 0 14, bytesAt b 8 (bits h 15 8)⟩

/-- A link leaves its port: its unacknowledged direct flits are sent also on the port's other links, with a record (R481). -/
def State.leavePort (s : State) (l : Nat) : State :=
  match s.portOf l with
  | none => s
  | some p =>
    let x := s.link l
    let direct (f : TxFlit) : Bool := decide (4 ≤ f.vc)
    let s1 := s.cometF7 7 (0x100 + p.1) [l]
    match (List.range 18).find? fun k => k != l && s.linkCarries p.2 k with
    | none => s1
    | some k =>
      let move := ((x.replay.map txFlitOf) ++ x.txq).filter direct
      let s2 := s1.setLink l fun y => { y with txq := y.txq.filter fun f => !direct f }
      State.pumpLink k (move.length + (s2.link k).txq.length) (s2.setLink k fun y => { y with txq := y.txq ++ move })

/-- A link takes a state; one that leaves the matched state leaves its port. -/
def State.linkTo (s : State) (l : Nat) (st : LinkState) : State :=
  let old := (s.link l).state
  if old == st then s
  else
    let s1 := s.setLink l fun x => { x with state := st }
    let s2 := if old == .matched then s1.leavePort l else s1
    if old == .matched || st == .matched then s2.rerouted else s2

/-- The plan's entry for a link of this member. -/
def State.plannedEntry (s : State) (p : Plan) (l : Nat) : Option (Nat × Nat) :=
  (p.members.find? fun r => r.serial == s.cfg.serial).bind fun r => (r.links[l]?).bind id

/-- Whether an identity record agrees with the plan: pod, device and link, or, while the plan is only staged and the neighbour has
none, the serial and link. -/
def State.agrees (s : State) (p : Plan) (l : Nat) (r : IdentRec) : Bool :=
  (s.plannedEntry p l).any fun e =>
    r.link == e.2 && (if s.fab.staged.isSome && r.podId == 0 then
      p.members.any fun m => m.device == e.1 && m.serial == r.serial
    else r.podId == p.podId && r.device == e.1)

/-- Effective minor of a link with a neighbour (R470). -/
def effMinorOf (r : IdentRec) : Nat := min protoMinor r.minor

/-- Whether a neighbour's versions allow more than management (R470). -/
def versionsAgree (r : IdentRec) : Bool := r.major == protoMajor && decide (protoLowest ≤ effMinorOf r ∧ r.lowest ≤ effMinorOf r)

/-- The state that a link's identity record gives it (R470, R471, R486). -/
def State.linkVerdict (s : State) (l : Nat) (r : IdentRec) : LinkState :=
  if !versionsAgree r then .mgmtOnly
  else match s.planNow with
    | none => .identified
    | some p => if s.agrees p l r then .matched else .quarantined

/-- A link's record is compared again: a quarantine or a fall to management only writes a record. -/
def State.judgeLink (s : State) (l : Nat) : State :=
  let x := s.link l
  match x.neighbour with
  | none => s
  | some r =>
    if x.stage < 3 ∨ x.retired then s
    else
      let st := s.linkVerdict l r
      if st == x.state then s
      else
        let s1 := s.linkTo l st
        let exp := ((s.planNow.bind fun p => s.plannedEntry p l).map fun e => e.1 * 32 + e.2).getD 0xFFFF
        match st with
        | .quarantined => s1.comet 0x07F5 1 l none [x.state.code, st.code, exp, r.podId, r.device * 32 + r.link]
        | .mgmtOnly => s1.cometF7 7 l [r.major, r.minor, r.lowest]
        | _ => s1

/-- Identity records go out on every trained link, as when a field of them changes (R469). -/
def State.sendIdentities (s : State) : State :=
  forEach ((List.range 18).filter fun l => (s.link l).trained) s fun s l => s.sendLink l 0 (.identity l)

/-- LINK_TRAINING_STAGE_END: electrical, alignment or identity training ends. -/
def execLinkTrainingStageEnd (link : Nat) (s : State) : Out :=
  .next (
    let x := s.link link
    let starts : Bool := x.state == .down || x.state == .training
    if !linkOk link || !starts || x.retired || s.pp.state == .off || s.pp.state == .standby then s
    else match x.stage with
      | 0 => s.setLink link fun x => { x with state := .training, stage := 1, attempts := max 1 x.attempts }
      | 1 => (s.setLink link fun x => { x with stage := 2 }).sendLink link 0 (.identity link)
      | _ =>
        if x.neighbour.isNone then s
        else
          let s1 := s.setLink link fun x => { x with stage := 3, attempts := 0, failedFrom := none, degraded := false, sameRetries := 0 }
          let s2 := s1.judgeLink link
          ((s2.sendLink link 0 (.creditAudit link)).sendPortWord link).pump)

/-- A training of a link begins again, with a record; after three attempts the link is failed. -/
def State.retrain (s : State) (l cause : Nat) : State :=
  let n := (s.link l).attempts
  let s1 := s.linkTo l (if 3 ≤ n then .failed else .training)
  let s2 := s1.setLink l fun x => { x with
    stage := 0, attempts := if 3 ≤ n then 0 else n + 1, neighbour := none, sameRetries := 0, degraded := false
    failedSince := if 3 ≤ n then s.aon.clock else x.failedSince
    failedFrom := if 3 ≤ n then some (x.failedFrom.getD s.aon.clock) else x.failedFrom }
  s2.cometF7 7 l [cause, n]

/-- LINK_RETRAIN: eight retransmissions of one flit (1), loss of FEC lock (2), loss of signal (3), or an attempt that has failed. -/
def execLinkRetrain (link cause : Nat) (s : State) : Out :=
  .next (
    let x := s.link link
    let may := if cause = 1 then decide (8 ≤ x.sameRetries) else true
    if linkOk link && may && (x.trained || x.state == .training) then
      s.retrain link cause
    else s)

/-- Time in ns between tries of a failed link, and after which a link that has failed throughout is retired. -/
def linkRetryTime : Nat := 60000000000

/-- 24 h in ns. -/
def linkFailTime : Nat := 86400000000000

/-- LINK_RETRY_TIMER: a failed link is tried again after 60 s; one failed for 24 h is retired (R468, R541). -/
def execLinkRetryTimer (link : Nat) (s : State) : Out :=
  .next (
    let x := s.link link
    if linkOk link && x.state == .failed && !x.retired && decide (linkRetryTime ≤ s.aon.clock - x.failedSince) then
      if x.failedFrom.any fun t => decide (linkFailTime ≤ s.aon.clock - t) then (if s.supervisorRuns then s.retire (.link link) 2 else s)
      else s.setLink link fun x => { x with state := .training, stage := 0, attempts := 1 }
    else s)

/-- IDENTITY_RECORD_RECEIVE. -/
def execIdentityRecordReceive (link : Nat) (r : IdentRec) (s : State) : Out :=
  .next (
    if linkOk link && decide (2 ≤ (s.link link).stage) then
      (s.setLink link fun x => { x with neighbour := some r, effMinor := effMinorOf r }).judgeLink link
    else s)

/-! ## Circuit plans (R483–R486) -/

/-- A link entry of a plan. -/
def planEntry (w : Nat) : Option (Nat × Nat) := if bit w 31 then some (bits w 24 6, bits w 16 5) else none

/-- Whether the reserved bits of a link entry are zero. -/
def planEntryOk (w : Nat) : Bool := !bit w 30 && bits w 21 3 == 0 && bits w 0 16 == 0

/-- The link words of a member record. -/
def planWords (b : List Byte) : List Nat := (chunks 4 18 (bytesAt b 0x10 72)).map leNat

/-- A member record. -/
def planMember (b : List Byte) : PlanMember :=
  { serial := fieldAt b 0 8, device := fieldAt b 8 1, rack := fieldAt b 9 1, rackPos := fieldAt b 10 1, links := (planWords b).map planEntry }

/-- Strictly ascending numbers. -/
def risingNumbers : List Nat → Bool
  | a :: b :: r => decide (a < b) && risingNumbers (b :: r)
  | _ => true

/-- Whether every planned entry of a member is mirrored by its neighbour's. -/
def mirrored (ms : List PlanMember) (m : PlanMember) : Bool :=
  ((List.range 18).zip m.links).all fun l => l.2.all fun x =>
    x.1 != m.device && ms.any fun k => k.device == x.1 && (decide (18 ≤ x.2) || (k.links[x.2]?).bind id == some (m.device, l.1))

/-- Whether every link entry of a plan names a link that exists (R18, R483). -/
def planLinksOk (b : List Byte) : Bool := (chunks 96 (fieldAt b 6 2) (b.drop 64)).all fun r => (planWords r).all fun w => decide (bits w 16 5 < 18)

/-- A plan from its bytes; none where it is malformed (R484). -/
def parsePlan (b : List Byte) : Option Plan :=
  let n := fieldAt b 6 2
  let recs := chunks 96 n (b.drop 64)
  let p : Plan := { head := fieldAt b 5 1, podId := fieldAt b 8 4, version := fieldAt b 12 4, mask := fieldAt b 16 8, members := recs.map planMember }
  if b.length = 64 + 96 * n ∧ 1 ≤ n ∧ n ≤ 64 ∧ fieldAt b 0 4 = 0x4E414C50 ∧ fieldAt b 4 1 = 1 ∧ p.head < 64 ∧ p.podId ≠ 0 ∧ p.version ≠ 0 ∧
      zeroAt b 0x18 40 = true ∧ recs.all (fun r => zeroAt r 11 5 && zeroAt r 0x58 8 && (planWords r).all planEntryOk) = true ∧
      risingNumbers (p.members.map (·.device)) = true ∧ p.members.map (·.device) = bitList 64 p.mask ∧ p.members.all (mirrored p.members) = true then
    some p
  else none

/-- Members within a number of planned circuits of a member. -/
def planReach (p : Plan) : Nat → List Nat → List Nat
  | 0, l => l
  | n + 1, l => planReach p n (dedup (l ++ (p.members.filter fun m => l.contains m.device).flatMap fun m => m.links.filterMap fun x => x.map (·.1)))

/-- The head's own checks of a plan (R484). -/
def State.headPlanOk (s : State) (p : Plan) : Bool :=
  (p.members.any fun m => m.device == p.head && m.serial == s.cfg.serial) && (dedup (p.members.map (·.serial))).length == p.members.length &&
  p.members.all fun m => p.members.all fun k => (planReach p 3 [m.device]).contains k.device

/-- This module's record in a plan. -/
def State.ownRecord (s : State) (p : Plan) : Option PlanMember := p.members.find? fun m => m.serial == s.cfg.serial

/-- A member's checks of a plan. -/
def State.memberPlanStatus (s : State) (p : Plan) : Nat :=
  if (s.ownRecord p).any fun m => m.rackPos != s.aon.rackPos then ST_RANGE
  else if !(s.fab.podState == 0 || s.fab.podState == 3) then ST_STATE
  else match s.fab.plan with
    | none => ST_OK
    | some q => if q.podId ≠ p.podId ∨ p.version ≤ q.version then ST_STATE else ST_OK

/-- The plan goes on over every link whose neighbour's serial it lists (R485). -/
def State.floodPlan (s : State) (p : Plan) (b : List Byte) : State :=
  let s1 := { s with fab := { s.fab with planBytes := b } }
  forEach ((List.range 18).filter fun l => (s1.link l).trained && (s1.link l).neighbour.any fun r => p.members.any fun m => m.serial == r.serial)
    s1 fun s l => s.sendLink l 0 (.plan l)

/-- Whether a member that commits a plan now will step its timebase (R498). -/
def State.willStep (s : State) : Bool := s.fab.podState == 0 && s.fab.ports.isEmpty

/-- A plan is staged and each link compared with it. -/
def State.stagePlan (s : State) (p : Plan) (offset : Int) : State :=
  forEach (List.range 18) { s with fab := { s.fab with staged := some p, offset := offset } } fun s l => s.judgeLink l

/-- The deferred PLAN_LOAD. -/
def State.planItem (s : State) : Option Deferred :=
  s.cx.deferred.find? fun d => match d.cmd with
    | .planLoad _ => true
    | _ => false

/-- Time in ns from a plan's dispatch in which every member is reached. -/
def planPatience : Nat := 10000000

/-- A PLAN_LOAD ends with a failure: nothing stays staged, and links are judged by the plan in force again. -/
def State.planFails (s : State) (status : Nat) : State :=
  let s1 := forEach (List.range 18) { s with fab := { s.fab with staged := none, reports := [] } } fun s l => s.judgeLink l
  match s1.planItem with
  | some d => s1.notice d status []
  | none => s1

/-- An offset rounded up to a multiple of 40 ns. -/
def up40 (v : Int) : Nat := ((v.toNat + 39) / 40) * 40

/-- An amount rounded to a multiple of 40 ns. -/
def round40 (v : Int) : Nat := ((v.toNat + 20) / 40) * 40

/-- D of R498: the largest offset of a member that steps, the head's counted as 0. -/
def State.podStep (s : State) : Nat := up40 ((s.fab.reports.filter (·.steps)).foldl (fun a r => max a r.offset) 0)

/-- Once every member has reported, each is ordered to commit, in ascending device order, and given the pod state. -/
def State.orderCommits (s : State) (p : Plan) : State :=
  if p.members.all fun m => s.fab.reports.any fun r => r.member == m.device then
    forEach (sortBy (·.member) (s.fab.reports.filter fun r => r.member != p.head)) s fun s r =>
      (s.send r.member 0 (.planOrder (if r.steps then round40 ((s.podStep : Int) - r.offset) else 0))).send r.member 3 (.podState s.fab.podState)
  else s

/-- A member's staging report reaches the head. -/
def State.takePlanReport (s : State) (r : PlanReport) (status : Nat) : State :=
  match s.fab.staged with
  | none => s
  | some p =>
    if s.planItem.isNone then s
    else if status ≠ ST_OK then s.planFails status
    else { s with fab := { s.fab with reports := s.fab.reports.filter (fun (x : PlanReport) => x.member != r.member) ++ [r] } }.orderCommits p

/-- PLAN_LOAD up to its acceptance. -/
def cmdPlanLoad (src : Hbuf) (s : State) : CmdRes := if src.addr % 64 = 0 then .accept s else .refuse ST_RANGE s

/-- The head has read the plan of its PLAN_LOAD: it is checked, dispatched and staged here. -/
def State.headPlan (s : State) (b : List Byte) : State :=
  match parsePlan b with
  | none => s.planFails ST_MALFORMED
  | some p =>
    if !planLinksOk b || !s.headPlanOk p then s.planFails ST_RANGE
    else if s.memberPlanStatus p ≠ ST_OK then s.planFails (s.memberPlanStatus p)
    else
      let s1 := ({ s with fab := { s.fab with reports := [], committed := 0, dispatchedAt := s.aon.clock } }).floodPlan p b
      (s1.stagePlan p 0).takePlanReport ⟨p.head, 0, s.willStep⟩ ST_OK

/-- A member has received the plan: it goes on, is checked and staged, and the member reports to the head. -/
def State.memberPlan (s : State) (b : List Byte) (offset : Int) : State :=
  match parsePlan b with
  | none => s
  | some p => match s.ownRecord p with
    | none => s
    | some m =>
      if (s.fab.staged = some p ∧ s.aon.clock - s.fab.dispatchedAt < planPatience) ∨ s.fab.plan = some p then s
      else
        let s1 := { s with fab := { s.fab with dispatchedAt := s.aon.clock } }.floodPlan p b
        let st := s1.memberPlanStatus p
        let s2 := if st = ST_OK then s1.stagePlan p offset else s1
        s2.send p.head 0 (.planReport m.device st offset s.willStep)

/-- PLAN_RECEIVE. -/
def execPlanReceive (data : HostData) (headOffset : Int) (s : State) : Out :=
  .next (
    match s.planItem, (if s.planItem.isSome then s.bufferData 0 data else data) with
    | some d, .ok b => (match d.cmd with
      | .planLoad src => if b.length ≠ src.length ∨ !s.supervisorRuns ∨ s.fab.staged.isSome then s else s.headPlan b
      | _ => s)
    | some _, _ => if s.supervisorRuns && s.fab.staged.isNone then s.planFails ST_HOSTIO else s
    | none, .ok b => if s.supervisorRuns then s.memberPlan b headOffset else s
    | none, _ => s)

/-- What is still to be slewed for an offset from pod time. -/
def slewFor (offset : Int) : Int := if offset.natAbs ≤ 20 then 0 else (if offset < 0 then -(round40 (-offset) : Int) else round40 offset)

/-- A member commits the plan staged: its number, its routes and its timebase. -/
def State.commitPlan (s : State) (p : Plan) (m : PlanMember) (shift : Nat) : State :=
  let steps := s.willStep
  let s0 := forEach ((bitList 64 s.fab.members).filter fun k => k != s.fab.device && !bit p.mask k) s State.loseMember
  let kept := if s.fab.device = m.device then s0.fab.members else clearBit s0.fab.members s.fab.device
  let s1 := { s0 with fab := { s0.fab with
    plan := some p, staged := none, device := m.device, members := setBit kept m.device, locked := true, lastTime := s.aon.clock
    offset := if steps then 0 else -s.fab.offset } }
  let s2 :=
    if steps then { s1 with aon := { s1.aon with timebase := (s1.aon.timebase + shift) % 2 ^ 64, slewLeft := 0 } }
    else { s1 with
      aon := { s1.aon with slewLeft := slewFor s1.fab.offset }
      fab := { s1.fab with slewing := slewFor s1.fab.offset != 0, locked := decide (s1.fab.offset.natAbs ≤ 50) } }.cometF5 7 0 0
        (ofSigned 32 s1.fab.offset) 0
  s2.sendIdentities.rerouted

/-- PLAN_COMMIT: at the head once every member has reported, at a member at the head's order. -/
def execPlanCommit (shift : Nat) (s : State) : Out :=
  .next (
    match s.fab.staged with
    | none => s
    | some p => match s.ownRecord p with
      | none => s
      | some m =>
        if !s.supervisorRuns then s
        else if m.device = p.head then
          if s.planItem.isSome && p.members.all fun k => s.fab.reports.any fun r => r.member == k.device then
            let s1 := s.commitPlan p m (s.podStep)
            { s1 with fab := { s1.fab with committed := setBit s1.fab.committed m.device } }
          else s
        else (s.commitPlan p m (shift / 40 * 40)).send p.head 0 (.planDone m.device))

/-- PLAN_LOAD_COMPLETE: every member has committed, or one has not been reached within 10 ms of the dispatch. -/
def execPlanLoadComplete (item : Nat) (s : State) : Out :=
  .next (
    match s.item item with
    | none => s
    | some d => match d.cmd with
      | .planLoad _ =>
        if !s.supervisorRuns then s
        else match s.fab.staged, s.fab.plan with
          | none, some p =>
            let done := { s with fab := { s.fab with committed := 0 } }
            if s.fab.committed = p.mask then done.notice d ST_OK []
            else if s.fab.committed ≠ 0 ∧ planPatience ≤ s.aon.clock - s.fab.dispatchedAt then done.notice d ST_UNREACHED [] else s
          | some _, _ => if planPatience ≤ s.aon.clock - s.fab.dispatchedAt then s.planFails ST_UNREACHED else s
          | none, none => s
      | _ => s)

/-- PLAN_LOAD. -/
def execPlanLoad (h : CmdHdr) (source : Hbuf) (s : State) : Out := .next (s.command h (.planLoad source) (cmdPlanLoad source))

/-! ## Logical ports (R479) -/

/-- The neighbours that a plan gives some links. -/
def State.portNeighbours (s : State) (p : Plan) (mask : Nat) : List Nat :=
  dedup ((bitList 18 mask).map fun l => ((s.plannedEntry p l).map (·.1)).getD 64)

/-- PORT_DEFINE. -/
def cmdPortDefine (port mask : Nat) (s : State) : CmdRes :=
  match s.fab.plan with
  | none => .refuse ST_STATE s
  | some p =>
    let ns := s.portNeighbours p mask
    if 18 ≤ port ∨ mask = 0 ∨ (bitList 18 mask).any (fun l => (s.link l).state != .matched) ∨ ns.length ≠ 1 then .refuse ST_RANGE s
    else if (tabGet? s.fab.ports port).isSome ∨ (bitList 18 mask).any (fun l => (s.portOf l).isSome) then .refuse ST_BUSY s
    else
      let d : PortDef := { mask := mask, neighbour := ns.headD 0, removing := false, txPortSeq := [], rxPortSeq := [], turn := 17, parts := [] }
      .ok [] (forEach (bitList 18 mask) { s with fab := { s.fab with ports := tabSet s.fab.ports port d } } State.sendPortWord).pump

/-- Whether every flit sent on a port's links in a direct class has been acknowledged. -/
def State.portQuiet (s : State) (p : PortDef) : Bool :=
  (bitList 18 p.mask).all fun l => !((s.link l).replay.any fun b => decide (4 ≤ (txFlitOf b).vc)) && !((s.link l).txq.any fun f => decide (4 ≤ f.vc))

/-- Ports being removed whose flits have all been acknowledged are gone. -/
def State.finishRemovals (s : State) : State :=
  { s with fab := { s.fab with ports := s.fab.ports.filter fun p => !(p.2.removing && s.portQuiet p.2) } }

/-- PORT_REMOVE. -/
def cmdPortRemove (port : Nat) (s : State) : CmdRes :=
  match tabGet? s.fab.ports port with
  | none => .refuse ST_ABSENT s
  | some p => .ok [] (forEach (bitList 18 p.mask) { s with fab := { s.fab with ports := tabSet s.fab.ports port { p with removing := true } } }
      State.sendPortWord).finishRemovals

/-- PORT_DEFINE. -/
def execPortDefine (h : CmdHdr) (port linkMask : Nat) (s : State) : Out :=
  .next (s.command h (.portDefine port linkMask) (cmdPortDefine port linkMask))

/-- PORT_REMOVE. -/
def execPortRemove (h : CmdHdr) (port : Nat) (s : State) : Out := .next (s.command h (.portRemove port) (cmdPortRemove port))

/-! ## Pod states (R490) -/

/-- Whether every member of the plan is in RLY.MEMBERS. -/
def State.allMembers (s : State) : Bool := (s.fab.plan.map (·.mask)).all fun m => maskWithin m s.fab.members

/-- Whether a change of pod state is tabled and accepted. -/
def State.podChangeOk (s : State) (to_ : Nat) : Bool :=
  match s.fab.podState, to_ with
  | 0, 1 => s.allMembers
  | 0, 2 => s.allMembers
  | 1, 2 => s.allMembers
  | 2, 1 => s.allMembers
  | 3, 1 => s.fab.plan.isSome && s.allMembers
  | 3, 2 => s.fab.plan.isSome && s.allMembers
  | f, 3 => decide (f < 3)
  | _, _ => false

/-- POD_STATE_SET. -/
def cmdPodStateSet (st : Nat) (s : State) : CmdRes :=
  if st = s.fab.podState then .ok [] s
  else if !s.podChangeOk st then .refuse ST_STATE s
  else
    let s1 := { s with fab := { s.fab with podState := st } }
    .ok [] (forEach s1.otherMembers s1 fun s m => s.send m 3 (.podState st))

/-- POD_STATE_SET. -/
def execPodStateSet (h : CmdHdr) (podState : Nat) (s : State) : Out := .next (s.command h (.podStateSet podState) (cmdPodStateSet podState))

/-- POD_STATE_RECEIVE. -/
def execPodStateReceive (podState : Nat) (s : State) : Out :=
  .next (if podState < 4 ∧ !s.isHead then { s with fab := { s.fab with podState := podState } } else s)

/-! ## Heartbeats (R489) -/

/-- Whether the fabric runs: the module is in SERVICE, DRAIN or RETAIN. -/
def State.fabricRuns (s : State) : Bool := s.pp.state == .service || s.pp.state == .drain || s.pp.state == .retain

/-- HEARTBEAT_SEND. -/
def execHeartbeatSend (s : State) : Out :=
  .next (if s.fab.plan.isSome && !s.isHead && s.fabricRuns then s.send s.headDevice 0 .heartbeat else s)

/-- HEARTBEAT_RECEIVE. -/
def execHeartbeatReceive (member podId : Nat) (s : State) : Out :=
  .next (
    match s.fab.plan with
    | none => s
    | some p =>
      if s.isHead && bit p.mask member && podId == p.podId && member != s.fab.device then
        let s1 := { s with fab := { s.fab with beats := tabSet s.fab.beats member s.aon.clock } }
        if (s1.route member).isSome then s1.admitMember member else s1
      else s)

/-- MEMBER_HEARTBEAT_TIMEOUT. -/
def execMemberHeartbeatTimeout (member : Nat) (s : State) : Out :=
  .next (
    if s.isHead && member != s.fab.device && bit s.fab.members member &&
        ((s.route member).isNone || decide (podPatience ≤ s.aon.clock - tabGet 0 s.fab.beats member)) then s.loseMember member
    else s)

/-! ## Pod time (R497–R500) -/

/-- A member's time parent: the first hop of its route to the head. -/
def State.timeParent (s : State) : Option Nat := if s.fab.plan.isNone || s.isHead then none else (s.route s.headDevice).map (·.2)

/-- TIME_REQUEST_SEND. -/
def execTimeRequestSend (t1 : Nat) (s : State) : Out :=
  .next (match s.timeParent with
    | some p => if s.fabricRuns then s.send p 1 (.timeRequest t1) else s
    | none => s)

/-- TIME_REQUEST_RECEIVE: the response carries the stamps and this member's own offset. -/
def execTimeRequestReceive (member t1 t2 t3 : Nat) (s : State) : Out :=
  .next (if s.fab.plan.isSome && s.fabricRuns && decide (member < 64) then s.send member 1 (.timeResponse t1 t2 t3 s.fab.offset) else s)

/-- TIME_RESPONSE_RECEIVE. -/
def execTimeResponseReceive (t1 t2 t3 t4 : Nat) (parentOffset : Int) (s : State) : Out :=
  .next (
    if s.timeParent.isNone then s
    else
      let offset := (((t2 : Int) - t1) - ((t4 : Int) - t3)) / 2 + parentOffset
      { s with
        fab := { s.fab with
          offset := offset, locked := decide (offset.natAbs ≤ 50), lastTime := s.aon.clock, slewing := slewFor offset != 0 }
        aon := { s.aon with slewLeft := slewFor offset } })

/-- TIME_RESPONSE_TIMEOUT. -/
def execTimeResponseTimeout (s : State) : Out :=
  .next (
    if s.fab.plan.isSome && !s.isHead && decide (podPatience ≤ s.aon.clock - s.fab.lastTime) then
      { s with fab := { s.fab with locked := false, slewing := false }, aon := { s.aon with slewLeft := 0 } }
    else s)

end Sys2Proof.Machine
end

