-- ==== Sys2Proof/Machine/Reliability.lean ====
section
/-! DEFINITION. The Comet log, errors and their counts, the retirement of units, books and audits, fatal errors and the dump region
(R540–R556, R565–R567). -/

namespace Sys2Proof.Machine

/-! ## The Comet log (R549, R550, R169) -/

/-- The record of records lost at a full intake. -/
def State.lossRecord (s : State) : CometRec :=
  { time := s.aon.timebase, boot := s.aon.boot, code := 0x0001, severity := 2, device := s.fab.device, source := s.aon.lead, ctag := 0
    number := 0, payload := [s.aon.intakeLost % 2 ^ 32, s.aon.intakeLostCode] }

/-- COMET_RECORD_WRITE: the leading Keeper numbers the oldest record of its intake and writes it to the ring and to the following share;
room in the intake admits the record of what was lost. When it is severe enough, the PF's vector 3 is raised (R125), or in STANDBY the BMC is
sent it. -/
def execCometRecordWrite (s : State) : Out :=
  .next (
    match s.pp.aonPowered, s.aon.intake with
    | true, r :: rest =>
      let rec_ : CometRec := { r with number := s.aon.logCount % 2 ^ 32 }
      let lost := decide (0 < s.aon.intakeLost)
      let s1 : State := { s with aon := { s.aon with
        logCount := (s.aon.logCount + 1) % 2 ^ 64
        ring := (rec_ :: s.aon.ring).take 4096
        ringFollow := if s.aon.otherFit then (rec_ :: s.aon.ring).take 4096 else s.aon.ringFollow
        intake := if lost then rest ++ [s.lossRecord] else rest
        intakeLost := 0, intakeLostCode := 0 } }
      if s.setting 8 ≤ r.severity then
        (if s.pp.state = .standby then s1.emit (.mctp (cometBytes rec_)) else s1.raise 0 3)
      else s1
    | _, _ => s)

/-- LOG_READ: up to three records from the number asked for or the oldest held. The BMC raises its mark. -/
def cmdLogRead (h : CmdHdr) (first count : Nat) (s : State) : CmdRes :=
  if count < 1 ∨ 3 < count then .refuse ST_RANGE s
  else
    let a := s.aon
    let from_ := max first (a.logCount - 4096)
    let recs := ((List.range (min count (a.logCount - from_))).filterMap fun i => a.record (from_ + i)).flatMap cometBytes
    let s1 : State := if isBmc h.sender then { s with aon := { a with bmcMark := max a.bmcMark first } } else s
    .ok (leBytes 8 from_ ++ leBytes 8 a.logCount ++ recs) s1

/-- LOG_READ. -/
def execLogRead (h : CmdHdr) (first count : Nat) (s : State) : Out :=
  .next (s.command h (.logRead first count) (cmdLogRead h first count))

/-- DUMP_REGION_SET: the region of the next dump (R553). -/
def cmdDumpRegionSet (r : Hbuf) (s : State) : CmdRes :=
  if r.addr = 0 then
    if r.length ≠ 0 ∨ r.pasid.isSome then .refuse ST_RANGE s else .ok [] { s with rel := { s.rel with dumpHost := none } }
  else if r.length < 2 ^ 28 ∨ r.addr % 64 ≠ 0 then .refuse ST_RANGE s
  else .ok [] { s with rel := { s.rel with dumpHost := some r } }

/-- DUMP_REGION_SET. -/
def execDumpRegionSet (h : CmdHdr) (region : Hbuf) (s : State) : Out :=
  .next (s.command h (.dumpRegionSet region) (cmdDumpRegionSet region))

/-- FATAL_ERROR of a cause of R551, which the Supervisor finds; the last only below the service floor (R552). -/
def execFatalError (cause : Nat) (s : State) : Out :=
  .next (if s.supervisorRuns && decide (1 ≤ cause ∧ cause ≤ 5) && (cause != 5 || !s.aboveFloor) then s.fatal cause else s)

/-! ## Counts of errors (R540, R541) -/

/-- A day, an hour and a second, in ns of the always-on clock. -/
def dayNs : Nat := 86400 * 1000000000
/-- An hour. -/
def hourNs : Nat := 3600 * 1000000000
/-- A second. -/
def secondNs : Nat := 1000000000

/-- The corrected errors that a unit may have within an interval in ns. -/
def correctedLimit (u : UnitRef) : Option (Nat × Nat) :=
  match u with
  | .core _ => some (256, hourNs)
  | .rowBlock .. => some (64, hourNs)
  | .channel .. => some (1000, hourNs)
  | .laneGroup .. => some (1000, secondNs)
  | _ => none

/-- The errors of a unit within an interval before a clock. -/
def errorsIn (l : List (UnitRef × Nat)) (u : UnitRef) (clock ns : Nat) : Nat :=
  (l.filter fun e => e.1 == u && decide (clock < e.2 + ns)).length

/-- CORRECTED_ERROR: it is counted; over its unit's threshold it is recorded and the unit retired. -/
def execCorrectedError (u : UnitRef) (s : State) : Out :=
  .next (
    let all := (u, s.aon.clock) :: s.rel.corrected
    let s1 : State := { s with rel := { s.rel with corrected := all } }
    match correctedLimit u with
    | none => s1
    | some (most, ns) =>
      let n := errorsIn all u s.aon.clock ns
      if most < n ∧ !s.rel.retired.contains u ∧ s.supervisorRuns then
        (s1.cometF2 (unitArea u).1 (unitArea u).2 (unitNumber u) n (ns / 1000000)).retire u 2
      else s1)

/-- An uncorrectable error is counted against a unit. -/
def State.countError (s : State) (u : UnitRef) : State :=
  { s with rel := { s.rel with uncorrected := (u, s.aon.clock) :: s.rel.uncorrected } }

/-- A unit is retired once it has had a number of uncorrectable errors within 24 h. -/
def State.retireAfter (s : State) (u : UnitRef) (n : Nat) : State :=
  if n ≤ errorsIn s.rel.uncorrected u s.aon.clock dayNs ∧ !s.rel.retired.contains u ∧ s.supervisorRuns then s.retire u 1 else s

/-! ## Uncorrectable errors (R540) -/

/-- The record of a contained error, with the step that it ended. -/
def State.contained (s : State) (area inst unit addr : Nat) (step : Option (Nat × Nat)) : State :=
  s.cometF3 area inst unit addr (step.getD (0, 0))

/-- A step ends for an error. -/
def State.endFor (s : State) (step : Option (Nat × Nat)) (status : Nat) : State :=
  match step with
  | some k => s.endStep k.1 k.2 status
  | none => s

/-- The step whose descriptor an engine has in hand, or serves next. -/
def State.engineStep (s : State) (d i : Nat) : Option (Nat × Nat) :=
  let e := s.engine d i
  match e.inHand with
  | some x => some (x.queue, x.step)
  | none => e.queue.head?.map fun x => (x.queue, x.step)

/-- The half and channel that hold a 64-byte unit, where it is in service (R362). -/
def State.channelOf (s : State) (unit : Nat) : UnitRef :=
  let h := halfOf (unit * 64)
  .channel h ((unit * 64 - halfBase h) / 256 % max 1 (s.half h).channels)

/-- A channel's distinct poisoned units are counted, each once. -/
def State.countUnit (s : State) (unit : Nat) : State := if s.mem.poison.contains unit then s else s.countError (s.channelOf unit)

/-- Whether an error leaves the machine something to contain it in. -/
def State.siteOk (s : State) (e : ErrSite) : Bool :=
  match e with
  | .coreStore c _ => decide (c < 512)
  | .coreControl c => decide (c < 512)
  | .matrixStore c => decide (c < 512)
  | .commons d sl row => decide (d < 8 ∧ sl < 48 ∧ row < 512)
  | .engineOperand d i => decide (d < 8 ∧ i < 26)
  | .engineControl d i => decide (d < 8 ∧ i < 26)
  | .sideEntry d i k => decide (d < 8 ∧ (i = 12 ∨ i = 13) ∧ k < 4)
  | .libraryBank d i b => decide (d < 8 ∧ i < 8 ∧ b < 2)
  | .transit d => decide (d < 8)
  | .alwaysOn i => decide (i < 2)
  | .memoryUnit u => decide (u * 64 < commonsBase) && s.populated (u * 64)
  | _ => true

/-- The step that read a row of a Commons slice: the one that holds the slice, and a free one of them where several steps of one
context hold it (log entry 87). -/
def State.sliceReader (s : State) (d sl : Nat) : Option (Nat × Nat) × State :=
  match ((s.die d).sliceHeld.filter fun h => h.1 == sl).map (·.2) with
  | [] => (none, s)
  | [k] => (some k, s)
  | ks => let (v, s1) := s.draw; (ks[v % ks.length]?, s1)

/-- What contains an error at each site. -/
def State.containError (s : State) (e : ErrSite) : State :=
  match e with
  | .coreStore c off =>
    let k := (s.core c).step
    (((s.contained 4 c c off k).endFor k ST_ECC).countError (.core c)).retireAfter (.core c) 2
  | .coreControl c =>
    let k := (s.core c).step
    ((((s.contained 4 c c 0 k).endFor k ST_CORERESET).coreReset c).countError (.core c)).retireAfter (.core c) 1
  | .matrixStore c =>
    let k := (s.core c).step
    (((s.contained 4 c c 0 k).endFor k ST_ECC).countError (.core c)).retireAfter (.core c) 1
  | .commons d sl row =>
    let (k, s) := s.sliceReader d sl
    (((s.contained 4 (0x800 + d * 32) (d * 64 + sl) row k).endFor k ST_ECC).countError (.rowBlock d sl row)).retireAfter (.rowBlock d sl row) 2
  | .engineOperand d i =>
    let k := s.engineStep d i
    (s.contained 4 (0x800 + d * 32 + i) (d * 32 + i) 0 k).endFor k ST_ECC
  | .engineControl d i =>
    let k := s.engineStep d i
    (((s.contained 4 (0x800 + d * 32 + i) (d * 32 + i) 0 k).endFor k ST_CORERESET).countError (.engine d i)).retireAfter (.engine d i) 2
  | .sideEntry d i k =>
    let t := (s.engine d i).side[k]?.map fun x => (x.queue, x.step)
    (((s.contained 4 (0x800 + d * 32 + i) (d * 32 + i) k t).endFor t ST_ECC).countError (.engine d i)).retireAfter (.engine d i) 2
  | .libraryBank d i b =>
    let k := (s.engineStep d i).filter fun k => (s.step? k.1 k.2).any fun t => t.libBank == b
    let s1 := (s.contained 4 (0x800 + d * 32 + i) (d * 32 + i) b k).endFor k ST_ECC
    let s2 := s1.setEngine d i fun x => { x with badBanks := if x.badBanks.contains b then x.badBanks else b :: x.badBanks }
    (s2.countError (.engine d i)).retireAfter (.engine d i) 2
  | .memoryUnit u =>
    let c := s.channelOf u
    let s1 := (s.contained 3 (halfOf (u * 64)) (halfOf (u * 64)) (u * 64) none).countUnit u
    { s1 with mem := s1.mem.setPoison u }.retireAfter c 4
  | .kvRecord p r =>
    match tabGet? s.kv.pools p with
    | some x =>
      let lose (y : KvRec) : KvRec := if y.state = .held then { y with state := .lost } else y
      { s.contained 3 p p r none with kv := { s.kv with pools := tabSet s.kv.pools p { x with recs := tabMod freshKv x.recs r lose } } }
    | none => s
  | .l2 => if s.watched then (s.contained 5 supervisorId s.cx.active 0 none).complexFails 2 else s
  | .journal both => if both then s.fatal 1 else s.contained 5 supervisorId s.cx.active 0 none
  | .powerController => if s.watched then (s.contained 5 3 s.cx.active 0 none).complexFails 2 else s
  | .alwaysOn i => s.contained 0 i i 0 none
  | .transit d => if s.supervisorRuns then (s.contained 4 (0x800 + d * 32) d 0 none).retire (.die d) 4 else s

/-- UNCORRECTABLE_ERROR. -/
def execUncorrectableError (e : ErrSite) (s : State) : Out := .next (if s.ioUp && s.siteOk e then s.containError e else s)

/-! ## Retirement (R241–R243, R541–R545) -/

/-- Whether a step that has not ended holds a core of a quad. -/
def State.quadHeld (s : State) (d k : Nat) : Bool :=
  s.dq.steps.any fun t => t.ended.isNone && t.cores.any fun n => n / 4 == d * 16 + k

/-- QUAD_SPARE_MAP: a marked quad that no step holds takes a spare. -/
def execQuadSpareMap (die quad : Nat) (s : State) : Out :=
  .next (
    if (s.die die).retiring.contains quad && !s.quadHeld die quad && s.supervisorRuns then (s.mapSpare die quad).checkFloor else s)

/-- CORE_STOP_TIMEOUT: a core that was ordered to stop has not reported free, and its quad is retired. -/
def execCoreStopTimeout (core : Nat) (s : State) : Out :=
  .next (
    let c := s.core core
    if core < 512 ∧ c.stopOrdered ∧ c.step.isSome ∧ !c.freed ∧ s.supervisorRuns then s.retire (.core core) 6 else s)

/-- The edges of the mesh: three in each row of dies, four between the rows, and the four of the I/O dies. -/
def edgeEnds : List (Nat × Nat) :=
  [(0, 1), (1, 2), (2, 3), (4, 5), (5, 6), (6, 7), (0, 4), (1, 5), (2, 6), (3, 7), (8, 0), (8, 4), (9, 3), (9, 7)]

/-- The edges of a die: 0 to 7 a compute die, 8 and 9 the I/O dies. -/
def edgesOf (d : Nat) : List Nat :=
  (List.range 14).filter fun e => match edgeEnds[e]? with
    | some p => p.1 == d || p.2 == d
    | none => false

/-- Whether every edge of a die has failed. -/
def State.cutOff (s : State) (d : Nat) : Bool := (edgesOf d).all s.fleet.edgesDown.contains

/-- MESH_LANE_GROUP_FAILURE: the group is retired; the spare takes its place, and a second one halves the edge. -/
def execMeshLaneGroupFailure (edge dir group : Nat) (s : State) : Out :=
  .next (
    let u : UnitRef := .laneGroup edge dir group
    if edge < 14 ∧ dir < 2 ∧ group < 17 ∧ !s.rel.retired.contains u ∧ s.supervisorRuns then s.retire u 2 else s)

/-- MESH_EDGE_FAILURE: routes avoid the edge; a die that it leaves without one is retired. -/
def execMeshEdgeFailure (edge : Nat) (s : State) : Out :=
  .next (
    if edge < 14 ∧ !s.fleet.edgesDown.contains edge ∧ s.supervisorRuns then
      let s1 := s.retire (.edge edge) 3
      let ends := match edgeEnds[edge]? with
        | some p => [p.1, p.2]
        | none => []
      forEach (ends.filter s1.cutOff) s1 fun s d => if d < 8 then s.retire (.die d) 5 else s.retireIoDie (d - 8) 5
    else s)

/-! ## Audits (R565–R567) -/

/-- The unit that a book's third rebuild retires: engine credits (6) the instance, sync objects (7) the core's quad, fabric credits (13)
the link. -/
def bookUnit (book inst : Nat) : Option UnitRef :=
  match book with
  | 6 => some (.engine (inst / 32) (inst % 32))
  | 7 => some (.core inst)
  | 13 => some (.link inst)
  | _ => none

/-- The area and instance of a book's record. -/
def bookArea (book inst : Nat) : Nat × Nat :=
  if book ≤ 4 then (6, inst) else if book ≤ 7 then (4, inst) else if book ≤ 10 then (3, inst) else if book ≤ 12 then (8, inst)
  else if book ≤ 14 then (7, inst) else (5, supervisorId)

/-- The key of a book and its instance. -/
def bookKey (k : Nat × Nat) : Nat := k.1 * 65536 + k.2

/-- A book rebuilt from the side that its table names: relay credits of a member from its acknowledged forward sequence number (R206), the
credits of an engine from its queue's entries and sync objects from the launch table (R269), the credits of a link by a credit audit
(R478). The other books have one store in the model, which is that side. -/
def State.rebuildFrom (s : State) (book inst : Nat) : State :=
  match book with
  | 4 => { s with dq := { s.dq with inFlight := tabSet s.dq.inFlight inst (tabGet 0 s.dq.relaySent inst - tabGet 0 s.dq.relayAcked inst) } }
  | 6 =>
    let d := inst / 32
    let i := inst % 32
    let ds := s.fleet.dies.flatMap fun x => x.2.gates ++ x.2.engines.flatMap fun e => e.2.queue ++ e.2.side
    forEach (s.mappedCores d) s fun s n => s.setCore n fun c => { c with
      credits := tabSet c.credits (creditKey (engineKind i) (engineInst i)) (ds.filter fun x => x.core == n && x.engine == i).length }
  | 7 => s.setCore inst fun c => { c with sync := c.sync.filter fun o => match o.2.step with
      | some k => (s.step? k.1 k.2).any fun t => t.ended.isNone
      | none => true }
  | 13 => if inst < 18 then (s.sendLink inst 0 (.creditAudit inst)).pump else s
  | _ => s

/-- A book found out of balance again is recorded and rebuilt; its third rebuild within 1 s retires its unit, or is fatal where it has none.
What was expected and found are free values. -/
def State.rebuild (s : State) (k : Nat × Nat) : State :=
  let b := tabGet freshBook s.rel.books (bookKey k)
  let recent := (b.rebuilds.filter fun t => decide (s.aon.clock < t + secondNs)) ++ [s.aon.clock]
  let v := s.draw
  let w := v.2.draw
  let s1 := (w.2.cometF6 (bookArea k.1 k.2).1 (bookArea k.1 k.2).2 k.1 v.1 w.1).rebuildFrom k.1 k.2
  let s2 : State := { s1 with rel := { s1.rel with books := tabSet s1.rel.books (bookKey k) ⟨false, recent⟩ } }
  if recent.length < 3 then s2
  else match bookUnit k.1 k.2 with
    | some u => s2.retire u 8
    | none => s2.fatal 3

/-- A book found out of balance is suspect until the next audit. -/
def State.auditBook (s : State) (k : Nat × Nat) : State :=
  if (tabGet freshBook s.rel.books (bookKey k)).suspect then s.rebuild k
  else { s with rel := { s.rel with books := tabMod freshBook s.rel.books (bookKey k) fun b => { b with suspect := true } } }

/-- An audit of every book: those found in balance are no longer suspect; those that are not are noted or rebuilt. -/
def State.auditAll (s : State) (found : List (Nat × Nat)) : State :=
  let keys := (dedup found).map bookKey
  let s1 : State := { s with rel := { s.rel with
    books := tabMap (fun i b => if keys.contains i then b else { b with suspect := false }) s.rel.books } }
  forEach (dedup found) s1 State.auditBook

/-- AUDIT. -/
def execAudit (found : List (Nat × Nat)) (s : State) : Out :=
  .next (
    if s.supervisorRuns && (s.pp.state == .service || s.pp.state == .drain || s.pp.state == .retain) then s.auditAll found else s)

end Sys2Proof.Machine
end

