-- ==== Sys2Proof/Machine/Commands.lean ====
section
/-! DEFINITION. Messages that carry commands: the Supervisor's command channels, commands forwarded to a member, and the BMC's messages
over MCTP (R118, R144–R159, R546). -/

namespace Sys2Proof.Machine

/-- The checks of its own and the effect of each command. -/
def cmdEffect (h : CmdHdr) (c : Command) : State → CmdRes :=
  match c with
  | .capsQuery f => cmdCapsQuery f
  | .settingRead i => cmdSettingRead i
  | .settingWrite i v => cmdSettingWrite i v
  | .sitekeyEnrol a k g => cmdSitekeyEnrol a k g
  | .sitelayerWrite b => cmdSitelayerWrite b
  | .moduleSuspend => cmdModuleSuspend
  | .moduleResume => cmdModuleResume
  | .moduleStop => cmdModuleStop h
  | .moduleStart => cmdModuleStart
  | .moduleReset k => cmdModuleReset h k
  | .dieReset d => cmdDieReset d
  | .memGrant f b l => cmdMemGrant f b l
  | .memRevoke f b l => cmdMemRevoke f b l
  | .ctxCreate p k id b => cmdCtxCreate h p k id b
  | .ctxDestroy t => cmdCtxDestroy h t
  | .rangeMap t i es => cmdRangeMap h t i es
  | .rangeInvalidateAll t => cmdRangeInvalidateAll h t
  | .keySlotSet t k => cmdKeySlotSet h t k
  | .stepResume t q i => cmdStepResume h t q i
  | .stepAbort t q i => cmdStepAbort h t q i
  | .qgroupAssign g t f v => cmdQgroupAssign g t f v
  | .qgroupRelease g => cmdQgroupRelease g
  | .queueConfigure q k l r => cmdQueueConfigure h q k l r
  | .programLoad t v l => cmdProgramLoad h t v l
  | .programUnload t p => cmdProgramUnload h t p
  | .poolCreate p g t b l => cmdPoolCreate p g t b l
  | .poolDestroy p => cmdPoolDestroy p
  | .kvOffer a r => cmdKvOffer h a r
  | .kvAccept t o n => cmdKvAccept h t o n
  | .kvHint t p i n => cmdKvHint h t p i n
  | .epochBegin m e b => cmdEpochBegin h m e b
  | .epochCommit m e => cmdEpochCommit m e
  | .epochAbort m e => cmdEpochAbort h m e
  | .adapterLoad t a r _ _ _ => cmdAdapterLoad h t a r
  | .adapterUnload t a => cmdAdapterUnload h t a
  | .placementApply m b => cmdPlacementApply m b
  | .planLoad b => cmdPlanLoad b
  | .portDefine p m => cmdPortDefine p m
  | .portRemove p => cmdPortRemove p
  | .podStateSet p => cmdPodStateSet p
  | .capSet c => cmdCapSet c
  | .matchedSet m => cmdMatchedSet m
  | .logRead f n => cmdLogRead h f n
  | .dumpRegionSet b => cmdDumpRegionSet b
  | .fwStage b => cmdFwStage b
  | .fwActivate => cmdFwActivate

/-! ## The Supervisor's channels (R118, R147, R148, R155) -/

/-- The channels on which the Supervisor receives commands. -/
def commandChannel (c : Nat) : Bool := (decide (c < 512) && c % 2 == 0) || c == 522 || (decide (524 ≤ c) && decide (c < 528))

/-- The sender of a command channel's message. That of a message of the fabric relay is not in its header: `v` stands for it. -/
def channelSender (c v : Nat) : Sender := if c < 512 then .host (c / 2) else if c = 522 then .bmc else .relay (v % 257)

/-- Whether the command that a message spells is marked "Any". -/
def messageAny (msg : List Byte) : Bool := (cmdFields (fieldAt msg 0 2) (bytesAt msg 16 (fieldAt msg 6 2))).any cmdAny

/-- The full command channel whose send came first, of those that back-pressure and the module's state let be taken (R147, R148,
R155). -/
def State.nextMessage (s : State) (v : Nat) : Option (Nat × Channel) :=
  minBy (fun e => e.2.order) (s.mbx.chans.filter fun e =>
    commandChannel e.1 && !e.2.taken && s.receives supervisorId e.1 && s.takes (channelSender e.1 v) (messageAny e.2.message))

/-- A reset that lies within a module reset or a start, and is merged into one that was in progress when it was requested (R83). -/
def cmdMerges (c : Command) : Bool :=
  match c with
  | .moduleReset k => k == 1
  | .dieReset _ => true
  | _ => false

/-- A message is checked, and its command taken. A reset requested during a start or module reset has that one's outcome (R83). -/
def State.runMessage (s : State) (x : Sender) (msg : List Byte) (merged : Bool) : State :=
  match parseMessage x s.cfg.minor msg with
  | .inl e => s.refuseAs e.1 e.2.1 none e.2.2
  | .inr p => s.runCmd p.1 p.2 (if merged && cmdMerges p.2 then fun s => .ok [] s else cmdEffect p.1 p.2)

/-- The first command held behind one of its channel that has since committed (R151). -/
def State.nextHeld (s : State) : Option Deferred :=
  s.cx.held.find? fun d => !(s.cx.waiting.any fun w => w.hdr.sender == d.hdr.sender)

/-- A held command comes to its commit point: it is judged, and its entry takes its place in the journal (R115, R151). -/
def State.runHeld (s : State) (d : Deferred) : State :=
  let s1 := { s with cx := { s.cx with
    held := s.cx.held.filter fun x => x.id != d.id
    journal := s.cx.journal.filter fun (j : JournalEntry) => j.id != d.id } }
  s1.judgeCmd d.hdr d.cmd (cmdEffect d.hdr d.cmd)

/-- SUPERVISOR_TAKE_MESSAGE: a command taken and held comes first. -/
def execSupervisorTakeMessage (s : State) : Out :=
  .next (
    let v := s.draw
    match if s.supervisorRuns then s.nextHeld else none with
    | some d => s.runHeld d
    | none => match s.nextMessage v.1 with
      | none => s
      | some (c, x) =>
        let s1 := if 524 ≤ c then v.2 else s
        ((s1.takeMsg supervisorId c).doneMsg supervisorId c).runMessage (channelSender c v.1) x.message
          (decide (x.order < s.mbx.serviceFrom)))

/-! ## Adoption (R113–R115) -/

/-- The queued answer that is the reply of a journal entry. -/
def State.hasReply (s : State) (j : JournalEntry) : Bool := s.cx.answers.any fun a => a.kind == 2 && a.hdr == j.hdr && a.opcode == j.opcode

/-- Whether another member gives the reply of a journal entry (R157). -/
def State.repliedElsewhere (s : State) (j : JournalEntry) : Bool :=
  s.fab.forwardedCmds.any fun e => e.hdr == j.hdr && e.opcode == j.opcode

/-- The journal replayed: an entry not marked committed is executed again from the start, and one committed whose reply was neither sent
nor queued has it sent from the journal (R115). -/
def State.replay (s : State) : State :=
  let s1 := forEach s.cx.waiting s fun s d =>
    { s with cx := { s.cx with
      waiting := s.cx.waiting.filter fun x => x.id != d.id
      journal := s.cx.journal.filter fun (j : JournalEntry) => j.id != d.id } }.judgeCmd d.hdr d.cmd (cmdEffect d.hdr d.cmd)
  forEach (s1.cx.journal.filter fun j => j.committed && !j.replied && !s1.hasReply j && !s1.repliedElsewhere j) s1 fun s j =>
    s.answer j.hdr j.opcode 2 j.status j.payload

/-- ADOPTION: the new active firmware has adopted the hardware: the journal is replayed and every book audited, and dispatch resumes; an
activation that the failure met is complete (R114, R564). Tables and hardware that a rebuild cannot reconcile are fatal (R551). -/
def execAdoption (audit : AdoptionAudit) (s : State) : Out :=
  .next (
    if s.cx.adopting && s.complex s.cx.active == .active then
      let s0 := { s with cx := { s.cx with adopting := false } }
      if audit.consistent then
        let s1 := s0.replay.auditAll audit.found
        if s1.cx.activating && s1.cx.staged.isNone then s1.activated else s1
      else s0.fatal 4
    else s)

/-! ## Commands at a member (R157, R159) -/

/-- FORWARDED_COMMAND_RECEIVE: the member checks and executes it as if the function had sent it here; a pod command that the head has
accepted is done without the checks of a head. -/
def execForwardedCommandReceive (function : Nat) (message : List Byte) (s : State) : Out :=
  .next (
    let x : Sender := .relay function
    if 257 ≤ function ∨ s.isHead ∨ !s.takes x (messageAny message) then s
    else match parseMessage x s.cfg.minor message with
      | .inl e => s.refuseAs e.1 e.2.1 none e.2.2
      | .inr p =>
        if s.channelWaits x then s.holdCmd p.1 p.2
        else if cmdPod p.2 then (if s.checkState p.2 then s.settleCmd p.1 p.2 (cmdEffect p.1 p.2 s) else s.refuseCmd p.1 p.2 ST_STATE)
        else s.runCmd p.1 p.2 (cmdEffect p.1 p.2))

/-! ## The BMC (R118, R148, R546) -/

/-- The management endpoint answers a message itself. -/
def State.endpointMessage (s : State) (msg : List Byte) : State :=
  match parseMessage .bmc s.cfg.minor msg with
  | .inl e => s.emit (.mctp (answerBytes ⟨.bmc, 2, e.2.1, e.1, e.2.2, []⟩))
  | .inr p => s.endpoint p.1 p.2 (cmdEffect p.1 p.2)

/-- The endpoint passes a message to channel 522, once that is free. -/
def State.passMessage (s : State) (msg : List Byte) : State :=
  if !s.bound 522 6 || (s.chan 522).owner != 0 || (s.chan 522).full then s
  else
    let s1 := s.setChan 522 fun x => { x with
      owner := 6, buf := (msg.take 256).foldl (fun t b => (t.1 + 1, tabSet t.2 t.1 b)) ((0, ([] : Tab Byte))) |>.2 }
    s1.sendMsg 6 522

/-- BMC_MCTP_MESSAGE. -/
def execBmcMctpMessage (message : List Byte) (s : State) : Out :=
  .next (
    if s.pp.state = .standby ∨ s.pp.state = .mgmtOnly then s.endpointMessage message
    else if s.ioUp then s.passMessage message
    else s)

end Sys2Proof.Machine
end

