-- ==== Sys2Proof/Machine/Fabric.lean ====
section
/-! DEFINITION. What a member receives over the fabric: flits, acknowledgements, credits, packets in order, and the messages that go on
from its forwarding store (R472–R480, R487). -/

namespace Sys2Proof.Machine

/-! ## Packets for this member (R474) -/

/-- The answer that an acknowledgement carries. -/
def ansOf (b : List Byte) : RemoteAns :=
  ⟨fieldAt b 0 2, fieldAt b 2 1, fieldAt b 3 1, fieldAt b 4 4, fieldAt b 8 8, fieldAt b 16 8, []⟩

/-- The barrier message that a packet carries. -/
def barrierIn (fn ctag tag : Nat) (b : List Byte) : BarrierMsg :=
  ⟨fn, ctag, tag, fieldAt b 0 1, fieldAt b 1 8, fieldAt b 9 1, fieldAt b 10 1, fieldAt b 11 2⟩

/-- The signal that a packet carries. -/
def signalOf (device fn ctag tag : Nat) (b : List Byte) : SignalMsg :=
  ⟨device, fn, ctag, fieldAt b 0 2, fieldAt b 2 8, fieldAt b 10 2, tag, fieldAt b 12 4⟩

/-- The grant that a packet carries. -/
def grantOfBytes (fn ctag : Nat) (b : List Byte) : GrantMsg :=
  ⟨⟨fn, ctag, fieldAt b 0 4, fieldAt b 4 2, fieldAt b 6 4, fieldAt b 10 4⟩, fieldAt b 14 2, fieldAt b 16 1, fieldAt b 17 1⟩

/-- A management message acts. -/
def State.takeMgmt (s : State) (fn ctag : Nat) (b : List Byte) : State :=
  let p := b.drop 1
  match fieldAt b 0 1 with
  | 1 => s.takeBlocked fn ctag (fieldAt p 0 2) (fieldAt p 2 8) (fieldAt p 10 1) (fieldAt p 11 2) (fieldAt p 13 8)
  | 3 => s.takeEpochEnd (fieldAt p 0 1) (fieldAt p 1 4) (fieldAt p 5 2)
  | 4 => { s with wt := { s.wt with keptGrants := s.wt.keptGrants ++ [grantOfBytes fn ctag p] } }
  | 5 => s.takePlanReport ⟨fieldAt p 0 1, toSigned 64 (fieldAt p 3 8), bit (fieldAt p 11 1) 0⟩ (fieldAt p 1 2)
  | 7 => { s with fab := { s.fab with committed := setBit s.fab.committed (fieldAt p 0 1) } }
  | 9 => s.sendMirrors
  | 11 => s.takePlaceDone (fieldAt p 0 1) (fieldAt p 1 1) (fieldAt p 2 2)
  | 12 => s.takePlaceCommit (fieldAt p 0 1)
  | 10 => if linkOk (fieldAt p 0 1) then (s.setLink (fieldAt p 0 1) fun x => { x with farPort := fieldAt p 1 1 == 1 }).pump else s
  | _ => s

/-- A packet for this member acts; one of an operation that has a row of its own is that row's (log entry 33). -/
def State.takePacket (s : State) (vc : Nat) (b : List Byte) : State :=
  let src := fieldAt b 1 1
  let fn := fieldAt b 4 2
  let ctag := fieldAt b 6 2
  let tag := fieldAt b 12 4
  let p := bytesAt b 16 (fieldAt b 8 4)
  match vc, fieldAt b 3 1 with
  | 0, 4 => s.takeMgmt fn ctag p
  | 2, 1 => { s with fleet := { s.fleet with arrivals := s.fleet.arrivals ++ [barrierIn fn ctag tag p] } }
  | 2, 2 => s.podRelease (barrierIn fn ctag tag p)
  | 2, 3 => { s with fleet := { s.fleet with signals := s.fleet.signals ++ [signalOf src fn ctag tag p] } }
  | 3, 8 => s.mirrorRefreshed src
  | 4, 2 => s.takeAnswer tag (ansOf p)
  | 5, 5 => s.takeAnswer tag (ansOf p)
  | 6, 3 => s.takeAnswer tag ⟨ST_OK, 0, 0, 0, 0, 0, p⟩
  | 6, 4 => s.takeAnswer tag (ansOf p)
  | 7, 3 => s.takeLayerReport src (fieldAt p 0 1) (fieldAt p 1 2)
  | _, _ => s

/-! ## The receive buffer (R475, R477, R480, R487) -/

/-- Whether a packet, by its first bytes, is for this member. -/
def State.packetHere (s : State) (b : List Byte) : Bool := fieldAt b 0 1 == 0xFF || fieldAt b 0 1 == s.fab.device

/-- Flits of a packet, by its first bytes. -/
def packetFlits (b : List Byte) : Nat := (16 + fieldAt b 8 4 + 239) / 240

/-- Flits of a partition that packets still being received will take. -/
def State.partitionDue (s : State) (h : Nat) : Nat :=
  ((s.fab.links.flatMap fun l => l.2.rxPart).map fun (e : Nat × List Byte) =>
    if fieldAt e.2 2 1 = h ∧ s.packetHere e.2 = false then packetFlits e.2 else 0).sum

/-- Flits that a port's reorder buffer holds for a virtual channel. -/
def PortDef.reordered (p : PortDef) (vc : Nat) : Nat :=
  ((p.parts.filter fun e => e.1 / 2 ^ 14 == vc).map fun e => (e.2.1.length + 239) / 240).sum

/-- Flits of a reorder buffer. -/
def reorderFlits : Nat := 256

/-- Whether a flit can leave a link's receive buffer. -/
def State.canTake (s : State) (l : Nat) (f : TxFlit) : Bool :=
  if f.vc < 4 then
    !f.first || s.packetHere f.payload ||
      decide (s.partitionHeld (fieldAt f.payload 2 1) + s.partitionDue (fieldAt f.payload 2 1) + packetFlits f.payload ≤ partitionFlits)
  else match s.portOf l with
    | none => false
    | some p => f.portSeq == tabGet 0 p.2.rxPortSeq f.vc || decide (p.2.reordered f.vc < reorderFlits)

/-- A whole packet of a routed class: for this member, or into the partition of its hop value. -/
def State.takeRouted (s : State) (vc : Nat) (b : List Byte) : State :=
  if s.packetHere b then s.takePacket vc b
  else s.storeMessage (fieldAt b 2 1) ⟨fieldAt b 0 1, fieldAt b 1 1, vc, b, none⟩

/-- Whole packets of a port's virtual channel are delivered in order. -/
def State.deliverPort (port vc : Nat) : Nat → State → State
  | 0, s => s
  | n + 1, s =>
    match tabGet? s.fab.ports port with
    | none => s
    | some p =>
      let seq := tabGet 0 p.rxPortSeq vc
      match tabGet? p.parts (vc * 2 ^ 14 + seq) with
      | some (b, true) =>
        let q : PortDef := { p with rxPortSeq := tabSet p.rxPortSeq vc ((seq + 1) % 2 ^ 14), parts := tabDel p.parts (vc * 2 ^ 14 + seq) }
        State.deliverPort port vc n (({ s with fab := { s.fab with ports := tabSet s.fab.ports port q } }).takePacket vc b)
      | _ => s

/-- A flit of a direct class joins its packet in the port's reorder buffer; one of a packet already delivered is a repeat. -/
def State.takeDirect (s : State) (port : Nat) (p : PortDef) (f : TxFlit) : State :=
  if 2 ^ 13 ≤ (f.portSeq + 2 ^ 14 - tabGet 0 p.rxPortSeq f.vc) % 2 ^ 14 then s
  else
    let key := f.vc * 2 ^ 14 + f.portSeq
    let had := ((tabGet? p.parts key).map (·.1)).getD []
    let q : PortDef := { p with parts := tabSet p.parts key (had ++ f.payload, f.eop) }
    State.deliverPort port f.vc q.parts.length { s with fab := { s.fab with ports := tabSet s.fab.ports port q } }

/-- A flit leaves a link's receive buffer. -/
def State.takeFlit (s : State) (l : Nat) (f : TxFlit) : State :=
  if f.vc < 4 then
    let b := (if f.first then [] else tabGet [] (s.link l).rxPart f.vc) ++ f.payload
    if f.eop then (s.setLink l fun x => { x with rxPart := tabDel x.rxPart f.vc }).takeRouted f.vc b
    else s.setLink l fun x => { x with rxPart := tabSet x.rxPart f.vc b }
  else match s.portOf l with
    | none => s
    | some p => s.takeDirect p.1 p.2 f

/-- The flits of a receive buffer that can leave it do, each virtual channel in order: those that stay, and the channels of those taken. -/
def State.takeFlits (l : Nat) : List TxFlit → List TxFlit → List Nat → State → List TxFlit × List Nat × State
  | [], kept, taken, s => (kept, taken, s)
  | f :: r, kept, taken, s =>
    if (kept.any fun k => k.vc == f.vc) || !s.canTake l f then State.takeFlits l r (kept ++ [f]) taken s
    else State.takeFlits l r kept (taken ++ [f.vc]) (s.takeFlit l f)

/-- A link-control flit leaves: an acknowledgement, with a nak or with credits. -/
def State.linkControl (s : State) (l nak vc count : Nat) : State :=
  s.emit (.flit l (flitBytes (flitHeader 3 0 0 (s.link l).rxSeq nak vc count 0 0 0) []))

/-- A link's receive buffer gives up what it can, and its credits return; nothing leaves it in DRAIN and RETAIN. -/
def State.emptyBuffer (s : State) (l : Nat) : State :=
  if s.pp.state == .drain || s.pp.state == .retain then s
  else
    let r := State.takeFlits l (s.link l).rxBuf [] [] (s.setLink l fun x => { x with rxBuf := [] })
    let s1 := r.2.2.setLink l fun x => { x with rxBuf := r.1 }
    forEach (dedup r.2.1) s1 fun s v => s.linkControl l 0 v ((r.2.1.filter (· == v)).length)

/-- Every receive buffer gives up what it can, and what waits to be sent goes on. -/
def State.settleFabric (s : State) : State :=
  (forEach ((s.fab.links.filter fun l => !l.2.rxBuf.isEmpty).map (·.1)) s State.emptyBuffer).pump.finishRemovals

/-! ## Flits (R472, R473) -/

/-- An acknowledgement: flits before it leave the replay buffer; one for a flit never sent is not looked at. -/
def Link.acknowledge (l : Link) (ack : Nat) : Link :=
  let oldest := (l.txSeq + 4096 - l.replay.length % 4096) % 4096
  let n := (ack + 4096 - oldest) % 4096
  if n = 0 ∨ l.replay.length < n then l else { l with replay := l.replay.drop n, sameRetries := 0 }

/-- Credits that a flit returns. -/
def Link.credited (l : Link) (vc n : Nat) : Link := { l with credits := tabSet l.credits vc (min (creditAlloc vc) (l.credit vc + n)) }

/-- A flit whose CRC holds brings its acknowledgement and its credits. -/
def Link.flitFields (l : Link) (h : Nat) : Link := (l.acknowledge (bits h 35 12)).credited (bits h 31 3) (bits h 23 8)

/-- A flit with a sequence number is received: in sequence it enters the receive buffer, and is acknowledged. -/
def State.receiveFlit (s : State) (l : Nat) (f : TxFlit) (seq : Nat) : State :=
  let x := s.link l
  if seq ≠ x.rxSeq then (if x.discarding then s else (s.setLink l fun x => { x with discarding := true }).linkControl l 1 0 0)
  else if creditAlloc f.vc ≤ x.occupied f.vc then s
  else (s.setLink l fun x => { x with rxSeq := (x.rxSeq + 1) % 4096, discarding := false, rxBuf := x.rxBuf ++ [f] }).linkControl l 0 0 0

/-- FLIT_RECEIVE: 256 bytes arrive on a link that runs. A flit whose CRC fails is discarded, as is every later one until its sequence
number arrives again, and a nak asks for it. -/
def execFlitReceive (link : Nat) (flit : List Byte) (s : State) : Out :=
  .next (
    let up : Bool := (s.link link).trained || decide (2 ≤ (s.link link).stage)
    if !linkOk link || flit.length != 256 || !up || !s.fabricRuns then s
    else if crc64 (flit.take 248) ≠ fieldAt flit 248 8 then
      (if (s.link link).discarding then s else (s.setLink link fun x => { x with discarding := true }).linkControl link 1 0 0)
    else
      let h := fieldAt flit 0 8
      let s1 := s.setLink link fun x => x.flitFields h
      let s2 :=
        if (bits h 62 2 == 1 || bits h 62 2 == 2) && (s1.link link).carries (bits h 59 3) then
          s1.receiveFlit link (txFlitOf flit) (bits h 47 12)
        else s1
      s2.settleFabric)

/-- Retransmissions in one second above which a link is degraded. -/
def degradedRetries : Nat := 10000

/-- Flits of a link's replay buffer are sent again. -/
def State.resend (s : State) (l : Nat) : State :=
  let n := (s.link l).replay.length
  let now := s.aon.clock
  let s1 := s.setLink l fun x =>
    let clocks := x.retryClocks.filter (fun t => decide (now - t < 1000000000)) ++ List.replicate n now
    let bad := decide (degradedRetries < clocks.length)
    { x with
      retries := (x.retries + n) % 65536, retryClocks := clocks, degraded := x.degraded || bad
      degradedAt := if bad && !x.degraded then now :: x.degradedAt else x.degradedAt }
  (s1.link l).replay.foldl (fun s b => s.emit (.flit l b)) s1

/-- A link that has become degraded three times within an hour is retired (R541). -/
def State.checkDegraded (s : State) (l : Nat) : State :=
  let x := s.link l
  if s.supervisorRuns && !x.retired && decide (3 ≤ (x.degradedAt.filter fun t => decide (s.aon.clock - t < 3600000000000)).length) then
    (s.linkTo l .failed).retire (.link l) 1
  else s

/-- NAK_RECEIVE: flits before `ack` are acknowledged and the rest are sent again. -/
def execNakReceive (link ack : Nat) (s : State) : Out :=
  .next (
    if !linkOk link || !((s.link link).trained || decide (2 ≤ (s.link link).stage)) then s
    else
      let s1 := s.setLink link fun x => x.acknowledge (ack % 4096)
      if (s1.link link).replay.isEmpty then s1
      else ((s1.setLink link fun x => { x with sameRetries := x.sameRetries + 1 }).resend link).checkDegraded link)

/-- A flit sent again takes a credit. -/
def Link.recharge (l : Link) (vs : List Nat) : Link := vs.foldl (fun l v => { l with credits := tabSet l.credits v (l.credit v - 1) }) l

/-- CREDIT_AUDIT_RECEIVE: credits become the allocation less the occupancy at the other end; flits not acknowledged go again, each
taking a credit, before new ones. -/
def execCreditAuditReceive (link : Nat) (occupancy : List Nat) (s : State) : Out :=
  .next (
    if !linkOk link || !(s.link link).trained then s
    else
      let s1 := s.setLink link fun x => { x with credits := (List.range 8).map fun v => (v, creditAlloc v - occupancy.getD v 0) }
      let again := ((s1.link link).replay.map txFlitOf).map (·.vc)
      let s2 := (s1.link link).replay.foldl (fun s b => s.emit (.flit link b)) (s1.setLink link fun x => x.recharge again)
      s2.pump)

/-! ## The forwarding store (R487) -/

/-- FORWARD_STORED_MESSAGE. -/
def execForwardStoredMessage (hop index : Nat) (s : State) : Out :=
  .next (if s.fabricRuns && decide (hop < 4) then (s.forwardAt hop index).settleFabric else s)

/-- NO_ROUTE_DISCARD: a message that has had no route for 1 ms is discarded and counted. -/
def execNoRouteDiscard (hop index : Nat) (s : State) : Out :=
  .next (
    match (s.partition hop)[index]? with
    | none => s
    | some m =>
      let late := m.noRouteSince.any fun t => decide (podPatience ≤ s.aon.clock - t)
      if !late || (s.routeWithin m.dest (3 - hop)).isSome then s
      else
        let s1 := s.setPartition hop ((s.partition hop).eraseIdx index)
        (({ s1 with fab := { s1.fab with noRoute := s1.fab.noRoute + 1 } }).cometF0 7 0 m.dest (s1.fab.noRoute + 1)).settleFabric)

end Sys2Proof.Machine
end

