-- ==== Sys2Proof/Machine/HostReads.lean ====
section
/-! DEFINITION. Completions of reads of host memory and their failures (R182, R224, R279, R571). -/

namespace Sys2Proof.Machine

/-- Whether two requests are parts of one access. -/
def HostRead.sameAccess (r x : HostRead) : Bool := x.purpose == r.purpose && x.ctag == r.ctag && x.accessVa == r.accessVa

/-- An access is no longer outstanding, nor the requests that are parts of it. -/
def State.endRead (s : State) (r : HostRead) : State :=
  { s with host := { s.host with reads := s.host.reads.filter fun x => !r.sameAccess x } }

/-- A read of a core fails: a fault of its step. -/
def State.coreReadFails (s : State) (r : HostRead) (core access detail : Nat) : State :=
  match (s.core core).step with
  | some k => s.failAccess k.1 k.2 3 access detail r.ri r.va 1 core
  | none => s

/-- A read fails as a host access of a cause and status, and so does what asked for it (R224, R571). -/
def State.readFails (s : State) (r : HostRead) (cause status : Nat) : State :=
  let s1 := s.endRead r
  let det := hostDetail cause status r.port
  match r.purpose with
  | .descriptor q => s1.descFault q (s.queue q).consumed 3 det r.ri r.va
  | .load n => s1.coreReadFails r n 1 det
  | .fetch n _ => s1.coreReadFails r n 3 det
  | .engine d i =>
    let e : Eng := ⟨d, i⟩
    match (s.engine d i).queue.head? with
    | some x => (s1.letHand e x).failAccess x.queue x.step 3 1 det r.ri r.va e.agentKind e.agent
    | none => s1
  | .shard m k => s1.shardFails m k

/-- A completion's bytes are kept with its request. -/
def State.keepData (s : State) (r : HostRead) (b : List Byte) : State :=
  { s with host := { s.host with reads := s.host.reads.map fun x => if x.id = r.id then { x with data := some b } else x } }

/-- The bytes of a read have come: the Dispatcher acts on its own once those of every part have, and the swap engine on its own; a core
or an engine takes its own when it next runs. -/
def State.readArrives (s : State) (r : HostRead) (b : List Byte) : State :=
  match r.purpose with
  | .descriptor q =>
    let s1 := s.keepData r b
    match readsData (s1.host.reads.filter r.sameAccess) with
    | some all => s1.descDone q (.ok all)
    | none => s1
  | .shard m k => (s.endRead r).shardRead m k b
  | _ => s.keepData r b

/-- Whether what a read is for can act on it now: a descriptor is the Dispatcher's and a shard the Supervisor's, both of them firmware. -/
def State.readHeard (s : State) (r : HostRead) : Bool :=
  match r.purpose with
  | .descriptor _ => s.supervisorRuns
  | .shard _ _ => s.supervisorRuns
  | _ => true

/-- An outstanding read by its number. -/
def State.outstanding (s : State) (id : Nat) : Option HostRead := s.host.reads.find? fun r => r.id == id && r.data.isNone

/-- HOST_READ_COMPLETION: status 0 brings the bytes asked for, 1 (Unsupported Request), 4 (Completer Abort) and poison a failed host
access; a completion of another status or length is none of this read. -/
def execHostReadCompletion (id status : Nat) (poisoned : Bool) (bytes : List Byte) (s : State) : Out :=
  .next (
    match s.outstanding id with
    | none => s
    | some r =>
      if !s.readHeard r then s
      else
        let done : Option State :=
          if poisoned then some (s.readFails r 3 status)
          else if status = 1 then some (s.readFails r 1 1)
          else if status = 4 then some (s.readFails r 2 4)
          else if status = 0 ∧ bytes.length = r.length then some (s.readArrives r bytes)
          else none
        match done with
        | some t => t.atsSettle r.port
        | none => s)

/-- HOST_COMPLETION_TIMEOUT: no completion within 500 µs. -/
def execHostCompletionTimeout (id : Nat) (s : State) : Out :=
  .next (
    match s.outstanding id with
    | none => s
    | some r => if s.readHeard r ∧ 500000 ≤ s.aon.clock - r.issued then (s.readFails r 4 0).atsSettle r.port else s)

end Sys2Proof.Machine
end

