-- ==== Sys2Proof/Machine/Matrix.lean ====
section
/-! DEFINITION. The matrix slot and the vector slot (R289–R306). -/

namespace Sys2Proof.Machine

/-! ## The array (R289–R294) -/

/-- Bytes of the own scratchpad; free values where an operand breaks the alignment of R291 (log entry 16). -/
def State.ownOrFree (s : State) (n off len : Nat) (aligned : Bool) : List Byte × State :=
  if aligned then (s.ownRead n off len, s.noteRead n off len) else freeBytes len s

/-- Several runs of bytes read in order. -/
def State.readRuns (n len : Nat) (aligned : Bool) : List Nat → State → List (List Byte) × State
  | [], s => ([], s)
  | off :: r, s =>
    let (b, s1) := s.ownOrFree n off len aligned
    let (bs, s2) := State.readRuns n len aligned r s1
    (b :: bs, s2)

/-- Depth of a product of two formats (R290). -/
def depthOf (f g : Nat) : Nat :=
  match max (fmtWidth f) (fmtWidth g) with
  | 16 => 128
  | 8 => 256
  | _ => 512

/-- The accumulator row of a core: 64 zero lanes where nothing has been written. -/
def CoreSt.accRow (c : CoreSt) (r : Nat) : List Lane := tabGet zeroVec c.acc (r % 1024)

/-- An accumulator row written. -/
def State.setAcc (s : State) (n r : Nat) (v : List Lane) : State :=
  s.setCore n fun c => { c with acc := tabSet c.acc (r % 1024) v }

/-- The exact sum of the products of a block, step 1 of R293. -/
def blockSum (ps : List Num) : Num :=
  match ps with
  | [] => .zero false
  | p :: r => r.foldl Num.add p

/-- Step 2 of R293 for block `j`: the exact sum of the products below kvalid, scaled and rounded once. -/
def blockTerm (fa fb kvalid : Nat) (a b : List Nat) (sa sb : Option (List Nat)) (j : Nat) : Lane :=
  let m := min 32 (kvalid - 32 * j)
  let xa := (sa.map fun l => l.getD j 0).getD 0x7F
  let xb := (sb.map fun l => l.getD j 0).getD 0x7F
  let va := (a.drop (32 * j)).take m
  let vb := (b.drop (32 * j)).take m
  if m = 0 then 0
  else if xa = 0xFF ∨ xb = 0xFF then enc32 .nan
  else enc32 ((blockSum ((va.zip vb).map fun p => (decodeElem fa p.1).mul (decodeElem fb p.2))).scale ((xa : Int) + xb - 254))

/-- The product of a stream row and a tile column over a depth: steps 1 to 3 of R293. -/
def dotProduct (kc fa fb kvalid : Nat) (a b : List Nat) (sa sb : Option (List Nat)) : Lane :=
  treeSum (Nat.log2 (kc / 32)) ((List.range (kc / 32)).map (blockTerm fa fb kvalid a b sa sb))

/-- The row that a product leaves: step 4 for the tile's columns, the others unchanged. -/
def accRowAfter (t : Tile) (kc fa : Nat) (zero : Bool) (old : List Lane) (a : List Nat) (sa : Option (List Nat)) : List Lane :=
  old.mapIdx fun n v =>
    if n < t.ncols then
      fadd (if zero then 0 else v)
        (dotProduct kc fa t.fmt t.kvalid a (t.cols.getD n []) sa (if t.scaled then some (t.scales.getD n []) else none))
    else v

/-! ## The matrix slot (R297–R302) -/

/-- The tile that MLDW reads. -/
def State.readTile (s : State) (n base sbase fmt : Nat) (scaled trans : Bool) (kc pitch ncols kvalid : Nat) : Tile × State :=
  let w := fmtWidth fmt
  let ok := decide (base % 64 = 0)
  let (cols, s1) :=
    if trans then
      let (rows, s1) := s.readRuns n (ncols * w / 8) ok ((List.range kc).map fun k => base + k * (pitch * 64))
      let es := rows.map (elemsOf fmt)
      ((List.range ncols).map fun c => es.map fun r => r.getD c 0, s1)
    else
      let (cs, s1) := s.readRuns n (kc * w / 8) ok ((List.range ncols).map fun c => base + c * (pitch * 64))
      (cs.map (elemsOf fmt), s1)
  let (scales, s2) :=
    if scaled then
      let (bs, s2) := s1.readRuns n (kc / 32) (decide (sbase % 64 = 0)) ((List.range ncols).map fun c => sbase + c * (kc / 32))
      (bs.map fun b => b.map (·.toNat), s2)
    else ([], s1)
  (⟨fmt, scaled, kc, ncols, kvalid, cols, scales⟩, s2)

/-- The encoding of MLDW. -/
def mldwKey (base sbase fmt : Nat) (scaled trans : Bool) (kc pitch ncols kvalid : Nat) : SlotKey :=
  ⟨1, 1, [fld 49 5 base, fld 44 5 sbase, fld 41 3 fmt, flg 40 scaled, flg 39 trans, fld 37 2 kc, fld 25 12 pitch,
    fld 18 7 ncols, fld 8 10 kvalid], []⟩

/-- MLDW (R299): the bundle stalls while the shadow buffer holds a tile that no swap has taken. -/
def execMldw (c : SlotCtx) (base sbase fmt : Nat) (scaled trans : Bool) (kc pitch ncols kvalid : Nat) (s : State) : Out :=
  .next (s.slotOp c (mldwKey base sbase fmt scaled trans kc pitch ncols kvalid)
    fun s =>
      let n := c.core
      if (s.core n).shadow.isSome then .stall s
      else
        let r := s.srcOf n
        let (t, s1) := s.readTile n (r.x? base) (r.x? sbase) fmt scaled trans (128 * 2 ^ kc) pitch ncols kvalid
        .done (s1.setCore n fun x => { x with shadow := some t }))

/-- Columns below a number of the rows that an MMUL names become NaN, with one record per step (R300, R301). -/
def State.nanRows (s : State) (n acc rows ncols : Nat) : State :=
  let s1 := if (s.core n).recTile then s else (s.cometF7 4 n [(s.core n).pc]).setCore n fun x => { x with recTile := true }
  forEach (List.range rows) s1 fun s i => s.setAcc n (acc + i) (((s.core n).accRow (acc + i)).mapIdx fun j v => if j < ncols then enc32 .nan else v)

/-- One stream row against a tile. -/
def State.streamRow (s : State) (n : Nat) (t : Tile) (kc abase asbase afmt : Nat) (ascaled zero : Bool) (apitch acc i : Nat) : State :=
  let (b, s1) := s.ownOrFree n (abase + i * (apitch * 64)) (kc * fmtWidth afmt / 8) (decide (abase % 64 = 0))
  let (sa, s2) :=
    if ascaled then
      let (sb, s2) := s1.ownOrFree n (asbase + i * (kc / 32)) (kc / 32) (decide (asbase % 64 = 0))
      (some (sb.map (·.toNat)), s2)
    else (none, s1)
  s2.setAcc n (acc + i) (accRowAfter t kc afmt zero ((s2.core n).accRow (acc + i)) (elemsOf afmt b) sa)

/-- The encoding of MMUL. -/
def mmulKey (abase asbase afmt : Nat) (ascaled swap zero : Bool) (apitch acc rows : Nat) : SlotKey :=
  ⟨1, 2, [fld 49 5 abase, fld 44 5 asbase, fld 41 3 afmt, flg 40 ascaled, flg 39 swap, flg 38 zero,
    fld 26 12 apitch, fld 21 5 acc, fld 10 11 rows], []⟩

/-- MMUL (R300, R301). -/
def execMmul (c : SlotCtx) (abase asbase afmt : Nat) (ascaled swap zero : Bool) (apitch acc rows : Nat) (s : State) : Out :=
  .next (s.slotOp c (mmulKey abase asbase afmt ascaled swap zero apitch acc rows)
    fun s =>
      let n := c.core
      if swap ∧ (s.core n).shadow.isNone then .stall s
      else
        let s1 := (if swap then s.setCore n fun x => { x with active := x.shadow, shadow := none } else s).setCore n
          fun x => { x with spent := x.spent + rows }
        let r := s.srcOf n
        match (s1.core n).active with
        | none => .done (s1.nanRows n (r.x? acc) rows 64)
        | some t =>
          let kc := depthOf afmt t.fmt
          if t.kc ≠ kc then .done (s1.nanRows n (r.x? acc) rows t.ncols)
          else .done (forEach (List.range rows) s1 fun s i =>
            s.streamRow n t kc (r.x? abase) (r.x? asbase) afmt ascaled zero apitch (r.x? acc) i))

/-- One accumulator row stored by MST. -/
def State.storeRow (s : State) (n dbase ofmt : Nat) (clear : Bool) (dpitch acc i : Nat) : State :=
  let v := (s.core n).accRow (acc + i)
  let off := dbase - dbase % 64 + i * (dpitch * 64)
  let good := bytesOfElems ofmt (v.map (narrow ofmt))
  let (bs, s1) := if dbase % 64 = 0 then (good, s) else freeBytes good.length s
  let s2 := (s1.noteWrite n off bs.length).bankWrite n off bs
  if clear then s2.setAcc n (acc + i) zeroVec else s2

/-- The encoding of MST. -/
def mstKey (dbase acc ofmt : Nat) (clear : Bool) (dpitch rows : Nat) : SlotKey :=
  ⟨1, 3, [fld 49 5 dbase, fld 44 5 acc, fld 41 3 ofmt, flg 40 clear, fld 28 12 dpitch, fld 17 11 rows], []⟩

/-- MST (R302). -/
def execMst (c : SlotCtx) (dbase acc ofmt : Nat) (clear : Bool) (dpitch rows : Nat) (s : State) : Out :=
  .next (s.slotOp c (mstKey dbase acc ofmt clear dpitch rows)
    fun s =>
      let r := s.srcOf c.core
      .done (forEach (List.range rows) s fun s i => s.storeRow c.core (r.x? dbase) ofmt clear dpitch (r.x? acc) i))

/-- The encoding of MZERO. -/
def mzeroKey (acc rows : Nat) : SlotKey :=
  ⟨1, 4, [fld 49 5 acc, fld 38 11 rows], []⟩

/-- MZERO (R302). -/
def execMzero (c : SlotCtx) (acc rows : Nat) (s : State) : Out :=
  .next (s.slotOp c (mzeroKey acc rows)
    fun s => .done (forEach (List.range rows) s fun s i => s.setAcc c.core ((s.srcOf c.core).x? acc + i) zeroVec))

/-! ## The vector slot (R305, R306) -/

/-- Two lists of lanes taken together. -/
def lanes2 (f : Lane → Lane → Lane) (a b : List Lane) : List Lane := (a.zip b).map fun p => f p.1 p.2

/-- An operation of VARITH on two lanes; abs, neg and copy read and write FP32 values as every other does. -/
def arithLane (fn : Nat) (a b : Lane) : Lane :=
  match fn with
  | 0 => fadd a b
  | 1 => fsub a b
  | 2 => fmul a b
  | 3 => fmin a b
  | 4 => fmax a b
  | 5 => enc32 (dec32 a).abs
  | 6 => enc32 (dec32 a).negate
  | _ => enc32 (dec32 a)

/-- The encoding of VARITH. -/
def varithKey (vd va vb fn : Nat) : SlotKey :=
  ⟨2, 1, [fld 49 5 vd, fld 44 5 va, fld 39 5 vb, fld 30 4 fn], []⟩

/-- VARITH. -/
def execVarith (c : SlotCtx) (vd va vb fn : Nat) (s : State) : Out :=
  .next (s.slotOp c (varithKey vd va vb fn)
    fun s => .done (s.setV c.core vd (lanes2 (arithLane fn) ((s.srcOf c.core).v? va) ((s.srcOf c.core).v? vb))))

/-- The encoding of VFMA. -/
def vfmaKey (vd va vb vc fn : Nat) : SlotKey :=
  ⟨2, 2, [fld 49 5 vd, fld 44 5 va, fld 39 5 vb, fld 34 5 vc, fld 30 4 fn], []⟩

/-- VFMA. -/
def execVfma (c : SlotCtx) (vd va vb vc fn : Nat) (s : State) : Out :=
  .next (s.slotOp c (vfmaKey vd va vb vc fn)
    fun s =>
      let r := s.srcOf c.core
      .done (s.setV c.core vd (((r.v? va).zip ((r.v? vb).zip (r.v? vc))).map fun p => ffma (bit fn 0) (bit fn 1) p.1 p.2.1 p.2.2)))

/-- Whether a comparison of VCMP holds of two numbers; with a NaN only ne and unordered do. -/
def vcmpHolds (fn : Nat) (a b : Num) : Bool :=
  match a.cmp b with
  | none => fn == 1 || fn == 4
  | some d => match fn with
    | 0 => d == 0
    | 1 => d != 0
    | 2 => decide (d < 0)
    | 3 => decide (d ≤ 0)
    | _ => false

/-- The encoding of VCMP. -/
def vcmpKey (vd va vb fn : Nat) : SlotKey :=
  ⟨2, 3, [fld 49 5 vd, fld 44 5 va, fld 39 5 vb, fld 30 4 fn], []⟩

/-- VCMP. -/
def execVcmp (c : SlotCtx) (vd va vb fn : Nat) (s : State) : Out :=
  .next (s.slotOp c (vcmpKey vd va vb fn)
    fun s => .done (s.setV c.core vd (lanes2 (fun a b => if vcmpHolds fn (dec32 a) (dec32 b) then 0xFFFFFFFF else 0)
      ((s.srcOf c.core).v? va) ((s.srcOf c.core).v? vb))))

/-- The encoding of VSEL. -/
def vselKey (vd va vb vc : Nat) : SlotKey :=
  ⟨2, 4, [fld 49 5 vd, fld 44 5 va, fld 39 5 vb, fld 34 5 vc], []⟩

/-- VSEL: bitwise. -/
def execVsel (c : SlotCtx) (vd va vb vc : Nat) (s : State) : Out :=
  .next (s.slotOp c (vselKey vd va vb vc)
    fun s =>
      let r := s.srcOf c.core
      .done (s.setV c.core vd (((r.v? va).zip ((r.v? vb).zip (r.v? vc))).map fun p => if p.2.2 ≠ 0 then p.1 else p.2.1)))

/-- The reduction of 64 lanes by VRED. -/
def reduceLanes (fn : Nat) (v : List Lane) : Lane :=
  match fn with
  | 0 => treeSum 6 v
  | 1 => (treeOf fmax 6 v).headD 0
  | _ => (treeOf fmin 6 v).headD 0

/-- The encoding of VRED. -/
def vredKey (vd va fn : Nat) : SlotKey :=
  ⟨2, 5, [fld 49 5 vd, fld 44 5 va, fld 30 4 fn], []⟩

/-- VRED. -/
def execVred (c : SlotCtx) (vd va fn : Nat) (s : State) : Out :=
  .next (s.slotOp c (vredKey vd va fn)
    fun s => .done (s.setV c.core vd (reduceLanes fn ((s.srcOf c.core).v? va) :: List.replicate 63 0)))

/-- The 128 narrow lanes of a register. -/
def narrowLanes (v : List Lane) : List Nat := v.flatMap fun l => [l.toNat % 65536, l.toNat / 65536]

/-- A register of 128 narrow lanes. -/
def packNarrow (l : List Nat) : List Lane := (chunks 2 64 l).map fun p => BitVec.ofNat 32 (p.headD 0 % 65536 + p.getD 1 0 % 65536 * 65536)

/-- What VCVT leaves in vd. -/
def vcvtLanes (fn half : Nat) (old v : List Lane) : List Lane :=
  if fn < 2 then
    let new := v.map (narrow fn)
    let keep := narrowLanes old
    packNarrow (if half = 0 then new ++ keep.drop 64 else keep.take 64 ++ new)
  else ((narrowLanes v).drop (64 * half)).take 64 |>.map (widen (fn - 2))

/-- The encoding of VCVT. -/
def vcvtKey (vd va fn half : Nat) : SlotKey :=
  ⟨2, 6, [fld 49 5 vd, fld 44 5 va, fld 30 4 fn, fld 29 1 half], []⟩

/-- VCVT: narrowing keeps vd's other half. -/
def execVcvt (c : SlotCtx) (vd va fn half : Nat) (s : State) : Out :=
  .next (s.slotOp c (vcvtKey vd va fn half)
    fun s =>
      let r := s.srcOf c.core
      .done (s.setV c.core vd (vcvtLanes fn half (r.v? vd) (r.v? va))))

/-- The encoding of VCVTMX. -/
def vcvtmxKey (vd va vb vc fn : Nat) : SlotKey :=
  ⟨2, 7, [fld 49 5 vd, fld 44 5 va, fld 39 5 vb, fld 34 5 vc, fld 30 4 fn], []⟩

/-- VCVTMX (R288): elements to vd, scale bytes to the low bytes of vc. -/
def execVcvtmx (c : SlotCtx) (vd va vb vc fn : Nat) (s : State) : Out :=
  .next (s.slotOp c (vcvtmxKey vd va vb vc fn)
    fun s =>
      let r := s.srcOf c.core
      let f := 2 + fn % 4
      let regs := if f = 4 then 8 else 4
      let xs := (List.range regs).flatMap fun i => r.v? (va + i)
      let fixed := if bit fn 2 then some (((r.v? vb).headD 0).toNat % 256) else none
      let blocks := (chunks 32 xs.length xs).map (mxBlock f fixed)
      let scales := blocks.map fun b => (BitVec.ofNat 8 b.1 : Byte)
      let s1 := s.setV c.core vd (lanesOf (bytesOfElems f (blocks.flatMap (·.2))))
      .done (s1.setV c.core vc (lanesOf (scales ++ List.replicate (256 - scales.length) 0))))

/-- The encoding of VACC. -/
def vaccKey (vd fn acc : Nat) : SlotKey :=
  ⟨2, 8, [fld 49 5 vd, fld 30 4 fn, fld 25 5 acc], []⟩

/-- VACC (R305). -/
def execVacc (c : SlotCtx) (vd fn acc : Nat) (s : State) : Out :=
  .next (s.slotOp c (vaccKey vd fn acc)
    fun s =>
      let n := c.core
      let row := (s.srcOf n).x? acc
      let v := (s.srcOf n).v? vd
      match fn with
      | 0 => .done (s.setV n vd ((s.core n).accRow row))
      | 1 => .done (s.setAcc n row v)
      | _ => .done (s.setAcc n row (lanes2 fadd ((s.core n).accRow row) v)))

/-- The encoding of VMOV. -/
def vmovKey (vd : Nat) (imm : Lane) : SlotKey :=
  ⟨2, 9, [fld 49 5 vd, fld 0 32 imm.toNat], []⟩

/-- VMOV. -/
def execVmov (c : SlotCtx) (vd : Nat) (imm : Lane) (s : State) : Out :=
  .next (s.slotOp c (vmovKey vd imm)
    fun s => .done (s.setV c.core vd (List.replicate 64 imm)))

end Sys2Proof.Machine
end

