-- ==== Sys2Proof/Machine/MoverWeights.lean ====
section
/-! DEFINITION. Weights as steps reach them: GATE and its layer marks, and WLOAD from a store or an adapter (R445–R449). -/

namespace Sys2Proof.Machine

/-! ## The bound epoch -/

/-- The image of the epoch that a step is bound to. -/
def State.boundImage (s : State) (t : StepRec) : Option Image :=
  t.model.bind fun n =>
    let m := s.model n
    if t.epochW ≠ 0 ∧ t.epochW = m.service then m.image else if t.epochW ≠ 0 ∧ t.epochW = m.opened then m.openImage else none

/-- Whether a step is bound to the new epoch of a swap. -/
def State.boundNew (s : State) (t : StepRec) : Bool :=
  t.model.any fun n => (s.model n).isOpen && t.epochW == (s.model n).opened && t.epochW != (s.model n).service

/-- Layers of the epoch that a step is bound to. -/
def State.layerCount (s : State) (t : StepRec) : Nat := ((s.boundImage t).map (·.layers.length)).getD 0

/-- The frontier of a step's model on this member. -/
def State.frontierOf (s : State) (t : StepRec) : Nat := (t.model.map fun n => (s.model n).frontier).getD 0

/-! ## GATE (R445) -/

/-- Entries of a die's gate table. -/
def gateEntries : Nat := 512

/-- GATE: the mark rises at once, or the descriptor waits in the gate table for its layer's commit. -/
def moverGate (e : Eng) (d : QDesc) (t : StepRec) (s : State) : EngRes :=
  let l := d.field 0x10 2
  if d.bytes.length ≠ 64 ∨ !zeroAt d.bytes 0x12 46 ∨ s.layerCount t ≤ l ∨ l < (s.core d.core).mark then .malformed
  else if s.boundNew t && decide (s.frontierOf t ≤ l) then
    (if (s.die e.die).gates.length < gateEntries then .parked ((s.setDie e.die fun x => { x with gates := x.gates ++ [d] }).mirrorOut d.queue) else .stall s)
  else .done (s.setCore d.core fun c => { c with mark := l })

/-- GATE. -/
def execGate (die mover : Nat) (s : State) : Out := s.moverOp die mover (fun d => d.format == 0x13) moverGate

/-! ## WLOAD (R446, R447) -/

/-- A WLOAD descriptor. -/
structure WloadDesc where
  dst : Nat
  off : Nat
  tensor : Nat
  len : Nat
  rows : Nat
  count : Nat
  pitch : Nat
  source : Nat

/-- The fields of a descriptor. -/
def wloadDesc (d : QDesc) : WloadDesc :=
  { dst := d.field 0x10 8, off := d.field 0x18 8, tensor := d.field 0x20 4, len := d.field 0x24 4, rows := d.field 0x28 8
    count := d.field 0x30 4, pitch := d.field 0x34 4, source := d.field 0x38 1 }

/-- The ranges of R446, and what the step names. -/
def wloadOk (d : QDesc) (x : WloadDesc) (t : StepRec) : Bool :=
  d.bytes.length == 64 && decide (x.dst % 64 = 0 ∧ x.off % 64 = 0 ∧ x.len % 64 = 0 ∧ 64 ≤ x.len ∧ x.len ≤ 2 ^ 24 ∧ x.rows % 64 = 0 ∧
    x.source ≤ 2) && zeroAt d.bytes 0x39 7 && t.model.isSome && (x.source == 0 || t.adapter.isSome) &&
  (if x.rows = 0 then x.count == 0 && x.pitch == 0 else decide (1 ≤ x.count ∧ x.count ≤ 65536 ∧ x.pitch % 64 = 0 ∧ x.len ≤ x.pitch))

/-- A failed check: a comet record, and the step ends. -/
def State.wloadRefuse (s : State) (e : Eng) (t : StepRec) (x : WloadDesc) (status : Nat) : EngRes :=
  .ends status (s.cometF0 8 ((t.model.getD 0) * 16 + e.die) x.tensor (masterOf t.fn))

/-- The adapter epoch that a step is bound to. -/
def State.boundAdapter (s : State) (t : StepRec) : Option AdapterEpoch :=
  (t.adapter.bind fun n => tabGet? s.wt.adapters n).bind fun a =>
    ((a.resident.toList ++ a.retiring.toList).find? fun x => x.epoch == t.epochA)

/-- Bytes of an element of an adapter. -/
def AdapterEpoch.elem (a : AdapterEpoch) : Nat := if a.fmt = 0 then 2 else 1

/-- Address and bytes of D or U of a tensor of an adapter; its offsets count from the first byte of the data section. -/
def AdapterEpoch.part (a : AdapterEpoch) (r : List Nat) (source : Nat) : Nat × Nat :=
  let base := a.sourceVa + a.dataOff
  if source = 1 then (base + r.getD 4 0, r.getD 2 0 * a.rank * a.elem) else (base + r.getD 5 0, a.rank * r.getD 3 0 * a.elem)

/-- What a read of a store comes to: its bytes, frames whose CRC fails, or a poisoned unit. -/
inductive StoreGot where
  | bytes (b : List Byte)
  | frames (fs : List Nat)
  | poison (pa : Nat)

/-- The stored bytes of a form 1 tensor that a span touches, as offsets in the shard's data. -/
def touched (t : Tensor) (stored : List Byte) (off len : Nat) : List (Nat × Nat) :=
  if t.table = 0xFF then [(t.storedOff + off, len)]
  else
    let u := off / 4096
    let n := (off + len - 1) / 4096 - u + 1
    (t.storedOff + 4 * u, 4 * n) :: (List.range n).map fun i =>
      let o := fieldAt stored (4 * (u + i)) 4
      (t.storedOff + o, 4 + fieldAt stored o 4 % 2 ^ 31)

/-- The frames in which some runs of bytes lie. -/
def framesOf (h : Shard) (runs : List (Nat × Nat)) : List Nat :=
  (List.range h.frames).filter fun j => runs.any fun r => overlap (4096 * j) 4096 r.1 r.2

/-- Expanded bytes of a tensor from this member's store. -/
def State.storeRead (s : State) (m : Model) (i : Image) (h : Shard) (t : Tensor) (off len : Nat) : StoreGot :=
  if h.form = 0 then
    let pa := h.storePa + t.expandedOff + off
    if s.poisonAt pa len then .poison (s.badByte pa len) else .bytes (s.mem.devRead (m.keyOf i) pa len)
  else
    let data := s.mem.devRead (m.keyOf i) h.storePa (h.frames * 4096)
    let stored := data.drop t.storedOff
    let fs := framesOf h (touched t stored off len)
    match fs.find? fun j => s.poisonAt (h.storePa + 4096 * j) 4096 with
    | some j => .poison (s.badByte (h.storePa + 4096 * j) 4096)
    | none =>
      let bad := fs.filter fun j => crc32c (s.storeFrame m i h j) != s.storeCrc m i h j
      if !bad.isEmpty then .frames bad
      else if t.table = 0xFF then .bytes (bytesAt stored off len)
      else match expandUnits t stored (off / 4096) ((off + len - 1) / 4096 - off / 4096 + 1) with
        | some b => .bytes (bytesAt b (off % 4096) len)
        | none => .frames fs

/-- The store reads of several spans, joined row by row; the first that fails. -/
def State.storeReads (s : State) (m : Model) (i : Image) (h : Shard) (t : Tensor) (len : Nat) : List Nat → Sum StoreGot (List (List Byte))
  | [] => .inr []
  | o :: r => match s.storeRead m i h t o len with
    | .bytes b => match s.storeReads m i h t len r with
      | .inr bs => .inr (b :: bs)
      | .inl f => .inl f
    | f => .inl f

/-- A WLOAD from the model, its rows known. -/
def wloadModel (e : Eng) (x : WloadDesc) (t : StepRec) (mark : Nat) (offs : List Nat) (s : State)
    (k : State → List (List Byte) → EngRes) : EngRes :=
  let n := t.model.getD 0
  let m := s.model n
  match s.boundImage t with
  | none => s.wloadRefuse e t x ST_EPOCH
  | some i => match i.tensors[x.tensor]? with
    | none => s.wloadRefuse e t x ST_EPOCH
    | some r => match i.shards[r.shard]? with
      | none => s.wloadRefuse e t x ST_EPOCH
      | some h =>
        if !bit h.mask s.fab.device || offs.any (fun o => decide (r.expandedLen < o + x.len)) || decide (h.layer < mark) ||
            (s.boundNew t && decide (s.frontierOf t ≤ h.layer)) then s.wloadRefuse e t x ST_EPOCH
        else match s.storeReads m i h r x.len offs with
          | .inr bs => k s bs
          | .inl (.poison pa) => .poison pa
          | .inl (.frames fs) =>
            let pa := h.storePa + 4096 * fs.headD 0
            .ends ST_ECC ((forEach fs s fun s j => s.restoreFrame n r.shard j h).cometF3 8 (n * 16 + e.die) e.agent pa (t.queue, t.index))
          | .inl (.bytes _) => k s []

/-- A WLOAD from an adapter. -/
def wloadAdapter (e : Eng) (x : WloadDesc) (t : StepRec) (offs : List Nat) (s : State) (k : State → List (List Byte) → EngRes) : EngRes :=
  match s.boundAdapter t with
  | none => s.wloadRefuse e t x ST_EPOCH
  | some a => match a.tensors[x.tensor]? with
    | none => s.wloadRefuse e t x ST_EPOCH
    | some r =>
      let p := a.part r x.source
      if offs.any fun o => decide (p.2 < o + x.len) then s.wloadRefuse e t x ST_EPOCH
      else withReads e t (offs.map fun o => (p.1 + o, x.len)) s k

/-- WLOAD: every check, then the bytes and the destinations, then the writes. -/
def moverWload (e : Eng) (d : QDesc) (t : StepRec) (s : State) : EngRes :=
  let x := wloadDesc d
  if !wloadOk d x t then s.wloadRefuse e t x ST_MALFORMED
  else withRead s e t x.rows (4 * x.count) fun s1 rb =>
    let offs := if x.rows = 0 then [x.off] else (chunks 4 x.count rb).map fun b => x.off + leNat b * x.len
    let mark := (s1.core d.core).mark
    let go (s2 : State) (bs : List (List Byte)) : EngRes :=
      withDests e t (rowsAt x.dst x.pitch offs.length x.len) s2 fun s3 ps => .done (s3.engWrites e t ps bs)
    if x.source = 0 then wloadModel e x t mark offs s1 go else wloadAdapter e x t offs s1 go

/-- WLOAD. -/
def execWload (die mover : Nat) (s : State) : Out := s.moverOp die mover (fun d => d.format == 0x14) moverWload

end Sys2Proof.Machine
end

