-- ==== Sys2Proof/Machine/Dispatch.lean ====
section
/-! DEFINITION. The dispatch of a command to its meaning, one arm per constructor. -/

namespace Sys2Proof.Machine

/-- The effect of one command on everything but the queue of waiting commands. -/
def exec (i : Instr) (s : State) : Host.Outcome State Fault Refusal :=
  match i with
  | .pwrfailNAssert => Sys2Proof.Machine.execPwrfailNAssert s
  | .pwrfailNDeassert => Sys2Proof.Machine.execPwrfailNDeassert s
  | .mainCeasesGood mv => Sys2Proof.Machine.execMainCeasesGood mv s
  | .mainGood mv => Sys2Proof.Machine.execMainGood mv s
  | .mainSenseBreak => Sys2Proof.Machine.execMainSenseBreak s
  | .hotSwapOvervoltage mv => Sys2Proof.Machine.execHotSwapOvervoltage mv s
  | .hotSwapOvercurrent peakMa => Sys2Proof.Machine.execHotSwapOvercurrent peakMa s
  | .hotSwapReclose remade mv => Sys2Proof.Machine.execHotSwapReclose remade mv s
  | .drainComplete => Sys2Proof.Machine.execDrainComplete s
  | .drainForced => Sys2Proof.Machine.execDrainForced s
  | .retainExit => Sys2Proof.Machine.execRetainExit s
  | .mainAbsentInRetain => Sys2Proof.Machine.execMainAbsentInRetain s
  | .standbyModuleStart => Sys2Proof.Machine.execStandbyModuleStart s
  | .holdupExpired => Sys2Proof.Machine.execHoldupExpired s
  | .vauxCeasesGood mv => Sys2Proof.Machine.execVauxCeasesGood mv s
  | .vauxGoodAgain mv => Sys2Proof.Machine.execVauxGoodAgain mv s
  | .perstAssert port => Sys2Proof.Machine.execPerstAssert port s
  | .hostPortLinkDown loss => Sys2Proof.Machine.execHostPortLinkDown loss s
  | .hostPortLinkUp port => Sys2Proof.Machine.execHostPortLinkUp port s
  | .alwaysOnPowerOn main vauxMv rackPos => Sys2Proof.Machine.execAlwaysOnPowerOn main vauxMv rackPos s
  | .startPhaseEnd r => Sys2Proof.Machine.execStartPhaseEnd r s
  | .startPhaseTimeout => Sys2Proof.Machine.execStartPhaseTimeout s
  | .keeperHeartbeat => Sys2Proof.Machine.execKeeperHeartbeat s
  | .leadShareTakeover => Sys2Proof.Machine.execLeadShareTakeover s
  | .timebaseTick => Sys2Proof.Machine.execTimebaseTick s
  | .coreClockSwitch die => Sys2Proof.Machine.execCoreClockSwitch die s
  | .idleDemoteGated core => Sys2Proof.Machine.execIdleDemoteGated core s
  | .wakeComplete u => Sys2Proof.Machine.execWakeComplete u s
  | .powerStateOrder u target => Sys2Proof.Machine.execPowerStateOrder u target s
  | .capsQuery h first => Sys2Proof.Machine.execCapsQuery h first s
  | .settingRead h id => Sys2Proof.Machine.execSettingRead h id s
  | .settingWrite h id value => Sys2Proof.Machine.execSettingWrite h id value s
  | .sitekeyEnrol h key signature => Sys2Proof.Machine.execSitekeyEnrol h key signature s
  | .sitekeyRemove h token => Sys2Proof.Machine.execSitekeyRemove h token s
  | .sitelayerWrite h source => Sys2Proof.Machine.execSitelayerWrite h source s
  | .sitelayerWriteCheck item data => Sys2Proof.Machine.execSitelayerWriteCheck item data s
  | .moduleSuspend h => Sys2Proof.Machine.execModuleSuspend h s
  | .moduleResume h => Sys2Proof.Machine.execModuleResume h s
  | .moduleStop h => Sys2Proof.Machine.execModuleStop h s
  | .moduleStart h => Sys2Proof.Machine.execModuleStart h s
  | .moduleResetModule h => Sys2Proof.Machine.execModuleResetModule h s
  | .moduleResetCold h => Sys2Proof.Machine.execModuleResetCold h s
  | .dieReset h die => Sys2Proof.Machine.execDieReset h die s
  | .dieResetComplete die => Sys2Proof.Machine.execDieResetComplete die s
  | .memGrant h function base length => Sys2Proof.Machine.execMemGrant h function base length s
  | .memRevoke h function base length => Sys2Proof.Machine.execMemRevoke h function base length s
  | .revokeZeroingEnd base => Sys2Proof.Machine.execRevokeZeroingEnd base s
  | .ctxCreate h homePort compat pasid tableBase => Sys2Proof.Machine.execCtxCreate h homePort compat pasid tableBase s
  | .ctxDestroy h ctag => Sys2Proof.Machine.execCtxDestroy h ctag s
  | .ctxDestroyComplete ctag => Sys2Proof.Machine.execCtxDestroyComplete ctag s
  | .rangeMap h ctag firstIndex entries => Sys2Proof.Machine.execRangeMap h ctag firstIndex entries s
  | .rangeInvalidateAll h ctag => Sys2Proof.Machine.execRangeInvalidateAll h ctag s
  | .invalidationCommit ctag => Sys2Proof.Machine.execInvalidationCommit ctag s
  | .keySlotSet h ctag key => Sys2Proof.Machine.execKeySlotSet h ctag key s
  | .stepResume h ctag queue stepIndex => Sys2Proof.Machine.execStepResume h ctag queue stepIndex s
  | .stepAbort h ctag queue stepIndex => Sys2Proof.Machine.execStepAbort h ctag queue stepIndex s
  | .stepAbortComplete queue stepIndex => Sys2Proof.Machine.execStepAbortComplete queue stepIndex s
  | .qgroupAssign h group ctag function vfPage => Sys2Proof.Machine.execQgroupAssign h group ctag function vfPage s
  | .qgroupRelease h group => Sys2Proof.Machine.execQgroupRelease h group s
  | .queueConfigure h queue cls log2Entries ringVa => Sys2Proof.Machine.execQueueConfigure h queue cls log2Entries ringVa s
  | .programLoad h ctag sourceVa length => Sys2Proof.Machine.execProgramLoad h ctag sourceVa length s
  | .programLoadCheck item data => Sys2Proof.Machine.execProgramLoadCheck item data s
  | .programUnload h ctag program => Sys2Proof.Machine.execProgramUnload h ctag program s
  | .poolCreate h pool log2Block tier base length => Sys2Proof.Machine.execPoolCreate h pool log2Block tier base length s
  | .poolDestroy h pool => Sys2Proof.Machine.execPoolDestroy h pool s
  | .kvOffer h r => Sys2Proof.Machine.execKvOffer h r s
  | .kvOfferCancel h r => Sys2Proof.Machine.execKvOfferCancel h r s
  | .kvAccept h ctag offer newSequence => Sys2Proof.Machine.execKvAccept h ctag offer newSequence s
  | .kvHint h ctag pool hint sequence => Sys2Proof.Machine.execKvHint h ctag pool hint sequence s
  | .epochBegin h model epoch source => Sys2Proof.Machine.execEpochBegin h model epoch source s
  | .epochCommit h model epoch => Sys2Proof.Machine.execEpochCommit h model epoch s
  | .epochCommitCheck item data => Sys2Proof.Machine.execEpochCommitCheck item data s
  | .switchReceive model epoch => Sys2Proof.Machine.execSwitchReceive model epoch s
  | .epochAbort h model epoch => Sys2Proof.Machine.execEpochAbort h model epoch s
  | .adapterLoad h ctag adapter rank epoch sourceVa length => Sys2Proof.Machine.execAdapterLoad h ctag adapter rank epoch sourceVa length s
  | .adapterLoadCheck item data => Sys2Proof.Machine.execAdapterLoadCheck item data s
  | .adapterEpochDrop adapter => Sys2Proof.Machine.execAdapterEpochDrop adapter s
  | .adapterUnload h ctag adapter => Sys2Proof.Machine.execAdapterUnload h ctag adapter s
  | .placementApply h model source => Sys2Proof.Machine.execPlacementApply h model source s
  | .placementApplyInstall item data lost => Sys2Proof.Machine.execPlacementApplyInstall item data lost s
  | .planLoad h source => Sys2Proof.Machine.execPlanLoad h source s
  | .planReceive data headOffset => Sys2Proof.Machine.execPlanReceive data headOffset s
  | .planCommit shift => Sys2Proof.Machine.execPlanCommit shift s
  | .planLoadComplete item => Sys2Proof.Machine.execPlanLoadComplete item s
  | .portDefine h port linkMask => Sys2Proof.Machine.execPortDefine h port linkMask s
  | .portRemove h port => Sys2Proof.Machine.execPortRemove h port s
  | .podStateSet h podState => Sys2Proof.Machine.execPodStateSet h podState s
  | .podStateReceive podState => Sys2Proof.Machine.execPodStateReceive podState s
  | .capSet h cap => Sys2Proof.Machine.execCapSet h cap s
  | .matchedSet h matched => Sys2Proof.Machine.execMatchedSet h matched s
  | .logRead h first count => Sys2Proof.Machine.execLogRead h first count s
  | .dumpRegionSet h region => Sys2Proof.Machine.execDumpRegionSet h region s
  | .fwStage h source => Sys2Proof.Machine.execFwStage h source s
  | .fwStageComplete item data => Sys2Proof.Machine.execFwStageComplete item data s
  | .libraryBankWrite => Sys2Proof.Machine.execLibraryBankWrite s
  | .fwActivate h => Sys2Proof.Machine.execFwActivate h s
  | .fwActivateHandover => Sys2Proof.Machine.execFwActivateHandover s
  | .lockClaim a read => Sys2Proof.Machine.execLockClaim a read s
  | .mbxSend a channel => Sys2Proof.Machine.execMbxSend a channel s
  | .mbxTake a channel => Sys2Proof.Machine.execMbxTake a channel s
  | .mbxDone a channel => Sys2Proof.Machine.execMbxDone a channel s
  | .mbxWithdraw a channel => Sys2Proof.Machine.execMbxWithdraw a channel s
  | .lockRelease a channel => Sys2Proof.Machine.execLockRelease a channel s
  | .registerWrite a bar offset size value => Sys2Proof.Machine.execRegisterWrite a bar offset size value s
  | .msixUnmask function vector => Sys2Proof.Machine.execMsixUnmask function vector s
  | .supervisorTakeMessage => Sys2Proof.Machine.execSupervisorTakeMessage s
  | .replyDelivery dest => Sys2Proof.Machine.execReplyDelivery dest s
  | .forwardedCommandReceive function message => Sys2Proof.Machine.execForwardedCommandReceive function message s
  | .forwardedReplyReceive member function message => Sys2Proof.Machine.execForwardedReplyReceive member function message s
  | .bmcMctpMessage message => Sys2Proof.Machine.execBmcMctpMessage message s
  | .flr function => Sys2Proof.Machine.execFlr function s
  | .tdiError vf => Sys2Proof.Machine.execTdiError vf s
  | .doorbellWrite a page entry value => Sys2Proof.Machine.execDoorbellWrite a page entry value s
  | .podWindowDoorbell a member page entry value => Sys2Proof.Machine.execPodWindowDoorbell a member page entry value s
  | .relayForward member => Sys2Proof.Machine.execRelayForward member s
  | .forwardedDoorbellReceive master queue value ioDie => Sys2Proof.Machine.execForwardedDoorbellReceive master queue value ioDie s
  | .relayCreditReturn member => Sys2Proof.Machine.execRelayCreditReturn member s
  | .mirrorUpdate member queue m => Sys2Proof.Machine.execMirrorUpdate member queue m s
  | .dispatchRound => Sys2Proof.Machine.execDispatchRound s
  | .idleSlotHandover queue => Sys2Proof.Machine.execIdleSlotHandover queue s
  | .classPromotion queue stepIndex => Sys2Proof.Machine.execClassPromotion queue stepIndex s
  | .descriptorReadComplete queue data => Sys2Proof.Machine.execDescriptorReadComplete queue data s
  | .stepLaunch queue stepIndex => Sys2Proof.Machine.execStepLaunch queue stepIndex s
  | .victimRelaunch queue stepIndex => Sys2Proof.Machine.execVictimRelaunch queue stepIndex s
  | .coreEndReport core => Sys2Proof.Machine.execCoreEndReport core s
  | .rangeWalkComplete unit => Sys2Proof.Machine.execRangeWalkComplete unit s
  | .heldRecordFlush function => Sys2Proof.Machine.execHeldRecordFlush function s
  | .hostReadCompletion id status poisoned bytes => Sys2Proof.Machine.execHostReadCompletion id status poisoned bytes s
  | .hostCompletionTimeout id => Sys2Proof.Machine.execHostCompletionTimeout id s
  | .atsTranslationCompletion port pasid page status target => Sys2Proof.Machine.execAtsTranslationCompletion port pasid page status target s
  | .atsInvalidationRequest port pasid page pages => Sys2Proof.Machine.execAtsInvalidationRequest port pasid page pages s
  | .fetchComplete core => Sys2Proof.Machine.execFetchComplete core s
  | .lds c dst base space size sext offset => Sys2Proof.Machine.execLds c dst base space size sext offset s
  | .sts c src base space size offset => Sys2Proof.Machine.execSts c src base space size offset s
  | .ldv c dst base space offset => Sys2Proof.Machine.execLdv c dst base space offset s
  | .stv c src base space offset => Sys2Proof.Machine.execStv c src base space offset s
  | .ldvs c dst base esize stride offset => Sys2Proof.Machine.execLdvs c dst base esize stride offset s
  | .ldt c dst src esize spitch dpitch => Sys2Proof.Machine.execLdt c dst src esize spitch dpitch s
  | .flush c => Sys2Proof.Machine.execFlush c s
  | .fence c => Sys2Proof.Machine.execFence c s
  | .touch c base offset => Sys2Proof.Machine.execTouch c base offset s
  | .alu c fn dst a b useImm imm => Sys2Proof.Machine.execAlu c fn dst a b useImm imm s
  | .li c dst part keep imm16 => Sys2Proof.Machine.execLi c dst part keep imm16 s
  | .cmp c pdst cond a b useImm imm => Sys2Proof.Machine.execCmp c pdst cond a b useImm imm s
  | .br c link target indirect offset => Sys2Proof.Machine.execBr c link target indirect offset s
  | .loop c lc count useImm endOff countImm => Sys2Proof.Machine.execLoop c lc count useImm endOff countImm s
  | .signal c handle bank whr x value => Sys2Proof.Machine.execSignal c handle bank whr x value s
  | .wait c handle mode x useImm imm => Sys2Proof.Machine.execWait c handle mode x useImm imm s
  | .setc c handle x useImm imm => Sys2Proof.Machine.execSetc c handle x useImm imm s
  | .arrive c handle => Sys2Proof.Machine.execArrive c handle s
  | .enq c engine inst x len => Sys2Proof.Machine.execEnq c engine inst x len s
  | .safept c liveSet => Sys2Proof.Machine.execSafept c liveSet s
  | .endPart c => Sys2Proof.Machine.execEndPart c s
  | .rdid c dst which word => Sys2Proof.Machine.execRdid c dst which word s
  | .signalApply k => Sys2Proof.Machine.execSignalApply k s
  | .barrierArrival k => Sys2Proof.Machine.execBarrierArrival k s
  | .barrierReleaseReceive die m => Sys2Proof.Machine.execBarrierReleaseReceive die m s
  | .gatherBufferWriteback core line => Sys2Proof.Machine.execGatherBufferWriteback core line s
  | .mldw c base sbase fmt scaled transp kc pitch ncols kvalid => Sys2Proof.Machine.execMldw c base sbase fmt scaled transp kc pitch ncols kvalid s
  | .mmul c abase asbase afmt ascaled swap zero apitch acc rows => Sys2Proof.Machine.execMmul c abase asbase afmt ascaled swap zero apitch acc rows s
  | .mst c dbase acc ofmt clear dpitch rows => Sys2Proof.Machine.execMst c dbase acc ofmt clear dpitch rows s
  | .mzero c acc rows => Sys2Proof.Machine.execMzero c acc rows s
  | .varith c vd va vb fn => Sys2Proof.Machine.execVarith c vd va vb fn s
  | .vfma c vd va vb vc fn => Sys2Proof.Machine.execVfma c vd va vb vc fn s
  | .vcmp c vd va vb fn => Sys2Proof.Machine.execVcmp c vd va vb fn s
  | .vsel c vd va vb vc => Sys2Proof.Machine.execVsel c vd va vb vc s
  | .vred c vd va fn => Sys2Proof.Machine.execVred c vd va fn s
  | .vcvt c vd va fn half => Sys2Proof.Machine.execVcvt c vd va fn half s
  | .vcvtmx c vd va vb vc fn => Sys2Proof.Machine.execVcvtmx c vd va vb vc fn s
  | .vacc c vd fn acc => Sys2Proof.Machine.execVacc c vd fn acc s
  | .vmov c vd imm => Sys2Proof.Machine.execVmov c vd imm s
  | .fuElementwise die inst => Sys2Proof.Machine.execFuElementwise die inst s
  | .fuFusedGate die inst => Sys2Proof.Machine.execFuFusedGate die inst s
  | .fma u d a b c negProd negAdd noAdd => Sys2Proof.Machine.execFma u d a b c negProd negAdd noAdd s
  | .ldc u d index => Sys2Proof.Machine.execLdc u d index s
  | .rred u d a c k => Sys2Proof.Machine.execRred u d a c k s
  | .tlu u d a t shift w => Sys2Proof.Machine.execTlu u d a t shift w s
  | .horn u d a n k => Sys2Proof.Machine.execHorn u d a n k s
  | .fld u d a b fn sh => Sys2Proof.Machine.execFld u d a b fn sh s
  | .csel u d a b c bConst cond index => Sys2Proof.Machine.execCsel u d a b c bConst cond index s
  | .microEnd u a => Sys2Proof.Machine.execMicroEnd u a s
  | .libraryBankRewrite die inst bank => Sys2Proof.Machine.execLibraryBankRewrite die inst bank s
  | .rowUpdate die inst => Sys2Proof.Machine.execRowUpdate die inst s
  | .rowNormalise die inst => Sys2Proof.Machine.execRowNormalise die inst s
  | .rowMerge die inst => Sys2Proof.Machine.execRowMerge die inst s
  | .moments die inst => Sys2Proof.Machine.execMoments die inst s
  | .normApply die inst => Sys2Proof.Machine.execNormApply die inst s
  | .sampleRows die => Sys2Proof.Machine.execSampleRows die s
  | .verifyDrafts die => Sys2Proof.Machine.execVerifyDrafts die s
  | .queueOpen die inst => Sys2Proof.Machine.execQueueOpen die inst s
  | .scatter die inst => Sys2Proof.Machine.execScatter die inst s
  | .queueReleaseNext die inst => Sys2Proof.Machine.execQueueReleaseNext die inst s
  | .queueReleaseClose die inst => Sys2Proof.Machine.execQueueReleaseClose die inst s
  | .returnRows die inst => Sys2Proof.Machine.execReturnRows die inst s
  | .grantReceive g => Sys2Proof.Machine.execGrantReceive g s
  | .grantResend k => Sys2Proof.Machine.execGrantResend k s
  | .slotWriteReceive w => Sys2Proof.Machine.execSlotWriteReceive w s
  | .reportReceive r => Sys2Proof.Machine.execReportReceive r s
  | .returnRowReceive r => Sys2Proof.Machine.execReturnRowReceive r s
  | .gather die mover => Sys2Proof.Machine.execGather die mover s
  | .remoteGatherRequest r => Sys2Proof.Machine.execRemoteGatherRequest r s
  | .put die mover => Sys2Proof.Machine.execPut die mover s
  | .alloc die mover => Sys2Proof.Machine.execAlloc die mover s
  | .free die mover => Sys2Proof.Machine.execFree die mover s
  | .share die mover => Sys2Proof.Machine.execShare die mover s
  | .gate die mover => Sys2Proof.Machine.execGate die mover s
  | .wload die mover => Sys2Proof.Machine.execWload die mover s
  | .sendRemoteWrite die mover => Sys2Proof.Machine.execSendRemoteWrite die mover s
  | .sendReduceStream die mover => Sys2Proof.Machine.execSendReduceStream die mover s
  | .remoteWriteReceive w => Sys2Proof.Machine.execRemoteWriteReceive w s
  | .reduce die inst => Sys2Proof.Machine.execReduce die inst s
  | .reduceChunkReceive c => Sys2Proof.Machine.execReduceChunkReceive c s
  | .frameScrub pool => Sys2Proof.Machine.execFrameScrub pool s
  | .tierMoveBegin pool record => Sys2Proof.Machine.execTierMoveBegin pool record s
  | .tierMoveCommit pool record => Sys2Proof.Machine.execTierMoveCommit pool record s
  | .staleSweep pool => Sys2Proof.Machine.execStaleSweep pool s
  | .patrolScrub unit => Sys2Proof.Machine.execPatrolScrub unit s
  | .weightFrameReceive model shard frame crc bytes => Sys2Proof.Machine.execWeightFrameReceive model shard frame crc bytes s
  | .frameRequestTimeout model shard frame => Sys2Proof.Machine.execFrameRequestTimeout model shard frame s
  | .frameRequestReceive source model shard frame => Sys2Proof.Machine.execFrameRequestReceive source model shard frame s
  | .frameRequestRound model => Sys2Proof.Machine.execFrameRequestRound model s
  | .layerCopy model => Sys2Proof.Machine.execLayerCopy model s
  | .layerCommit model => Sys2Proof.Machine.execLayerCommit model s
  | .podLayerCommit model => Sys2Proof.Machine.execPodLayerCommit model s
  | .linkTrainingStageEnd link => Sys2Proof.Machine.execLinkTrainingStageEnd link s
  | .linkRetrain link cause => Sys2Proof.Machine.execLinkRetrain link cause s
  | .linkRetryTimer link => Sys2Proof.Machine.execLinkRetryTimer link s
  | .identityRecordReceive link r => Sys2Proof.Machine.execIdentityRecordReceive link r s
  | .flitReceive link flit => Sys2Proof.Machine.execFlitReceive link flit s
  | .nakReceive link ack => Sys2Proof.Machine.execNakReceive link ack s
  | .creditAuditReceive link occupancy => Sys2Proof.Machine.execCreditAuditReceive link occupancy s
  | .forwardStoredMessage hop index => Sys2Proof.Machine.execForwardStoredMessage hop index s
  | .noRouteDiscard hop index => Sys2Proof.Machine.execNoRouteDiscard hop index s
  | .heartbeatSend => Sys2Proof.Machine.execHeartbeatSend s
  | .heartbeatReceive member podId => Sys2Proof.Machine.execHeartbeatReceive member podId s
  | .memberHeartbeatTimeout member => Sys2Proof.Machine.execMemberHeartbeatTimeout member s
  | .timeRequestSend t1 => Sys2Proof.Machine.execTimeRequestSend t1 s
  | .timeRequestReceive member t1 t2 t3 => Sys2Proof.Machine.execTimeRequestReceive member t1 t2 t3 s
  | .timeResponseReceive t1 t2 t3 t4 parentOffset => Sys2Proof.Machine.execTimeResponseReceive t1 t2 t3 t4 parentOffset s
  | .timeResponseTimeout => Sys2Proof.Machine.execTimeResponseTimeout s
  | .limiterInterval activity => Sys2Proof.Machine.execLimiterInterval activity s
  | .allowanceWindowStart core formats => Sys2Proof.Machine.execAllowanceWindowStart core formats s
  | .correctionUpdate die sensedW modelW => Sys2Proof.Machine.execCorrectionUpdate die sensedW modelW s
  | .governorTrim meanW => Sys2Proof.Machine.execGovernorTrim meanW s
  | .governorHeartbeat master => Sys2Proof.Machine.execGovernorHeartbeat master s
  | .governorClamp => Sys2Proof.Machine.execGovernorClamp s
  | .droopDetect die => Sys2Proof.Machine.execDroopDetect die s
  | .droopRelease die => Sys2Proof.Machine.execDroopRelease die s
  | .tulleInterval die currentMa stalled => Sys2Proof.Machine.execTulleInterval die currentMa stalled s
  | .voltagePointAdjust die => Sys2Proof.Machine.execVoltagePointAdjust die s
  | .regulatorCommand master die cmd => Sys2Proof.Machine.execRegulatorCommand master die cmd s
  | .phaseFailure rail phase => Sys2Proof.Machine.execPhaseFailure rail phase s
  | .currentSenseExcluded die cause => Sys2Proof.Machine.execCurrentSenseExcluded die cause s
  | .thermalSample die sensors hbm => Sys2Proof.Machine.execThermalSample die sensors hbm s
  | .coolantSample inlet outlet meanW => Sys2Proof.Machine.execCoolantSample inlet outlet meanW s
  | .thermalTrip place index reading => Sys2Proof.Machine.execThermalTrip place index reading s
  | .thermalHoldRelease dies hbm outlet => Sys2Proof.Machine.execThermalHoldRelease dies hbm outlet s
  | .telemetryRefresh t => Sys2Proof.Machine.execTelemetryRefresh t s
  | .complexHeartbeatWrite master => Sys2Proof.Machine.execComplexHeartbeatWrite master s
  | .complexFailure fatalReport => Sys2Proof.Machine.execComplexFailure fatalReport s
  | .complexRestart ok => Sys2Proof.Machine.execComplexRestart ok s
  | .adoption audit => Sys2Proof.Machine.execAdoption audit s
  | .standbyRestart ok => Sys2Proof.Machine.execStandbyRestart ok s
  | .ownershipRequest first line others => Sys2Proof.Machine.execOwnershipRequest first line others s
  | .lineWriteback line notice requests => Sys2Proof.Machine.execLineWriteback line notice requests s
  | .correctedError u => Sys2Proof.Machine.execCorrectedError u s
  | .uncorrectableError e => Sys2Proof.Machine.execUncorrectableError e s
  | .quadSpareMap die quad => Sys2Proof.Machine.execQuadSpareMap die quad s
  | .meshLaneGroupFailure edge dir group => Sys2Proof.Machine.execMeshLaneGroupFailure edge dir group s
  | .meshEdgeFailure edge => Sys2Proof.Machine.execMeshEdgeFailure edge s
  | .audit found => Sys2Proof.Machine.execAudit found s
  | .cometRecordWrite => Sys2Proof.Machine.execCometRecordWrite s
  | .fatalError cause => Sys2Proof.Machine.execFatalError cause s
  | .pldmFirmwareUpdate set => Sys2Proof.Machine.execPldmFirmwareUpdate set s
  | .spdmRequest code => Sys2Proof.Machine.execSpdmRequest code s
  | .coreStopTimeout core => Sys2Proof.Machine.execCoreStopTimeout core s
  | .standbyComplexFailure => Sys2Proof.Machine.execStandbyComplexFailure s
  | .perstDeassert port => Sys2Proof.Machine.execPerstDeassert port s
  | .tdispRequest vf state => Sys2Proof.Machine.execTdispRequest vf state s
  | .ideKmRequest port stream key => Sys2Proof.Machine.execIdeKmRequest port stream key s

end Sys2Proof.Machine
end

