-- ==== Sys2Proof/Safety.lean ====
section
/-! DEFINITION. What a safe run is: no step of it stops, and the stores keep their form. With it the terms in which statements
speak: when a command is accepted, and what it is answered. -/

namespace Sys2Proof

/-- A command answers a next state in a state. -/
def Completes (c : Instr) (s : Machine.State) : Prop := ∃ t, Machine.exec c s = .next t

/-- Every command that waits has a next state wherever it comes to run. -/
def Safe (s : Machine.State) : Prop := ∀ k, ∃ t, core.run k s = .next t

namespace Machine

/-- The Supervisor takes a Phoger command of a sender for this device, no earlier one of its channel waits to commit, and checks 1 to 7 of
R149 pass (R148, R149, R151). -/
def State.admits (s : State) (h : CmdHdr) (c : Command) : Prop :=
  s.takes h.sender (cmdAny c) = true ∧ h.sender ≠ .gone ∧ s.checkSender h c = none ∧ s.isSelf h.target = true ∧
    s.checkState c = true ∧ s.channelWaits h.sender = false

/-- A deferred command accepted: outstanding, journalled and answered with ST_ACCEPTED, and the read of the host buffer that it names asked
for (R115, R146, R153). -/
def State.acceptCmd (s : State) (h : CmdHdr) (c : Command) : State :=
  (({ s with cx := { s.cx with deferred := s.cx.deferred ++ [Deferred.mk s.cx.nextId h c] } }.journal h (cmdOpcode c) (some c) true ST_ACCEPTED
    []).answer h (cmdOpcode c) 2 ST_ACCEPTED []).askFor h c

/-- The one answer queued between two states is a command's reply with a status (R145, R155). -/
def State.replied (s t : State) (h : CmdHdr) (c : Command) (status : Nat) : Prop :=
  t.cx.answers = s.cx.answers ++ [Answer.mk h.sender 2 (cmdOpcode c) h status []]

/-- It is a slot operation's turn on a core: the core may issue, and the bundle at its program counter holds the operation as the next that
has to execute (R244, R246). -/
def State.slotTurn (s : State) (c : SlotCtx) (k : SlotKey) (b : Nat) : Prop :=
  s.mayIssue c.core = true ∧ (s.core c.core).here = some b ∧ (liveSlots b).isEmpty = false ∧
    nextSlot b (s.core c.core).slots k.slot = true ∧ k.fits c (slotWord b k.slot) = true ∧ moreSlots b k.slot = c.more

/-- A slot operation's bundle issues: it is the operation's turn, the core's die is ACTIVE, and nothing holds the bundle back (R244). -/
def State.slotIssues (s : State) (c : SlotCtx) (k : SlotKey) (b : Nat) : Prop :=
  s.slotTurn c k b ∧ (s.die (c.core / 64)).power = .active ∧ ((s.core c.core).issue = none → s.holdsBundle c.core b = none)

/-- A core is ready to execute a slot operation: its bundle issues, and the predicate lets the slot go (R244, R246). -/
def State.slotReady (s : State) (c : SlotCtx) (k : SlotKey) (b : Nat) : Prop :=
  s.slotIssues c k b ∧ (s.core c.core).src.goes c.pred c.pneg = true

/-- The state in which a slot's effect works: its bundle is in issue, and the core is awake (R30). -/
def State.inIssue (s : State) (n : Nat) : State :=
  s.setCore n fun y => { y with issue := some y.src, waiting := false, power := .active, lastIssue := s.aon.clock }

/-- Between two states nothing has changed outside core `n`. -/
def State.coreOnly (s t : State) (n : Nat) : Prop :=
  t = { s with fleet := { s.fleet with cores := t.fleet.cores } } ∧ ∀ m, m ≠ n → t.core m = s.core m

/-- Between two states nothing has changed outside core `n` but device memory, the records of the device and the free values drawn. -/
def State.coreAndMem (s t : State) (n : Nat) : Prop :=
  t = { s with drawn := t.drawn, aon := t.aon, mem := t.mem, fleet := { s.fleet with cores := t.fleet.cores } } ∧
    ∀ m, m ≠ n → t.core m = s.core m

/-- Between two states of a core its registers have changed at most, and what the issue of a bundle changes: program counter and branch,
loops, slots done, the registers read at issue, bundles counted and their recent writes, and the core awake (R30, R244, R249). -/
def CoreSt.sameButRegs (x y : CoreSt) : Prop :=
  y = { x with regs := y.regs, issue := y.issue, pc := y.pc, branch := y.branch, loops := y.loops, slots := y.slots, bundles := y.bundles,
               recent := y.recent, waiting := y.waiting, power := y.power, lastIssue := y.lastIssue }

/-- A register file after a write of x register `i`; x0 stays zero (R246). -/
def CoreRegs.wroteX (r r' : CoreRegs) (i v : Nat) : Prop :=
  r'.x? i = (if i = 0 then 0 else v % 2 ^ 64) ∧ (∀ j, j ≠ i → r'.x? j = r.x? j) ∧ r'.p = r.p ∧ r'.v = r.v

/-- A register file after a write of vector register `i`. -/
def CoreRegs.wroteV (r r' : CoreRegs) (i : Nat) (v : List Lane) : Prop :=
  r'.v? i = v ∧ (∀ j, j % 32 ≠ i % 32 → r'.v? j = r.v? j) ∧ r'.x = r.x ∧ r'.p = r.p

/-- A slot operation has written one x register, and nothing else that the spec names. -/
def State.slotX (s t : State) (n i v : Nat) : Prop :=
  s.coreOnly t n ∧ (s.core n).sameButRegs (t.core n) ∧ (s.core n).regs.wroteX (t.core n).regs i v

/-- A slot operation has written one vector register, and nothing else that the spec names. -/
def State.slotV (s t : State) (n i : Nat) (v : List Lane) : Prop :=
  s.coreOnly t n ∧ (s.core n).sameButRegs (t.core n) ∧ (s.core n).regs.wroteV (t.core n).regs i v

/-- A load has brought the value of its bytes to an x register, or a free value where its address is not aligned (log entry 16). -/
def State.loadedX (s t : State) (n i : Nat) (aligned : Prop) (v : Nat) : Prop :=
  (aligned → s.slotX t n i v) ∧ (¬aligned → { s with drawn := s.drawn + 1 }.slotX t n i (Config.freeValue s.drawn))

/-- A load has brought its lanes to a vector register, or free values where its address is not aligned (log entry 16). -/
def State.loadedV (s t : State) (n i : Nat) (aligned : Prop) (v : List Lane) : Prop :=
  (aligned → s.slotV t n i v) ∧ (¬aligned → ∃ w, w.length = v.length ∧ { s with drawn := s.drawn + v.length }.slotV t n i w)

/-- A descriptor stands at the head of a working engine's queue, its step is served and its header keeps R272. -/
def State.engineReady (s : State) (e : Eng) (d : QDesc) (rest : List QDesc) (t : StepRec) : Prop :=
  (s.engine e.die e.idx).queue = d :: rest ∧ s.engineRuns e = true ∧ s.step? d.queue d.step = some t ∧
    t.served ((s.engine e.die e.idx).inHand == some d) = true ∧ d.headerOk = true

/-- A descriptor that has done its work leaves its engine (R271, R273). -/
def State.finishDesc (s : State) (e : Eng) (d : QDesc) : State := ((s.popDesc e d).completeDesc e d).settleStep d.queue d.step

/-- Operands of a descriptor, by address and length, are read one after another: the state after the reads, and their bytes. -/
def readsTo (e : Eng) (t : StepRec) : List (Nat × Nat) → State → State → List (List Byte) → Prop
  | [], s, s', bs => s' = s ∧ bs = []
  | x :: r, s, s', bs => ∃ s1 b bs', bs = b :: bs' ∧ readsTo e t r s1 s' bs' ∧
      (if x.2 = 0 then s1 = s ∧ b = []
       else s.readVa e.unit t.ctag x.1 x.2 1 (.engine e.die e.idx) (some (t.queue, t.index)) e.agentKind e.agent = .bytes s1 b)

/-- Destinations of a descriptor are translated one after another, none of them on a die that a reset holds (R82): the state after the
translations, and their parts. -/
def destsTo (e : Eng) (t : StepRec) : List (Nat × Nat) → State → State → List (List Part) → Prop
  | [], s, s', ps => s' = s ∧ ps = []
  | x :: r, s, s', ps => ∃ s1 p ps', ps = p :: ps' ∧ destsTo e t r s1 s' ps' ∧
      (if x.2 = 0 then s1 = s ∧ p = []
       else s.stage e.unit t.ctag x.1 x.2 2 (some (t.queue, t.index)) e.agentKind e.agent = .ok s1 p ∧ s1.resetHit p = false)

/-- Between two states nothing has changed but the complexes' record of commands (R115, R144): journal, deferred commands and
answers. -/
def State.sameButCx (s t : State) : Prop := t = { s with cx := t.cx }

end Machine

end Sys2Proof
end

