-- ==== Sys2Proof/WellFormed.lean ====
section
/-! DEFINITION. Which commands are well formed: their operands lie within the widths and counts that the spec gives them (R18–R22, R144,
R168, R232–R249, R297–R305). -/

namespace Sys2Proof

open Machine

/-! ## Operands of more than one field -/

/-- The fields of a message header within their widths (R144), from a sender that exists. -/
def CmdHdr.wellFormed (h : CmdHdr) : Bool :=
  decide (h.tag < 2 ^ 32 ∧ h.major < 256 ∧ h.minor < 256 ∧ h.target < 256) && (match h.sender with
    | .host f => decide (f < 256)
    | .bmc => true
    | .relay f => decide (f < 257)
    | .gone => false)

/-- A master identity of 16 bits and a host port (R27, R103). -/
def Access.wellFormed (a : Access) : Bool := decide (a.master < 65536 ∧ a.port < 2)

/-- A Function Unit lane: die, instance and lane (R312). -/
def FuLane.wellFormed (u : FuLane) : Bool := decide (u.die < 8 ∧ u.inst < 8 ∧ u.lane < 64)

/-- A unit that exists (R18, R22, R241, R362, R542). -/
def UnitRef.wellFormed (u : UnitRef) : Bool :=
  match u with
  | .core n => decide (n < 512)
  | .slice d s => decide (d < 8 ∧ s < 48)
  | .die d => decide (d < 8)
  | .quad d q => decide (d < 8 ∧ q < 16)
  | .engine d i => decide (d < 8 ∧ i < 26)
  | .channel h c => decide (h < 32 ∧ c < 32)
  | .half h => decide (h < 32)
  | .rowBlock d s r => decide (d < 8 ∧ s < 48 ∧ r < 512)
  | .laneGroup e d g => decide (e < 14 ∧ d < 2 ∧ g < 17)
  | .edge e => decide (e < 14)
  | .link l => decide (l < 18)
  | .ioDie i => decide (i < 2)

/-- The fields of an identity record within their widths (R469). -/
def IdentRec.wellFormed (r : IdentRec) : Bool :=
  decide (r.serial < 2 ^ 64 ∧ r.podId < 2 ^ 32 ∧ r.planVersion < 2 ^ 32 ∧ r.device < 256 ∧ r.link < 18 ∧ r.rackPos < 16 ∧ r.major < 256
    ∧ r.minor < 256 ∧ r.lowest < 256)

/-- The identifiers of a match within their widths. -/
def SeMatch.wellFormed (m : SeMatch) : Bool := decide (m.function < 256 ∧ m.ctag < 4096 ∧ m.key < 2 ^ 32)

/-- A field's value within its width. -/
def fieldFits (f : Nat × Nat × Int) : Bool := decide (0 ≤ f.2.2 ∧ f.2.2 < 2 ^ f.2.1)

/-- A signed field's value within its width. -/
def signedFits (f : Nat × Nat × Int) : Bool := decide (-(2 ^ (f.2.1 - 1)) ≤ f.2.2 ∧ f.2.2 < 2 ^ (f.2.1 - 1))

/-- A slot operation whose fields lie within their widths and whose word keeps R246. -/
def slotWellFormed (c : SlotCtx) (k : SlotKey) : Bool :=
  decide (c.core < 512 ∧ c.pred < 8) && k.fields.all fieldFits && k.signed.all signedFits && slotValid k.slot (k.word c)

/-! ## The parts of a command -/

/-- The header and the Phoger command that a command of the block is, if it is one. -/
def Instr.phoger (i : Instr) : Option (CmdHdr × Command) :=
  match i with
  | .pwrfailNAssert => none
  | .pwrfailNDeassert => none
  | .mainCeasesGood _ => none
  | .mainGood _ => none
  | .mainSenseBreak => none
  | .hotSwapOvervoltage _ => none
  | .hotSwapOvercurrent _ => none
  | .hotSwapReclose _ _ => none
  | .drainComplete => none
  | .drainForced => none
  | .retainExit => none
  | .mainAbsentInRetain => none
  | .standbyModuleStart => none
  | .holdupExpired => none
  | .vauxCeasesGood _ => none
  | .vauxGoodAgain _ => none
  | .perstAssert _ => none
  | .hostPortLinkDown _ => none
  | .hostPortLinkUp _ => none
  | .alwaysOnPowerOn _ _ _ => none
  | .startPhaseEnd _ => none
  | .startPhaseTimeout => none
  | .keeperHeartbeat => none
  | .leadShareTakeover => none
  | .timebaseTick => none
  | .coreClockSwitch _ => none
  | .idleDemoteGated _ => none
  | .wakeComplete _ => none
  | .powerStateOrder _ _ => none
  | .capsQuery h first => some (h, (.capsQuery first))
  | .settingRead h id => some (h, (.settingRead id))
  | .settingWrite h id value => some (h, (.settingWrite id value))
  | .sitekeyEnrol h key signature => some (h, (.sitekeyEnrol 1 key signature))
  | .sitekeyRemove h token => some (h, (.sitekeyEnrol 2 (zeros 96) token))
  | .sitelayerWrite h source => some (h, (.sitelayerWrite source))
  | .sitelayerWriteCheck _ _ => none
  | .moduleSuspend h => some (h, .moduleSuspend)
  | .moduleResume h => some (h, .moduleResume)
  | .moduleStop h => some (h, .moduleStop)
  | .moduleStart h => some (h, .moduleStart)
  | .moduleResetModule h => some (h, (.moduleReset 1))
  | .moduleResetCold h => some (h, (.moduleReset 2))
  | .dieReset h die => some (h, (.dieReset die))
  | .dieResetComplete _ => none
  | .memGrant h function base length => some (h, (.memGrant function base length))
  | .memRevoke h function base length => some (h, (.memRevoke function base length))
  | .revokeZeroingEnd _ => none
  | .ctxCreate h homePort compat pasid tableBase => some (h, (.ctxCreate homePort compat pasid tableBase))
  | .ctxDestroy h ctag => some (h, (.ctxDestroy ctag))
  | .ctxDestroyComplete _ => none
  | .rangeMap h ctag firstIndex entries => some (h, (.rangeMap ctag firstIndex entries))
  | .rangeInvalidateAll h ctag => some (h, (.rangeInvalidateAll ctag))
  | .invalidationCommit _ => none
  | .keySlotSet h ctag key => some (h, (.keySlotSet ctag key))
  | .stepResume h ctag queue stepIndex => some (h, (.stepResume ctag queue stepIndex))
  | .stepAbort h ctag queue stepIndex => some (h, (.stepAbort ctag queue stepIndex))
  | .stepAbortComplete _ _ => none
  | .qgroupAssign h group ctag function vfPage => some (h, (.qgroupAssign group ctag function vfPage))
  | .qgroupRelease h group => some (h, (.qgroupRelease group))
  | .queueConfigure h queue cls log2Entries ringVa => some (h, (.queueConfigure queue cls log2Entries ringVa))
  | .programLoad h ctag sourceVa length => some (h, (.programLoad ctag sourceVa length))
  | .programLoadCheck _ _ => none
  | .programUnload h ctag program => some (h, (.programUnload ctag program))
  | .poolCreate h pool log2Block tier base length => some (h, (.poolCreate pool log2Block tier base length))
  | .poolDestroy h pool => some (h, (.poolDestroy pool))
  | .kvOffer h r => some (h, (.kvOffer 1 r))
  | .kvOfferCancel h r => some (h, (.kvOffer 2 r))
  | .kvAccept h ctag offer newSequence => some (h, (.kvAccept ctag offer newSequence))
  | .kvHint h ctag pool hint sequence => some (h, (.kvHint ctag pool hint sequence))
  | .epochBegin h model epoch source => some (h, (.epochBegin model epoch source))
  | .epochCommit h model epoch => some (h, (.epochCommit model epoch))
  | .epochCommitCheck _ _ => none
  | .switchReceive _ _ => none
  | .epochAbort h model epoch => some (h, (.epochAbort model epoch))
  | .adapterLoad h ctag adapter rank epoch sourceVa length => some (h, (.adapterLoad ctag adapter rank epoch sourceVa length))
  | .adapterLoadCheck _ _ => none
  | .adapterEpochDrop _ => none
  | .adapterUnload h ctag adapter => some (h, (.adapterUnload ctag adapter))
  | .placementApply h model source => some (h, (.placementApply model source))
  | .placementApplyInstall _ _ _ => none
  | .planLoad h source => some (h, (.planLoad source))
  | .planReceive _ _ => none
  | .planCommit _ => none
  | .planLoadComplete _ => none
  | .portDefine h port linkMask => some (h, (.portDefine port linkMask))
  | .portRemove h port => some (h, (.portRemove port))
  | .podStateSet h podState => some (h, (.podStateSet podState))
  | .podStateReceive _ => none
  | .capSet h cap => some (h, (.capSet cap))
  | .matchedSet h matched => some (h, (.matchedSet matched))
  | .logRead h first count => some (h, (.logRead first count))
  | .dumpRegionSet h region => some (h, (.dumpRegionSet region))
  | .fwStage h source => some (h, (.fwStage source))
  | .fwStageComplete _ _ => none
  | .libraryBankWrite => none
  | .fwActivate h => some (h, .fwActivate)
  | .fwActivateHandover => none
  | .lockClaim _ _ => none
  | .mbxSend _ _ => none
  | .mbxTake _ _ => none
  | .mbxDone _ _ => none
  | .mbxWithdraw _ _ => none
  | .lockRelease _ _ => none
  | .registerWrite _ _ _ _ _ => none
  | .msixUnmask _ _ => none
  | .supervisorTakeMessage => none
  | .replyDelivery _ => none
  | .forwardedCommandReceive _ _ => none
  | .forwardedReplyReceive _ _ _ => none
  | .bmcMctpMessage _ => none
  | .flr _ => none
  | .tdiError _ => none
  | .doorbellWrite _ _ _ _ => none
  | .podWindowDoorbell _ _ _ _ _ => none
  | .relayForward _ => none
  | .forwardedDoorbellReceive _ _ _ _ => none
  | .relayCreditReturn _ => none
  | .mirrorUpdate _ _ _ => none
  | .dispatchRound => none
  | .idleSlotHandover _ => none
  | .classPromotion _ _ => none
  | .descriptorReadComplete _ _ => none
  | .stepLaunch _ _ => none
  | .victimRelaunch _ _ => none
  | .coreEndReport _ => none
  | .rangeWalkComplete _ => none
  | .heldRecordFlush _ => none
  | .hostReadCompletion _ _ _ _ => none
  | .hostCompletionTimeout _ => none
  | .atsTranslationCompletion _ _ _ _ _ => none
  | .atsInvalidationRequest _ _ _ _ => none
  | .fetchComplete _ => none
  | .lds _ _ _ _ _ _ _ => none
  | .sts _ _ _ _ _ _ => none
  | .ldv _ _ _ _ _ => none
  | .stv _ _ _ _ _ => none
  | .ldvs _ _ _ _ _ _ => none
  | .ldt _ _ _ _ _ _ => none
  | .flush _ => none
  | .fence _ => none
  | .touch _ _ _ => none
  | .alu _ _ _ _ _ _ _ => none
  | .li _ _ _ _ _ => none
  | .cmp _ _ _ _ _ _ _ => none
  | .br _ _ _ _ _ => none
  | .loop _ _ _ _ _ _ => none
  | .signal _ _ _ _ _ _ => none
  | .wait _ _ _ _ _ _ => none
  | .setc _ _ _ _ _ => none
  | .arrive _ _ => none
  | .enq _ _ _ _ _ => none
  | .safept _ _ => none
  | .endPart _ => none
  | .rdid _ _ _ _ => none
  | .signalApply _ => none
  | .barrierArrival _ => none
  | .barrierReleaseReceive _ _ => none
  | .gatherBufferWriteback _ _ => none
  | .mldw _ _ _ _ _ _ _ _ _ _ => none
  | .mmul _ _ _ _ _ _ _ _ _ _ => none
  | .mst _ _ _ _ _ _ _ => none
  | .mzero _ _ _ => none
  | .varith _ _ _ _ _ => none
  | .vfma _ _ _ _ _ _ => none
  | .vcmp _ _ _ _ _ => none
  | .vsel _ _ _ _ _ => none
  | .vred _ _ _ _ => none
  | .vcvt _ _ _ _ _ => none
  | .vcvtmx _ _ _ _ _ _ => none
  | .vacc _ _ _ _ => none
  | .vmov _ _ _ => none
  | .fuElementwise _ _ => none
  | .fuFusedGate _ _ => none
  | .fma _ _ _ _ _ _ _ _ => none
  | .ldc _ _ _ => none
  | .rred _ _ _ _ _ => none
  | .tlu _ _ _ _ _ _ => none
  | .horn _ _ _ _ _ => none
  | .fld _ _ _ _ _ _ => none
  | .csel _ _ _ _ _ _ _ _ => none
  | .microEnd _ _ => none
  | .libraryBankRewrite _ _ _ => none
  | .rowUpdate _ _ => none
  | .rowNormalise _ _ => none
  | .rowMerge _ _ => none
  | .moments _ _ => none
  | .normApply _ _ => none
  | .sampleRows _ => none
  | .verifyDrafts _ => none
  | .queueOpen _ _ => none
  | .scatter _ _ => none
  | .queueReleaseNext _ _ => none
  | .queueReleaseClose _ _ => none
  | .returnRows _ _ => none
  | .grantReceive _ => none
  | .grantResend _ => none
  | .slotWriteReceive _ => none
  | .reportReceive _ => none
  | .returnRowReceive _ => none
  | .gather _ _ => none
  | .remoteGatherRequest _ => none
  | .put _ _ => none
  | .alloc _ _ => none
  | .free _ _ => none
  | .share _ _ => none
  | .gate _ _ => none
  | .wload _ _ => none
  | .sendRemoteWrite _ _ => none
  | .sendReduceStream _ _ => none
  | .remoteWriteReceive _ => none
  | .reduce _ _ => none
  | .reduceChunkReceive _ => none
  | .frameScrub _ => none
  | .tierMoveBegin _ _ => none
  | .tierMoveCommit _ _ => none
  | .staleSweep _ => none
  | .patrolScrub _ => none
  | .weightFrameReceive _ _ _ _ _ => none
  | .frameRequestTimeout _ _ _ => none
  | .frameRequestReceive _ _ _ _ => none
  | .frameRequestRound _ => none
  | .layerCopy _ => none
  | .layerCommit _ => none
  | .podLayerCommit _ => none
  | .linkTrainingStageEnd _ => none
  | .linkRetrain _ _ => none
  | .linkRetryTimer _ => none
  | .identityRecordReceive _ _ => none
  | .flitReceive _ _ => none
  | .nakReceive _ _ => none
  | .creditAuditReceive _ _ => none
  | .forwardStoredMessage _ _ => none
  | .noRouteDiscard _ _ => none
  | .heartbeatSend => none
  | .heartbeatReceive _ _ => none
  | .memberHeartbeatTimeout _ => none
  | .timeRequestSend _ => none
  | .timeRequestReceive _ _ _ _ => none
  | .timeResponseReceive _ _ _ _ _ => none
  | .timeResponseTimeout => none
  | .limiterInterval _ => none
  | .allowanceWindowStart _ _ => none
  | .correctionUpdate _ _ _ => none
  | .governorTrim _ => none
  | .governorHeartbeat _ => none
  | .governorClamp => none
  | .droopDetect _ => none
  | .droopRelease _ => none
  | .tulleInterval _ _ _ => none
  | .voltagePointAdjust _ => none
  | .regulatorCommand _ _ _ => none
  | .phaseFailure _ _ => none
  | .currentSenseExcluded _ _ => none
  | .thermalSample _ _ _ => none
  | .coolantSample _ _ _ => none
  | .thermalTrip _ _ _ => none
  | .thermalHoldRelease _ _ _ => none
  | .telemetryRefresh _ => none
  | .complexHeartbeatWrite _ => none
  | .complexFailure _ => none
  | .complexRestart _ => none
  | .adoption _ => none
  | .standbyRestart _ => none
  | .ownershipRequest _ _ _ => none
  | .lineWriteback _ _ _ => none
  | .correctedError _ => none
  | .uncorrectableError _ => none
  | .quadSpareMap _ _ => none
  | .meshLaneGroupFailure _ _ _ => none
  | .meshEdgeFailure _ => none
  | .audit _ => none
  | .cometRecordWrite => none
  | .fatalError _ => none
  | .pldmFirmwareUpdate _ => none
  | .spdmRequest _ => none
  | .coreStopTimeout _ => none
  | .standbyComplexFailure => none
  | .perstDeassert _ => none
  | .tdispRequest _ _ => none
  | .ideKmRequest _ _ _ => none

/-- The core's slot and the encoding that a command of the block is, if it is a slot operation. -/
def Instr.slot (i : Instr) : Option (SlotCtx × SlotKey) :=
  match i with
  | .pwrfailNAssert => none
  | .pwrfailNDeassert => none
  | .mainCeasesGood _ => none
  | .mainGood _ => none
  | .mainSenseBreak => none
  | .hotSwapOvervoltage _ => none
  | .hotSwapOvercurrent _ => none
  | .hotSwapReclose _ _ => none
  | .drainComplete => none
  | .drainForced => none
  | .retainExit => none
  | .mainAbsentInRetain => none
  | .standbyModuleStart => none
  | .holdupExpired => none
  | .vauxCeasesGood _ => none
  | .vauxGoodAgain _ => none
  | .perstAssert _ => none
  | .hostPortLinkDown _ => none
  | .hostPortLinkUp _ => none
  | .alwaysOnPowerOn _ _ _ => none
  | .startPhaseEnd _ => none
  | .startPhaseTimeout => none
  | .keeperHeartbeat => none
  | .leadShareTakeover => none
  | .timebaseTick => none
  | .coreClockSwitch _ => none
  | .idleDemoteGated _ => none
  | .wakeComplete _ => none
  | .powerStateOrder _ _ => none
  | .capsQuery _ _ => none
  | .settingRead _ _ => none
  | .settingWrite _ _ _ => none
  | .sitekeyEnrol _ _ _ => none
  | .sitekeyRemove _ _ => none
  | .sitelayerWrite _ _ => none
  | .sitelayerWriteCheck _ _ => none
  | .moduleSuspend _ => none
  | .moduleResume _ => none
  | .moduleStop _ => none
  | .moduleStart _ => none
  | .moduleResetModule _ => none
  | .moduleResetCold _ => none
  | .dieReset _ _ => none
  | .dieResetComplete _ => none
  | .memGrant _ _ _ _ => none
  | .memRevoke _ _ _ _ => none
  | .revokeZeroingEnd _ => none
  | .ctxCreate _ _ _ _ _ => none
  | .ctxDestroy _ _ => none
  | .ctxDestroyComplete _ => none
  | .rangeMap _ _ _ _ => none
  | .rangeInvalidateAll _ _ => none
  | .invalidationCommit _ => none
  | .keySlotSet _ _ _ => none
  | .stepResume _ _ _ _ => none
  | .stepAbort _ _ _ _ => none
  | .stepAbortComplete _ _ => none
  | .qgroupAssign _ _ _ _ _ => none
  | .qgroupRelease _ _ => none
  | .queueConfigure _ _ _ _ _ => none
  | .programLoad _ _ _ _ => none
  | .programLoadCheck _ _ => none
  | .programUnload _ _ _ => none
  | .poolCreate _ _ _ _ _ _ => none
  | .poolDestroy _ _ => none
  | .kvOffer _ _ => none
  | .kvOfferCancel _ _ => none
  | .kvAccept _ _ _ _ => none
  | .kvHint _ _ _ _ _ => none
  | .epochBegin _ _ _ _ => none
  | .epochCommit _ _ _ => none
  | .epochCommitCheck _ _ => none
  | .switchReceive _ _ => none
  | .epochAbort _ _ _ => none
  | .adapterLoad _ _ _ _ _ _ _ => none
  | .adapterLoadCheck _ _ => none
  | .adapterEpochDrop _ => none
  | .adapterUnload _ _ _ => none
  | .placementApply _ _ _ => none
  | .placementApplyInstall _ _ _ => none
  | .planLoad _ _ => none
  | .planReceive _ _ => none
  | .planCommit _ => none
  | .planLoadComplete _ => none
  | .portDefine _ _ _ => none
  | .portRemove _ _ => none
  | .podStateSet _ _ => none
  | .podStateReceive _ => none
  | .capSet _ _ => none
  | .matchedSet _ _ => none
  | .logRead _ _ _ => none
  | .dumpRegionSet _ _ => none
  | .fwStage _ _ => none
  | .fwStageComplete _ _ => none
  | .libraryBankWrite => none
  | .fwActivate _ => none
  | .fwActivateHandover => none
  | .lockClaim _ _ => none
  | .mbxSend _ _ => none
  | .mbxTake _ _ => none
  | .mbxDone _ _ => none
  | .mbxWithdraw _ _ => none
  | .lockRelease _ _ => none
  | .registerWrite _ _ _ _ _ => none
  | .msixUnmask _ _ => none
  | .supervisorTakeMessage => none
  | .replyDelivery _ => none
  | .forwardedCommandReceive _ _ => none
  | .forwardedReplyReceive _ _ _ => none
  | .bmcMctpMessage _ => none
  | .flr _ => none
  | .tdiError _ => none
  | .doorbellWrite _ _ _ _ => none
  | .podWindowDoorbell _ _ _ _ _ => none
  | .relayForward _ => none
  | .forwardedDoorbellReceive _ _ _ _ => none
  | .relayCreditReturn _ => none
  | .mirrorUpdate _ _ _ => none
  | .dispatchRound => none
  | .idleSlotHandover _ => none
  | .classPromotion _ _ => none
  | .descriptorReadComplete _ _ => none
  | .stepLaunch _ _ => none
  | .victimRelaunch _ _ => none
  | .coreEndReport _ => none
  | .rangeWalkComplete _ => none
  | .heldRecordFlush _ => none
  | .hostReadCompletion _ _ _ _ => none
  | .hostCompletionTimeout _ => none
  | .atsTranslationCompletion _ _ _ _ _ => none
  | .atsInvalidationRequest _ _ _ _ => none
  | .fetchComplete _ => none
  | .lds c dst base space size sext offset => some (c, ldsKey dst base space size sext offset)
  | .sts c src base space size offset => some (c, stsKey src base space size offset)
  | .ldv c dst base space offset => some (c, ldvKey dst base space offset)
  | .stv c src base space offset => some (c, stvKey src base space offset)
  | .ldvs c dst base esize stride offset => some (c, ldvsKey dst base esize stride offset)
  | .ldt c dst src esize spitch dpitch => some (c, ldtKey dst src esize spitch dpitch)
  | .flush c => some (c, flushKey)
  | .fence c => some (c, fenceKey)
  | .touch c base offset => some (c, touchKey base offset)
  | .alu c fn dst a b useImm imm => some (c, aluKey fn dst a b useImm imm)
  | .li c dst part keep imm16 => some (c, liKey dst part keep imm16)
  | .cmp c pdst cond a b useImm imm => some (c, cmpKey pdst cond a b useImm imm)
  | .br c link target indirect offset => some (c, brKey link target indirect offset)
  | .loop c lc count useImm endOff countImm => some (c, loopKey lc count useImm endOff countImm)
  | .signal c handle bank whr x value => some (c, signalKey handle bank whr x value)
  | .wait c handle mode x useImm imm => some (c, waitKey handle mode x useImm imm)
  | .setc c handle x useImm imm => some (c, setcKey handle x useImm imm)
  | .arrive c handle => some (c, arriveKey handle)
  | .enq c engine inst x len => some (c, enqKey engine inst x len)
  | .safept c liveSet => some (c, safeptKey liveSet)
  | .endPart c => some (c, endPartKey)
  | .rdid c dst which word => some (c, rdidKey dst which word)
  | .signalApply _ => none
  | .barrierArrival _ => none
  | .barrierReleaseReceive _ _ => none
  | .gatherBufferWriteback _ _ => none
  | .mldw c base sbase fmt scaled transp kc pitch ncols kvalid => some (c, mldwKey base sbase fmt scaled transp kc pitch ncols kvalid)
  | .mmul c abase asbase afmt ascaled swap zero apitch acc rows => some (c, mmulKey abase asbase afmt ascaled swap zero apitch acc rows)
  | .mst c dbase acc ofmt clear dpitch rows => some (c, mstKey dbase acc ofmt clear dpitch rows)
  | .mzero c acc rows => some (c, mzeroKey acc rows)
  | .varith c vd va vb fn => some (c, varithKey vd va vb fn)
  | .vfma c vd va vb vc fn => some (c, vfmaKey vd va vb vc fn)
  | .vcmp c vd va vb fn => some (c, vcmpKey vd va vb fn)
  | .vsel c vd va vb vc => some (c, vselKey vd va vb vc)
  | .vred c vd va fn => some (c, vredKey vd va fn)
  | .vcvt c vd va fn half => some (c, vcvtKey vd va fn half)
  | .vcvtmx c vd va vb vc fn => some (c, vcvtmxKey vd va vb vc fn)
  | .vacc c vd fn acc => some (c, vaccKey vd fn acc)
  | .vmov c vd imm => some (c, vmovKey vd imm)
  | .fuElementwise _ _ => none
  | .fuFusedGate _ _ => none
  | .fma _ _ _ _ _ _ _ _ => none
  | .ldc _ _ _ => none
  | .rred _ _ _ _ _ => none
  | .tlu _ _ _ _ _ _ => none
  | .horn _ _ _ _ _ => none
  | .fld _ _ _ _ _ _ => none
  | .csel _ _ _ _ _ _ _ _ => none
  | .microEnd _ _ => none
  | .libraryBankRewrite _ _ _ => none
  | .rowUpdate _ _ => none
  | .rowNormalise _ _ => none
  | .rowMerge _ _ => none
  | .moments _ _ => none
  | .normApply _ _ => none
  | .sampleRows _ => none
  | .verifyDrafts _ => none
  | .queueOpen _ _ => none
  | .scatter _ _ => none
  | .queueReleaseNext _ _ => none
  | .queueReleaseClose _ _ => none
  | .returnRows _ _ => none
  | .grantReceive _ => none
  | .grantResend _ => none
  | .slotWriteReceive _ => none
  | .reportReceive _ => none
  | .returnRowReceive _ => none
  | .gather _ _ => none
  | .remoteGatherRequest _ => none
  | .put _ _ => none
  | .alloc _ _ => none
  | .free _ _ => none
  | .share _ _ => none
  | .gate _ _ => none
  | .wload _ _ => none
  | .sendRemoteWrite _ _ => none
  | .sendReduceStream _ _ => none
  | .remoteWriteReceive _ => none
  | .reduce _ _ => none
  | .reduceChunkReceive _ => none
  | .frameScrub _ => none
  | .tierMoveBegin _ _ => none
  | .tierMoveCommit _ _ => none
  | .staleSweep _ => none
  | .patrolScrub _ => none
  | .weightFrameReceive _ _ _ _ _ => none
  | .frameRequestTimeout _ _ _ => none
  | .frameRequestReceive _ _ _ _ => none
  | .frameRequestRound _ => none
  | .layerCopy _ => none
  | .layerCommit _ => none
  | .podLayerCommit _ => none
  | .linkTrainingStageEnd _ => none
  | .linkRetrain _ _ => none
  | .linkRetryTimer _ => none
  | .identityRecordReceive _ _ => none
  | .flitReceive _ _ => none
  | .nakReceive _ _ => none
  | .creditAuditReceive _ _ => none
  | .forwardStoredMessage _ _ => none
  | .noRouteDiscard _ _ => none
  | .heartbeatSend => none
  | .heartbeatReceive _ _ => none
  | .memberHeartbeatTimeout _ => none
  | .timeRequestSend _ => none
  | .timeRequestReceive _ _ _ _ => none
  | .timeResponseReceive _ _ _ _ _ => none
  | .timeResponseTimeout => none
  | .limiterInterval _ => none
  | .allowanceWindowStart _ _ => none
  | .correctionUpdate _ _ _ => none
  | .governorTrim _ => none
  | .governorHeartbeat _ => none
  | .governorClamp => none
  | .droopDetect _ => none
  | .droopRelease _ => none
  | .tulleInterval _ _ _ => none
  | .voltagePointAdjust _ => none
  | .regulatorCommand _ _ _ => none
  | .phaseFailure _ _ => none
  | .currentSenseExcluded _ _ => none
  | .thermalSample _ _ _ => none
  | .coolantSample _ _ _ => none
  | .thermalTrip _ _ _ => none
  | .thermalHoldRelease _ _ _ => none
  | .telemetryRefresh _ => none
  | .complexHeartbeatWrite _ => none
  | .complexFailure _ => none
  | .complexRestart _ => none
  | .adoption _ => none
  | .standbyRestart _ => none
  | .ownershipRequest _ _ _ => none
  | .lineWriteback _ _ _ => none
  | .correctedError _ => none
  | .uncorrectableError _ => none
  | .quadSpareMap _ _ => none
  | .meshLaneGroupFailure _ _ _ => none
  | .meshEdgeFailure _ => none
  | .audit _ => none
  | .cometRecordWrite => none
  | .fatalError _ => none
  | .pldmFirmwareUpdate _ => none
  | .spdmRequest _ => none
  | .coreStopTimeout _ => none
  | .standbyComplexFailure => none
  | .perstDeassert _ => none
  | .tdispRequest _ _ => none
  | .ideKmRequest _ _ _ => none

/-- A request for a line, of one of the six cores (R106). -/
def OwnRequest.wellFormed (r : OwnRequest) : Bool :=
  decide (r.core < 6 ∧ r.kind < 3) && (match r.store with
  | some b => r.kind != 2 && b.length == 64
  | none => true)

/-- The numbers of the other commands' operands. -/
def Instr.numbersFit (i : Instr) : Bool :=
  match i with
  | .pwrfailNAssert => true
  | .pwrfailNDeassert => true
  | .mainCeasesGood _ => true
  | .mainGood _ => true
  | .mainSenseBreak => true
  | .hotSwapOvervoltage _ => true
  | .hotSwapOvercurrent _ => true
  | .hotSwapReclose _ _ => true
  | .drainComplete => true
  | .drainForced => true
  | .retainExit => true
  | .mainAbsentInRetain => true
  | .standbyModuleStart => true
  | .holdupExpired => true
  | .vauxCeasesGood _ => true
  | .vauxGoodAgain _ => true
  | .perstAssert port => decide (port < 2)
  | .hostPortLinkDown loss => decide (loss.port < 2)
  | .hostPortLinkUp port => decide (port < 2)
  | .alwaysOnPowerOn _ _ _ => true
  | .startPhaseEnd _ => true
  | .startPhaseTimeout => true
  | .keeperHeartbeat => true
  | .leadShareTakeover => true
  | .timebaseTick => true
  | .coreClockSwitch die => decide (die < 8)
  | .idleDemoteGated core => decide (core < 512)
  | .wakeComplete u => u.wellFormed
  | .powerStateOrder u _ => u.wellFormed
  | .capsQuery _ _ => true
  | .settingRead _ _ => true
  | .settingWrite _ _ _ => true
  | .sitekeyEnrol _ _ _ => true
  | .sitekeyRemove _ _ => true
  | .sitelayerWrite _ _ => true
  | .sitelayerWriteCheck _ _ => true
  | .moduleSuspend _ => true
  | .moduleResume _ => true
  | .moduleStop _ => true
  | .moduleStart _ => true
  | .moduleResetModule _ => true
  | .moduleResetCold _ => true
  | .dieReset _ _ => true
  | .dieResetComplete die => decide (die < 8)
  | .memGrant _ _ _ _ => true
  | .memRevoke _ _ _ _ => true
  | .revokeZeroingEnd _ => true
  | .ctxCreate _ _ _ _ _ => true
  | .ctxDestroy _ _ => true
  | .ctxDestroyComplete ctag => decide (ctag < 4096)
  | .rangeMap _ _ _ _ => true
  | .rangeInvalidateAll _ _ => true
  | .invalidationCommit ctag => decide (ctag < 4096)
  | .keySlotSet _ _ _ => true
  | .stepResume _ _ _ _ => true
  | .stepAbort _ _ _ _ => true
  | .stepAbortComplete queue _ => decide (queue < 65536)
  | .qgroupAssign _ _ _ _ _ => true
  | .qgroupRelease _ _ => true
  | .queueConfigure _ _ _ _ _ => true
  | .programLoad _ _ _ _ => true
  | .programLoadCheck _ _ => true
  | .programUnload _ _ _ => true
  | .poolCreate _ _ _ _ _ _ => true
  | .poolDestroy _ _ => true
  | .kvOffer _ _ => true
  | .kvOfferCancel _ _ => true
  | .kvAccept _ _ _ _ => true
  | .kvHint _ _ _ _ _ => true
  | .epochBegin _ _ _ _ => true
  | .epochCommit _ _ _ => true
  | .epochCommitCheck _ _ => true
  | .switchReceive model _ => decide (model < 16)
  | .epochAbort _ _ _ => true
  | .adapterLoad _ _ _ _ _ _ _ => true
  | .adapterLoadCheck _ _ => true
  | .adapterEpochDrop _ => true
  | .adapterUnload _ _ _ => true
  | .placementApply _ _ _ => true
  | .placementApplyInstall _ _ _ => true
  | .planLoad _ _ => true
  | .planReceive _ _ => true
  | .planCommit _ => true
  | .planLoadComplete _ => true
  | .portDefine _ _ _ => true
  | .portRemove _ _ => true
  | .podStateSet _ _ => true
  | .podStateReceive podState => decide (podState < 4)
  | .capSet _ _ => true
  | .matchedSet _ _ => true
  | .logRead _ _ _ => true
  | .dumpRegionSet _ _ => true
  | .fwStage _ _ => true
  | .fwStageComplete _ _ => true
  | .libraryBankWrite => true
  | .fwActivate _ => true
  | .fwActivateHandover => true
  | .lockClaim a r =>
    a.wellFormed && decide (r.channel < 544 ∧ (r.size = 1 ∨ r.size = 2 ∨ r.size = 4 ∨ r.size = 8) ∧ r.off % r.size = 0 ∧
      r.off + r.size ≤ 8)
  | .mbxSend a channel => a.wellFormed && decide (channel < 544)
  | .mbxTake a channel => a.wellFormed && decide (channel < 544)
  | .mbxDone a channel => a.wellFormed && decide (channel < 544)
  | .mbxWithdraw a channel => a.wellFormed && decide (channel < 544)
  | .lockRelease a channel => a.wellFormed && decide (channel < 544)
  | .registerWrite a bar _ size value => a.wellFormed && decide ((bar = 0 ∨ bar = 2 ∨ bar = 4 ∨ bar = 8) ∧ (size = 1 ∨ size = 2 ∨ size = 4 ∨ size = 8) ∧ value < 2 ^ (8 * size))
  | .msixUnmask function _ => decide (function < 256)
  | .supervisorTakeMessage => true
  | .replyDelivery _ => true
  | .forwardedCommandReceive function _ => decide (function < 257)
  | .forwardedReplyReceive member function _ => decide (member < 64 ∧ function < 257)
  | .bmcMctpMessage _ => true
  | .flr function => decide (function < 256)
  | .tdiError vf => decide (1 ≤ vf ∧ vf < 256)
  | .doorbellWrite a page entry _ => a.wellFormed && decide (page < 1024 ∧ entry < 64)
  | .podWindowDoorbell a member page entry _ => a.wellFormed && decide (member < 64 ∧ page < 1024 ∧ entry < 64)
  | .relayForward member => decide (member < 64)
  | .forwardedDoorbellReceive master queue _ ioDie => decide (master < 65536 ∧ queue < 65536 ∧ ioDie < 2)
  | .relayCreditReturn member => decide (member < 64)
  | .mirrorUpdate member queue _ => decide (member < 64 ∧ queue < 65536)
  | .dispatchRound => true
  | .idleSlotHandover queue => decide (queue < 65536)
  | .classPromotion queue _ => decide (queue < 65536)
  | .descriptorReadComplete queue _ => decide (queue < 65536)
  | .stepLaunch queue _ => decide (queue < 65536)
  | .victimRelaunch queue _ => decide (queue < 65536)
  | .coreEndReport core => decide (core < 512)
  | .rangeWalkComplete _ => true
  | .heldRecordFlush function => decide (function < 256)
  | .hostReadCompletion _ _ _ _ => true
  | .hostCompletionTimeout _ => true
  | .atsTranslationCompletion port _ _ _ _ => decide (port < 2)
  | .atsInvalidationRequest port _ _ _ => decide (port < 2)
  | .fetchComplete core => decide (core < 512)
  | .lds _ _ _ _ _ _ _ => true
  | .sts _ _ _ _ _ _ => true
  | .ldv _ _ _ _ _ => true
  | .stv _ _ _ _ _ => true
  | .ldvs _ _ _ _ _ _ => true
  | .ldt _ _ _ _ _ _ => true
  | .flush _ => true
  | .fence _ => true
  | .touch _ _ _ => true
  | .alu _ _ _ _ _ _ _ => true
  | .li _ _ _ _ _ => true
  | .cmp _ _ _ _ _ _ _ => true
  | .br _ _ _ _ _ => true
  | .loop _ _ _ _ _ _ => true
  | .signal _ _ _ _ _ _ => true
  | .wait _ _ _ _ _ _ => true
  | .setc _ _ _ _ _ => true
  | .arrive _ _ => true
  | .enq _ _ _ _ _ => true
  | .safept _ _ => true
  | .endPart _ => true
  | .rdid _ _ _ _ => true
  | .signalApply _ => true
  | .barrierArrival _ => true
  | .barrierReleaseReceive die m => decide (die < 8 ∧ m.function < 256 ∧ m.ctag < 4096 ∧ m.level < 3)
  | .gatherBufferWriteback core line => decide (core < 512 ∧ line < 32768)
  | .mldw _ _ _ _ _ _ _ _ _ _ => true
  | .mmul _ _ _ _ _ _ _ _ _ _ => true
  | .mst _ _ _ _ _ _ _ => true
  | .mzero _ _ _ => true
  | .varith _ _ _ _ _ => true
  | .vfma _ _ _ _ _ _ => true
  | .vcmp _ _ _ _ _ => true
  | .vsel _ _ _ _ _ => true
  | .vred _ _ _ _ => true
  | .vcvt _ _ _ _ _ => true
  | .vcvtmx _ _ _ _ _ _ => true
  | .vacc _ _ _ _ => true
  | .vmov _ _ _ => true
  | .fuElementwise die inst => decide (die < 8 ∧ inst < 8)
  | .fuFusedGate die inst => decide (die < 8 ∧ inst < 8)
  | .fma u d a b c _ _ _ => u.wellFormed && decide (d < 8 ∧ a < 8 ∧ b < 8 ∧ c < 8)
  | .ldc u d i => u.wellFormed && decide (d < 8 ∧ i < 1024)
  | .rred u d a c k => u.wellFormed && decide (d < 8 ∧ a < 8 ∧ c < 8 ∧ k < 1024)
  | .tlu u d a t h w => u.wellFormed && decide (d < 8 ∧ a < 8 ∧ t < 4 ∧ h < 32 ∧ 1 ≤ w ∧ w ≤ 10)
  | .horn u d a n k => u.wellFormed && decide (d < 8 ∧ a < 8 ∧ 1 ≤ n ∧ n ≤ 16 ∧ k < 1024)
  | .fld u d a b fn h => u.wellFormed && decide (d < 8 ∧ a < 8 ∧ b < 8 ∧ fn ≤ 9 ∧ h < 32)
  | .csel u d a b c _ n i => u.wellFormed && decide (d < 8 ∧ a < 8 ∧ b < 8 ∧ c < 8 ∧ n ≤ 5 ∧ i < 1024)
  | .microEnd u a => u.wellFormed && decide (a < 8)
  | .libraryBankRewrite die inst bank => decide (die < 8 ∧ inst < 8 ∧ bank < 2)
  | .rowUpdate die inst => decide (die < 8 ∧ inst < 4)
  | .rowNormalise die inst => decide (die < 8 ∧ inst < 4)
  | .rowMerge die inst => decide (die < 8 ∧ inst < 4)
  | .moments die inst => decide (die < 8 ∧ inst < 4)
  | .normApply die inst => decide (die < 8 ∧ inst < 4)
  | .sampleRows die => decide (die < 8)
  | .verifyDrafts die => decide (die < 8)
  | .queueOpen die inst => decide (die < 8 ∧ inst < 2)
  | .scatter die inst => decide (die < 8 ∧ inst < 2)
  | .queueReleaseNext die inst => decide (die < 8 ∧ inst < 2)
  | .queueReleaseClose die inst => decide (die < 8 ∧ inst < 2)
  | .returnRows die inst => decide (die < 8 ∧ inst < 2)
  | .grantReceive g => g.m.wellFormed && decide (g.granter < 64)
  | .grantResend _ => true
  | .slotWriteReceive w => w.m.wellFormed && decide (w.source < 64)
  | .reportReceive r => r.m.wellFormed && decide (r.source < 64)
  | .returnRowReceive r => r.m.wellFormed && decide (r.source < 64)
  | .gather die mover => decide (die < 8 ∧ mover < 8)
  | .remoteGatherRequest r => decide (r.requester < 64 ∧ r.function < 256 ∧ r.ctag < 4096)
  | .put die mover => decide (die < 8 ∧ mover < 8)
  | .alloc die mover => decide (die < 8 ∧ mover < 8)
  | .free die mover => decide (die < 8 ∧ mover < 8)
  | .share die mover => decide (die < 8 ∧ mover < 8)
  | .gate die mover => decide (die < 8 ∧ mover < 8)
  | .wload die mover => decide (die < 8 ∧ mover < 8)
  | .sendRemoteWrite die mover => decide (die < 8 ∧ mover < 8)
  | .sendReduceStream die mover => decide (die < 8 ∧ mover < 8)
  | .remoteWriteReceive w => decide (w.source < 64 ∧ w.function < 256 ∧ w.ctag < 4096)
  | .reduce die inst => decide (die < 8 ∧ inst < 2)
  | .reduceChunkReceive c => decide (c.source < 64 ∧ c.function < 256 ∧ c.ctag < 4096)
  | .frameScrub pool => decide (pool < 64)
  | .tierMoveBegin pool _ => decide (pool < 64)
  | .tierMoveCommit pool _ => decide (pool < 64)
  | .staleSweep pool => decide (pool < 64)
  | .patrolScrub _ => true
  | .weightFrameReceive model shard _ _ _ => decide (model < 16 ∧ shard < 16384)
  | .frameRequestTimeout model shard _ => decide (model < 16 ∧ shard < 16384)
  | .frameRequestReceive source model shard _ => decide (source < 64 ∧ model < 16 ∧ shard < 16384)
  | .frameRequestRound model => decide (model < 16)
  | .layerCopy model => decide (model < 16)
  | .layerCommit model => decide (model < 16)
  | .podLayerCommit model => decide (model < 16)
  | .linkTrainingStageEnd link => decide (link < 18)
  | .linkRetrain link _ => decide (link < 18)
  | .linkRetryTimer link => decide (link < 18)
  | .identityRecordReceive link r => r.wellFormed && decide (link < 18)
  | .flitReceive link flit => decide (link < 18 ∧ flit.length = 256)
  | .nakReceive link _ => decide (link < 18)
  | .creditAuditReceive link _ => decide (link < 18)
  | .forwardStoredMessage hop _ => decide (hop < 4)
  | .noRouteDiscard hop _ => decide (hop < 4)
  | .heartbeatSend => true
  | .heartbeatReceive member _ => decide (member < 64)
  | .memberHeartbeatTimeout member => decide (member < 64)
  | .timeRequestSend _ => true
  | .timeRequestReceive member _ _ _ => decide (member < 64)
  | .timeResponseReceive _ _ _ _ _ => true
  | .timeResponseTimeout => true
  | .limiterInterval _ => true
  | .allowanceWindowStart core _ => decide (core < 512)
  | .correctionUpdate die _ _ => decide (die < 8)
  | .governorTrim _ => true
  | .governorHeartbeat master => decide (master < 65536)
  | .governorClamp => true
  | .droopDetect die => decide (die < 8)
  | .droopRelease die => decide (die < 8)
  | .tulleInterval die _ _ => decide (die < 8)
  | .voltagePointAdjust die => decide (die < 8)
  | .regulatorCommand master die _ => decide (master < 65536 ∧ die < 8)
  | .phaseFailure rail phase => decide (rail < 26 ∧ phase < 16)
  | .currentSenseExcluded die _ => decide (die < 8)
  | .thermalSample die _ _ => decide (die < 8)
  | .coolantSample _ _ _ => true
  | .thermalTrip place _ _ => decide (place < 12)
  | .thermalHoldRelease _ _ _ => true
  | .telemetryRefresh _ => true
  | .complexHeartbeatWrite master => decide (master < 65536)
  | .complexFailure _ => true
  | .complexRestart _ => true
  | .adoption _ => true
  | .standbyRestart _ => true
  | .ownershipRequest first _ others => (first :: others).all (·.wellFormed)
  | .lineWriteback _ notice requests => decide (notice.core < 6 ∧ notice.data.length = 64) && requests.all (·.wellFormed)
  | .correctedError u => u.wellFormed
  | .uncorrectableError _ => true
  | .quadSpareMap die quad => decide (die < 8 ∧ quad < 16)
  | .meshLaneGroupFailure edge dir group => decide (edge < 14 ∧ dir < 2 ∧ group < 17)
  | .meshEdgeFailure edge => decide (edge < 14)
  | .audit _ => true
  | .cometRecordWrite => true
  | .fatalError cause => decide (1 ≤ cause ∧ cause ≤ 5)
  | .pldmFirmwareUpdate _ => true
  | .spdmRequest _ => true
  | .coreStopTimeout core => decide (core < 512)
  | .standbyComplexFailure => true
  | .perstDeassert port => decide (port < 2)
  | .tdispRequest vf state => decide (1 ≤ vf ∧ vf < 256 ∧ state < 3)
  | .ideKmRequest port stream _ => decide (port < 2 ∧ stream < 9)

/-- A command of the block is well formed. -/
def Instr.wellFormed (i : Instr) : Bool :=
  i.numbersFit && i.phoger.all (fun p => p.1.wellFormed && !cmdMalformed p.2) && i.slot.all fun p => slotWellFormed p.1 p.2

end Sys2Proof
end

