-- ==== Sys2Proof/Certificates/Slice0/Obligations.lean ====
section
/-! DEFINITION. The statements about the block, one `Obligations.<Name>` each, from the rules of the spec. Statements of one
family stand together; each statement of a command's result concludes that `exec` answers a next state. -/

open Sys2Proof Sys2Proof.Machine

/-! ## The block as a machine -/

/-- Log entry 1. A step takes the command at the front of the queue and is its meaning on the state with the rest of the queue; with no
command waiting the block idles, which is the model's choice. -/
def Obligations.StepRunsTheFrontCommand : Prop :=
  (∀ (s : State) (c : Instr) (rest : List Instr), step { s with pending := c :: rest } = exec c { s with pending := rest }) ∧
    (∀ s : State, s.pending = [] → step s = .next s)
/-! ## Power path and always-on domain -/

/-- R42–R44, R49, R51, R53, R58. Where the always-on domain is powered, each event of PWRFAIL_N, of VMAIN, of MAIN_SENSE and of the hot-swap
stage has the effect on the power path that its clause gives: PWRFAIL_N in SERVICE begins a warned DRAIN and in RETAIN restarts the window, main that
ceases to be good in SERVICE, for any of the four causes, begins an unwarned DRAIN, main is good again in 40–60 V, or in 41–59 V once it has ceased, and
the stage closes again when R44 lets it. Memory, contexts, mailboxes and host functions stay as they are while a DRAIN begins; an assertion in a state other than
SERVICE, a deassertion, main that is good again and a stage that closes change nothing but the power path and the log. -/
def Obligations.PowerInputsMoveThePowerPath : Prop :=
  ∀ s : State, s.pp.aonPowered = true →
    (s.pp.pwrfail = false → ∃ t, exec .pwrfailNAssert s = .next t ∧ t.pp.pwrfail = true ∧
      t.mem = s.mem ∧ t.ctx = s.ctx ∧ t.mbx = s.mbx ∧ t.host = s.host ∧
      (s.pp.state = .service → t.pp.state = .drain ∧ t.pp.warned = true ∧ t.pp.drainEntry = s.aon.clock) ∧
      (s.pp.state = .retain → t.pp = { s.pp with pwrfail := true, windowRestarts := s.pp.windowRestarts + 1 }) ∧
      (s.pp.state ≠ .service → t = { s with pp := t.pp, aon := t.aon }) ∧
      (s.pp.state ≠ .service → s.pp.state ≠ .retain → t.pp = { s.pp with pwrfail := true })) ∧
    (s.pp.pwrfail = true →
      exec .pwrfailNDeassert s = .next { s with pp := { s.pp with pwrfail := false, pwrfailHighSince := s.aon.clock } }) ∧
    (∀ mv, s.pp.mainGood = true → mv < 40000 ∨ 60000 < mv → ∃ t, exec (.mainCeasesGood mv) s = .next t ∧
      t.pp.mainGood = false ∧ t.pp.mainCeased = true ∧ t.pp.mainCeasedAt = s.aon.clock ∧ t.pp.vmainMv = mv ∧
      (s.pp.state = .service → t.pp.state = .drain ∧ t.pp.warned = false ∧ t.pp.drainEntry = s.aon.clock ∧
        t.mem = s.mem ∧ t.ctx = s.ctx ∧ t.mbx = s.mbx ∧ t.host = s.host)) ∧
    (∀ mv, s.pp.mainGood = false → s.pp.hotSwap ≠ .overcurrent → 40000 ≤ mv → mv ≤ 60000 →
      (s.pp.mainCeased = true → 41000 ≤ mv ∧ mv ≤ 59000) → exec (.mainGood mv) s = .next { s with pp := { s.pp with
        vmainMv := mv, mainSense := true, hotSwap := .closed, mainGood := true, mainGoodSince := s.aon.clock } }) ∧
    (∀ mv, s.pp.mainGood = false → s.pp.mainCeased = true → mv < 41000 ∨ 59000 < mv → exec (.mainGood mv) s = .next s) ∧
    (s.pp.mainSense = true → ∃ t, exec .mainSenseBreak s = .next t ∧ t.pp.mainGood = false ∧ t.pp.mainSense = false ∧
      t.pp.hotSwap = .sense ∧ t.pp.mainCeased = true ∧ (s.pp.mainGood = false → t = { s with pp := t.pp }) ∧
      (s.pp.mainGood = true → s.pp.state = .service → t.pp.state = .drain ∧ t.pp.warned = false ∧
        t.mem = s.mem ∧ t.ctx = s.ctx ∧ t.mbx = s.mbx ∧ t.host = s.host)) ∧
    (∀ mv, s.pp.hotSwap = .closed → 60000 < mv → ∃ t, exec (.hotSwapOvervoltage mv) s = .next t ∧ t.pp.mainGood = false ∧
      t.pp.hotSwap = .overvoltage ∧ t.pp.vmainMv = mv ∧ t.pp.mainCeased = true ∧ (s.pp.mainGood = false → t = { s with pp := t.pp }) ∧
      (s.pp.mainGood = true → s.pp.state = .service → t.pp.state = .drain ∧ t.pp.warned = false ∧
        t.mem = s.mem ∧ t.ctx = s.ctx ∧ t.mbx = s.mbx ∧ t.host = s.host)) ∧
    (∀ ma, s.pp.hotSwap = .closed → 110000 < ma → ∃ t, exec (.hotSwapOvercurrent ma) s = .next t ∧ t.pp.mainGood = false ∧
      t.pp.hotSwap = .overcurrent ∧ t.pp.mainCeased = true ∧ (s.pp.mainGood = false → t = { s with pp := t.pp, aon := t.aon }) ∧
      (s.pp.mainGood = true → s.pp.state = .service → t.pp.state = .drain ∧ t.pp.warned = false ∧
        t.mem = s.mem ∧ t.ctx = s.ctx ∧ t.mbx = s.mbx ∧ t.host = s.host)) ∧
    (∀ remade mv, s.pp.hotSwap ≠ .closed → (s.pp.hotSwap = .sense → remade = true) →
      (s.pp.hotSwap = .overvoltage → mv < 59000 ∧ (s.pp.mainSense = true ∨ remade = true)) →
      (s.pp.hotSwap = .overcurrent → remade = true ∨ mv < 5000 ∧ 1000000000 ≤ s.aon.clock - s.pp.hotSwapAt) →
      exec (.hotSwapReclose remade mv) s = .next { s with pp := { s.pp with
        hotSwap := .closed, vmainMv := mv, mainSense := s.pp.mainSense || remade } })

/-- R46, R48–R50, R52–R56, R75, R84. DRAIN ends, once no core moves and in a warned DRAIN no engine works, in RETAIN with every store as it was, or under a MODULE_STOP in
STANDBY with the commanded hold set; 1.5 ms after its entry a warned DRAIN that has not ended interrupts the steps whose cores still move. RETAIN ends in SERVICE when the conditions
of R53 hold, where interrupted steps end with ST_POWERFAIL, or in STANDBY with the hold cleared and the memories empty when main is absent no sooner than R48 promises. STANDBY ends in
phase 0x3 when main has been good for 20 ms with no hold, and in OFF once both inputs have been absent for the 30 ms hold-up, where flash, fuses and the boot count are
kept. VAUX that ceases to be good, or is good again, leaves its record and changes nothing else.
Where it rests on the model's own reading: log entry 93 (STANDBY on the hold-up). -/
def Obligations.DrainAndRetainEnd : Prop :=
  ∀ s : State,
    (s.pp.state = .drain → s.moving = [] → (s.pp.warned = true → s.movingEngines = []) → ∃ t, exec .drainComplete s = .next t ∧
      (s.pp.stopping = false → t = { s with
        pp := { s.pp with state := .retain, retainEntry := s.aon.clock, windowRestarts := 0 }, aon := t.aon, tiers := { s.tiers with selfRefresh := true } }) ∧
      (s.pp.stopping = true → t.pp.state = .standby ∧ t.pp.hold = true ∧ t.mem.cells = [] ∧ t.fleet.cores = [])) ∧
    (s.pp.state = .drain → s.pp.warned = true → s.moving ≠ [] ∨ s.movingEngines ≠ [] → 1500000 ≤ s.aon.clock - s.pp.drainEntry →
      ∃ t, exec .drainForced s = .next t ∧ t.pp.state = .drain ∧ t.pp.warned = false ∧ t.mem = s.mem ∧ t.ctx = s.ctx ∧
        (∀ n, n ∈ s.moving → (t.core n).halted = true) ∧
        ∀ q i x, s.step? q i = some x → s.stepMoving x = true → (t.step? q i).map (·.interrupted) = some true) ∧
    (s.pp.state = .retain → 10000000 ≤ s.aon.clock - s.pp.retainEntry → s.pp.mainGood = true →
      20000000 ≤ s.aon.clock - s.pp.mainGoodSince → s.pp.pwrfail = false → 20000000 ≤ s.aon.clock - s.pp.pwrfailHighSince →
      s.pp.hold = false → s.pp.thermalHold = false → (∀ c, c ∈ s.fleet.cores → c.2.stopOrdered = false) →
      ∃ t, exec .retainExit s = .next t ∧ t.pp.state = .service ∧ t.tiers.selfRefresh = false ∧
        (∀ q i x, s.step? q i = some x → x.interrupted = true → x.ended = none →
          ∀ u, t.step? q i = some u → u.ended = some ST_POWERFAIL) ∧
        ((∀ x, x ∈ s.dq.steps → x.interrupted = false) → t.pp = { s.pp with state := .service } ∧ t.mem = s.mem ∧ t.dq = s.dq ∧
          t.ctx = s.ctx ∧ t.kv = s.kv ∧ t.wt = s.wt ∧ ∀ n, t.core n = { s.core n with halted := false })) ∧
    (s.pp.state = .retain → s.pp.mainGood = false → s.pp.rideMin ≤ s.aon.clock - s.pp.mainCeasedAt →
      ∃ t, exec .mainAbsentInRetain s = .next t ∧ t.pp.state = .standby ∧ t.pp.hold = false ∧ t.mem.cells = [] ∧ t.fleet.cores = []) ∧
    (s.pp.state = .standby → s.pp.mainGood = true → 20000000 ≤ s.aon.clock - s.pp.mainGoodSince → s.pp.hold = false →
      s.pp.thermalHold = false → ∃ t, exec .standbyModuleStart s = .next t ∧ t.pp = { s.pp with state := .startup, phase := 3 } ∧
        t.ioPowered s.cx.active = true ∧ t.out = .phaseReport 3 :: s.out ∧
        t = { s with pp := t.pp, cx := { s.cx with powerA := t.cx.powerA, powerB := t.cx.powerB }, mark := t.mark, out := t.out }) ∧
    (s.pp.aonPowered = true → s.pp.mainGood = false → s.pp.vauxGood = false → 30000000 ≤ s.aon.clock - s.pp.mainAbsentAt →
      30000000 ≤ s.aon.clock - s.pp.vauxCeasedAt → s.pp.state = .standby →
      ∃ t, exec .holdupExpired s = .next t ∧ t.pp.state = .off ∧ t.pp.aonPowered = false ∧ t.aon.ring = [] ∧ t.mem.cells = [] ∧
        t.cfg.flashA = s.cfg.flashA ∧ t.cfg.flashB = s.cfg.flashB ∧ t.cfg.securityFloor = s.cfg.securityFloor ∧ t.aon.boot = s.aon.boot) ∧
    (∀ mv, s.pp.aonPowered = true → s.pp.vauxGood = true → mv < 10800 ∨ 13200 < mv →
      exec (.vauxCeasesGood mv) s = .next ({ s with pp := { s.pp with
        vauxGood := false, vauxMv := mv, vauxCeasedAt := s.aon.clock } }.comet 0x0107 2 s.aon.lead none [mv])) ∧
    (∀ mv, s.pp.aonPowered = true → s.pp.vauxGood = false → 10800 ≤ mv → mv ≤ 13200 →
      exec (.vauxGoodAgain mv) s =
        .next ({ s with pp := { s.pp with vauxGood := true, vauxMv := mv } }.comet 0x0108 1 s.aon.lead none [mv]))

/-! ## Host ports and host functions -/

/-- R27, R28, R41, R87, R135, R226, R571. An assertion of PERST_N resets the link, the configuration space and the IDE keys of its port and drops that port's translations, and changes
nothing else; its release changes the port alone. A link that goes down leaves the other port as it is; a posted fault record or store of a step that is lost with it is sent
again on the other port, where that is up and the function enabled on it, a fault record's with FLT.STATUS.WRITE_ERROR set. A link comes up on a powered port that is out of reset, its configuration space ready
unless phase 0x3 is under way. IDE_KM sets a stream's keys on a port whose link is up, and nothing else. -/
def Obligations.HostPortEvents : Prop :=
  ∀ (s : State) (p : Nat), p < 2 →
    (∃ t, exec (.perstAssert p) s = .next t ∧ t.port p = { HostPort.off with perst := true } ∧ t.port (1 - p) = s.port (1 - p) ∧
      (∀ e, e ∈ t.host.atc ↔ e ∈ s.host.atc ∧ e.port ≠ p) ∧
      t = { s with host := { s.host with
        portA := t.host.portA, portB := t.host.portB, atc := t.host.atc, atsAsked := t.host.atsAsked } }) ∧
    exec (.perstDeassert p) s = .next (s.setPort p fun x => { x with perst := false }) ∧
    (∀ lost, (s.port p).up = true → lost = 0 ∨ (s.port p).posted = [] → ∃ t, exec (.hostPortLinkDown ⟨p, lost⟩) s = .next t ∧
      t.port p = { s.port p with up := false, posted := [] } ∧ t.port (1 - p) = s.port (1 - p) ∧
      (∀ e, e ∈ t.host.atc ↔ e ∈ s.host.atc ∧ e.port ≠ p) ∧
      t = { s with host := { s.host with
        portA := t.host.portA, portB := t.host.portB, atc := t.host.atc, atsAsked := t.host.atsAsked } }) ∧
    (∀ w, (s.port p).up = true → (s.port p).posted = [w] → (s.port (1 - p)).up = true → (s.port (1 - p)).on w.fn = true →
      ((∃ r, w.what = .fault r) ∨ ∃ a va ri, w.what = .data a va ri) → ∃ t, exec (.hostPortLinkDown ⟨p, 1⟩) s = .next t ∧
        t.port p = { s.port p with up := false, posted := [] } ∧ t.out = .hostWrite (1 - p) w.fn w.pasid w.addr w.bytes w.attrs :: s.out ∧
        ((∃ r, w.what = .fault r) → (t.fn w.fn).fltWriteError = true) ∧ t = { s with host := t.host, out := t.out }) ∧
    ((s.port p).up = false → (s.port p).perst = false → s.ioPowered p = true → s.ioRetired p = false →
      ∃ t, exec (.hostPortLinkUp p) s = .next t ∧
        { t.port p with posted := [] } = { s.port p with up := true, cfgReady := s.pastPhase3, posted := [] } ∧
        { t.port (1 - p) with posted := [] } = { s.port (1 - p) with posted := [] } ∧ t = { s with
          host := { s.host with portA := t.host.portA, portB := t.host.portB, fns := t.host.fns }, out := t.out }) ∧
    (∀ stream key, stream ≤ 8 → (s.port p).up = true →
      exec (.ideKmRequest p stream key) s = .next (s.setPort p fun x => { x with ide := tabSet x.ide stream key }))

/-- R27, R81, R124, R226, R575. An FLR of a VF that is enabled on a port, with an I/O die powered, releases its two channels and no other, resets its FLT registers and vectors, discards its
held records and destroys its contexts; an FLR of the PF clears VF Enable and the memory enables on both ports. A TDI that was locked or running and enters ERROR has its contexts destroyed
too. TDISP locks, runs and unlocks a TDI, and changes nothing else. An unmasked vector that is pending sends its message, and no longer is; the function's mask is cleared, which without a port that
carries its writes sends nothing. Where it rests on the model's own reading: log entries 8 and 51. -/
def Obligations.HostFunctionEvents : Prop :=
  ∀ (s : State) (f : Nat), f < 256 →
    (1 ≤ f → s.host.portA.on f = true ∨ s.host.portB.on f = true → s.ioUp = true → ∃ t, exec (.flr f) s = .next t ∧
      t.chan (2 * f) = freshChannel ∧ t.chan (2 * f + 1) = freshChannel ∧
      (∀ c, c ≠ 2 * f → c ≠ 2 * f + 1 → t.chan c = s.chan c) ∧
      (t.fn f).fltBase = 0 ∧ (t.fn f).fltEnable = false ∧ (t.fn f).fltProducer = 0 ∧ (t.fn f).fltConsumer = 0 ∧ (t.fn f).held = [] ∧
      (t.fn f).beyond = [] ∧ (t.fn f).vecs = freshFn.vecs ∧ (t.fn f).fnMask = false ∧
      (∀ e, e ∈ t.ctx.ctxs → e.2.owner ≠ f) ∧ t.pp = s.pp ∧ t.cfg = s.cfg) ∧
    (f = 0 → s.ioUp = true → ∃ t, exec (.flr f) s = .next t ∧ t.host.portA.vfs = 0 ∧ t.host.portB.vfs = 0 ∧
      t.host.portA.memOn 0 = false ∧ t.host.portA.memOn 1 = false ∧ t.host.portB.memOn 0 = false ∧ t.host.portB.memOn 1 = false ∧
      t.pp = s.pp ∧ t.cfg = s.cfg) ∧
    (1 ≤ f → (s.fn f).tdi = .locked ∨ (s.fn f).tdi = .run → ∃ t, exec (.tdiError f) s = .next t ∧ (t.fn f).tdi = .error ∧
      (∀ e, e ∈ t.ctx.ctxs → e.2.owner ≠ f) ∧ t.mbx = s.mbx ∧ t.pp = s.pp ∧ t.cfg = s.cfg) ∧
    (1 ≤ f → (s.fn f).tdi = .unlocked → exec (.tdispRequest f 1) s = .next (s.setFn f fun h => { h with tdi := .locked })) ∧
    (1 ≤ f → (s.fn f).tdi = .locked → exec (.tdispRequest f 2) s = .next (s.setFn f fun h => { h with tdi := .run })) ∧
    (1 ≤ f → exec (.tdispRequest f 0) s = .next (s.setFn f fun h => { h with tdi := .unlocked })) ∧
    (∀ v x p, v < 4 → (s.fn f).vecs[v]? = some x → x.pending = true → s.fnPort f = some p → (s.fn f).fnMask = false →
      ∃ t, exec (.msixUnmask f (some v)) s = .next t ∧ Output.msix f v p x.addr x.data ∈ t.out ∧
        (t.fn f).vecs[v]? = some { x with masked := false, pending := false } ∧
        t = { s with host := { s.host with fns := t.host.fns, portA := t.host.portA, portB := t.host.portB }, out := t.out }) ∧
    (s.fnPort f = none → exec (.msixUnmask f none) s = .next (s.setFn f fun h => { h with fnMask := false }))

/-! ## Always-on domain and start-up -/

/-- R40, R59, R60, R64, R65, R84, R85, R89–R91, R569. Power-on of the always-on domain, by an input that is good, begins a cold start at phase 0x1 with the timebase at 0 and the boot
count raised; flash and fuses are kept. The leading share sends heartbeats; the other share takes the lead, its log continuing, when they have been absent for
500 µs. A tick adds 40 ns to the timebase, or 80 or 0 on a slew tick, at most one in 64. Each start-up phase ends as its clause says: 0x1 in 0x2; 0x2 elects the lead once and goes on to 0x3 or, without main or under a
thermal hold, to STANDBY; 0x3 starts the lead complex and makes the configuration spaces of the ports whose links are up ready; 0x4 runs the preferred slot's set, else the other's, else the module is in management only; 0x5
applies the site layer in flash if it meets R96, locks the binding table and takes the cap and matched mode of their settings; 0x6 and 0x7 note the engines that failed as retired, 0x6 zeroes the tiers, and both go on, if nothing failed and every die
can work, to 0x7 and 0x8, or to 0x9 when the other I/O die or its complex is out of service; 0x8 starts the other complex as standby or retires its die; 0x9 has the trained links identified and reaches SERVICE. A lead I/O
die that fails phase 0x3, 0x4 or 0x5 is powered down and the other leads from phase 0x3; with no complex left the module enters management only. -/
def Obligations.AlwaysOnAndStartUp : Prop :=
  ∀ s : State,
    (∀ vm va rp sense, s.pp.aonPowered = false → sense = true ∧ 40000 ≤ vm ∧ vm ≤ 60000 ∨ 10800 ≤ va ∧ va ≤ 13200 →
      ∃ t, exec (.alwaysOnPowerOn ⟨vm, sense⟩ va rp) s = .next t ∧ t.pp.aonPowered = true ∧ t.pp.state = .startup ∧ t.pp.phase = 1 ∧
        (t.pp.mainGood = true ↔ sense = true ∧ 40000 ≤ vm ∧ vm ≤ 60000) ∧ (t.pp.vauxGood = true ↔ 10800 ≤ va ∧ va ≤ 13200) ∧
        t.aon.timebase = 0 ∧ t.aon.boot = (s.aon.boot + 1) % 2 ^ 32 ∧ t.aon.ring = [] ∧ t.mem.cells = [] ∧
        t.cfg.flashA = s.cfg.flashA ∧ t.cfg.flashB = s.cfg.flashB ∧ t.cfg.securityFloor = s.cfg.securityFloor ∧
        t.pending = s.pending ∧ t.out = .phaseReport 1 :: s.out) ∧
    (s.pp.aonPowered = true → exec .keeperHeartbeat s =
      .next ({ s with aon := { s.aon with heartbeatAt := s.aon.clock } }.emit (.shareHeartbeat s.aon.lead))) ∧
    (s.pp.aonPowered = true → s.aon.otherFit = true → s.aon.lead < 2 → 500000 ≤ s.aon.clock - s.aon.heartbeatAt →
      ∃ t, exec .leadShareTakeover s = .next t ∧ t.aon.lead = 1 - s.aon.lead ∧ t.aon.otherFit = false ∧
        t.aon.ring = s.aon.ringFollow ∧ t.aon.timebase = s.aon.timebase ∧ t = { s with aon := t.aon }) ∧
    (s.pp.aonPowered = true → ∃ t, exec .timebaseTick s = .next t ∧ t.aon.clock = s.aon.clock + 40 ∧
      (s.aon.slewLeft = 0 ∨ s.aon.slewTicks < 63 → t.aon.timebase = (s.aon.timebase + 40) % 2 ^ 64 ∧
        t.aon.slewTicks = min 64 (s.aon.slewTicks + 1)) ∧
      (63 ≤ s.aon.slewTicks → 0 < s.aon.slewLeft → t.aon.timebase = (s.aon.timebase + 80) % 2 ^ 64 ∧ t.aon.slewTicks = 0) ∧
      (63 ≤ s.aon.slewTicks → s.aon.slewLeft < 0 → t.aon.timebase = s.aon.timebase % 2 ^ 64 ∧ t.aon.slewTicks = 0) ∧
      t = { s with aon := t.aon, fab := { s.fab with slewing := t.fab.slewing } }) ∧
    (∀ r, s.pp.state = .startup → s.pp.phase = 1 → exec (.startPhaseEnd r) s = .next (s.toPhase 2)) ∧
    (∀ r, s.pp.state = .startup → s.pp.phase = 2 → s.aon.elected = false → r.iaPass = true ∨ r.ibPass = true →
      ∃ t, exec (.startPhaseEnd r) s = .next t ∧ t.aon.lead = (if r.iaPass = true then 0 else 1) ∧ t.cx.active = t.aon.lead ∧
        t.aon.lostA = !r.iaPass ∧ t.aon.lostB = !r.ibPass ∧ t.aon.elected = true ∧
        t.aon.rackPos = s.aon.rackPin ∧ Output.rackReport s.aon.rackPin ∈ t.out ∧
        (s.pp.mainGood = true → s.pp.thermalHold = false → t.pp = { s.pp with phase := 3 } ∧ t.ioPowered t.cx.active = true) ∧
        (s.pp.mainGood = false ∨ s.pp.thermalHold = true → t.pp = { s.pp with state := .standby }) ∧
        t = { s with pp := t.pp, aon := t.aon, cx := t.cx, mark := t.mark, out := t.out }) ∧
    (∀ r, s.pp.state = .startup → s.pp.phase = 2 → s.aon.elected = true → ∃ t, exec (.startPhaseEnd r) s = .next t ∧
      t.aon = s.aon ∧ t.cx.active = s.aon.lead ∧
      (s.pp.mainGood = true → s.pp.thermalHold = false → t.pp = { s.pp with phase := 3 }) ∧
      (s.pp.mainGood = false ∨ s.pp.thermalHold = true → t.pp = { s.pp with state := .standby }) ∧
      t = { s with pp := t.pp, cx := t.cx, mark := t.mark, out := t.out }) ∧
    (∀ r, s.pp.state = .startup → s.pp.phase = 3 → ∃ t, exec (.startPhaseEnd r) s = .next t ∧ t.pp = { s.pp with phase := 4 } ∧
      t.complex s.cx.active = .active ∧ t.host = { s.host with
        portA := { s.host.portA with cfgReady := s.host.portA.up }, portB := { s.host.portB with cfgReady := s.host.portB.up } } ∧
      t = { s with pp := t.pp, cx := t.cx, host := t.host, out := t.out }) ∧
    (∀ r, s.pp.state = .startup → s.pp.phase = 4 →
      (∀ x, s.slotSet s.cfg.preferred = some x → ∃ t, exec (.startPhaseEnd r) s = .next t ∧ t.pp = { s.pp with phase := 5 } ∧
        t.cx.running = some x ∧ t.cfg.startedFrom = s.cfg.preferred ∧
        t = { s with pp := t.pp, cfg := t.cfg, cx := t.cx, fleet := t.fleet, out := t.out }) ∧
      (∀ x, s.slotSet s.cfg.preferred = none → s.slotSet (1 - s.cfg.preferred) = some x →
        ∃ t, exec (.startPhaseEnd r) s = .next t ∧ t.pp = { s.pp with phase := 5 } ∧ t.cx.running = some x ∧
          t.cfg.startedFrom = 1 - s.cfg.preferred ∧
          t = { s with pp := t.pp, aon := t.aon, cfg := t.cfg, cx := t.cx, fleet := t.fleet, out := t.out }) ∧
      (s.slotSet s.cfg.preferred = none → s.slotSet (1 - s.cfg.preferred) = none →
        ∃ t, exec (.startPhaseEnd r) s = .next t ∧ t.pp.state = .mgmtOnly ∧ t.pp.phase = 15)) ∧
    (∀ r, s.pp.state = .startup → s.pp.phase = 5 → ∃ t, exec (.startPhaseEnd r) s = .next t ∧ t.pp = { s.pp with phase := 6 } ∧
      t.cfg.bindingLocked = true ∧ t.cfg.runtime = [] ∧ t.cfg.siteStart = t.cfg.site ∧
      (s.cfg.siteBytes = none → t.cfg.site = none) ∧
      (∀ b, s.cfg.siteBytes = some b → t.cfg.site = if s.siteReason b = 0 then some (siteOf b) else none) ∧
      t.pwr.cap = t.setting 2 ∧ t.pwr.matched = (t.setting 3 == 1) ∧
      t = { s with pp := t.pp, aon := t.aon, cfg := t.cfg, pwr := t.pwr, out := t.out }) ∧
    (∀ r, s.pp.state = .startup → s.pp.phase = 6 → ∃ t, exec (.startPhaseEnd r) s = .next t ∧
      (∀ d i, UnitRef.engine d i ∈ r.failedUnits → UnitRef.engine d i ∈ t.rel.retired) ∧
      (r.failedUnits = [] → s.aboveFloor = true → (∀ d, d < 8 → (s.die d).retired = true ∨ s.dieStacks d ≠ 0) →
        t.pp = { s.pp with phase := 7 } ∧ (s.ctx.dumpBase = none → ∀ a, a < commonsBase → t.mem.read a = 0) ∧
        t = { s with pp := t.pp, mem := t.mem, tiers := t.tiers, ctx := { s.ctx with dumpBase := t.ctx.dumpBase }, out := t.out })) ∧
    (∀ r, s.pp.state = .startup → s.pp.phase = 7 → ∃ t, exec (.startPhaseEnd r) s = .next t ∧
      (∀ d i, UnitRef.engine d i ∈ r.failedUnits → UnitRef.engine d i ∈ t.rel.retired) ∧
      (r.failedUnits = [] → s.aboveFloor = true →
        (∀ d, d < 8 → (s.die d).retired = true ∨ s.dieStacks d ≠ 0 ∧ 16 ≤ s.dieCores d) →
        (s.complex (1 - s.cx.active) = .heldInReset ∨ s.ioRetired (1 - s.cx.active) = true → t = s.toPhase 9) ∧
        (s.complex (1 - s.cx.active) ≠ .heldInReset → s.ioRetired (1 - s.cx.active) = false →
          t = (s.setIo (1 - s.cx.active) true).toPhase 8))) ∧
    (∀ r, s.pp.state = .startup → s.pp.phase = 8 → s.aboveFloor = true → r.otherOk = true →
      ∃ t, exec (.startPhaseEnd r) s = .next t ∧ t.complex (1 - s.cx.active) = .standby ∧ t.cx.standbyReady = true ∧
        t.pp = { s.pp with phase := 9 } ∧ t = { s with pp := t.pp, cx := t.cx, out := t.out }) ∧
    (∀ r, s.pp.state = .startup → s.pp.phase = 8 → s.cx.active < 2 → s.ioRetired s.cx.active = false → s.aboveFloor = true → r.otherOk = false →
      ∃ t, exec (.startPhaseEnd r) s = .next t ∧ t.ioRetired (1 - s.cx.active) = true ∧ t.ioPowered (1 - s.cx.active) = false ∧
        t.complex (1 - s.cx.active) = .heldInReset ∧ t.pp = { s.pp with phase := 9 } ∧ t.mem = s.mem ∧ t.fleet = s.fleet) ∧
    (∀ r, s.pp.state = .startup → s.pp.phase = 9 → r.failedUnits = [] → s.aboveFloor = true →
      ∃ t, exec (.startPhaseEnd r) s = .next t ∧ t.pp = { s.pp with state := .service, phase := 10 } ∧
        (∀ l, l ∈ r.trained → l < 18 → (s.link l).retired = false → (t.link l).state = .identified) ∧
        (∀ l, l ∉ r.trained → t.link l = s.link l) ∧
        t = { s with
          pp := t.pp, fab := { s.fab with links := t.fab.links }, mark := none, mbx := { s.mbx with serviceFrom := s.mbx.sends }, out := t.out }) ∧
    (s.pp.state = .startup → 3 ≤ s.pp.phase → s.pp.phase ≤ 5 → s.cx.active < 2 → s.complex (1 - s.cx.active) ≠ .heldInReset →
      ∃ t, exec .startPhaseTimeout s = .next t ∧ t.cx.active = 1 - s.cx.active ∧ t.pp = { s.pp with phase := 3 } ∧
        t.complex s.cx.active = .heldInReset ∧ t.ioPowered s.cx.active = false ∧ t.ioPowered (1 - s.cx.active) = true ∧
        t.port s.cx.active = (s.port s.cx.active).cleared ∧ t.port (1 - s.cx.active) = s.port (1 - s.cx.active) ∧
        t = { s with
          pp := t.pp, aon := t.aon, cx := t.cx, host := { s.host with portA := t.host.portA, portB := t.host.portB }, out := t.out }) ∧
    (s.pp.state = .startup → 3 ≤ s.pp.phase → s.pp.phase ≤ 5 → s.complex (1 - s.cx.active) = .heldInReset →
      ∃ t, exec .startPhaseTimeout s = .next t ∧ t.pp.state = .mgmtOnly ∧ t.pp.phase = 15)

/-! ## Clocks and power states -/

/-- R66–R69, R71, R73. A die's core PLLs switch to the point ordered, once the rail has reached its voltage, and nothing else of another die changes. A core with nothing to issue for the idle delay goes to
GATED, and its die only when no core of it is ACTIVE and no engine has a descriptor. A wake brings a core or a slice, and its die, to ACTIVE. Firmware orders a core that it may take there to RETAIN, or to
OFF, where its scratchpad and sync objects are lost, unless it holds an allocated sync object or is assigned to a step: it then goes to RETAIN with a record. A core reserved for URGENT work is not ordered OFF, nor its die below GATED. -/
def Obligations.ClocksAndPowerStates : Prop :=
  ∀ s : State,
    (∀ d p, (s.die d).ordered = some p → s.railReady d p = true → ∃ t, exec (.coreClockSwitch d) s = .next t ∧
      (t.die d) = { s.die d with pll := 1 - (s.die d).pll, point := p, ordered := none } ∧ (∀ e, e ≠ d → t.die e = s.die e) ∧
      t = { s with fleet := { s.fleet with dies := t.fleet.dies }, pwr := { s.pwr with dies := t.pwr.dies } }) ∧
    (∀ n, n < 512 → (s.core n).power = .active → s.idleLong n = true → ∃ t, exec (.idleDemoteGated n) s = .next t ∧
      t.core n = { s.core n with power := .gated } ∧ (∀ m, m ≠ n → t.core m = s.core m) ∧ (∀ e, e ≠ n / 64 → t.die e = s.die e) ∧
      ((t.die (n / 64)).power = (s.die (n / 64)).power ∨ (t.die (n / 64)).power = .gated ∧
        (∀ k, k < 64 → (t.core (n / 64 * 64 + k)).power ≠ .active) ∧ ∀ e, e ∈ (s.die (n / 64)).engines → e.2.queue = []) ∧
      t = { s with fleet := { s.fleet with cores := t.fleet.cores, dies := t.fleet.dies } }) ∧
    (∀ n, s.fleet.waking.contains (.core n) = true → ∃ t, exec (.wakeComplete (.core n)) s = .next t ∧
      t.core n = { s.core n with power := .active, lastIssue := s.aon.clock } ∧
      t.die (n / 64) = { s.die (n / 64) with power := .active } ∧ t.fleet.waking.contains (.core n) = false ∧
      (∀ m, m ≠ n → t.core m = s.core m) ∧ (∀ e, e ≠ n / 64 → t.die e = s.die e) ∧ t = { s with fleet := t.fleet }) ∧
    (∀ d sl, s.fleet.waking.contains (.slice d sl) = true → ∃ t, exec (.wakeComplete (.slice d sl)) s = .next t ∧
      tabGet? (t.die d).slicePower sl = some .active ∧ (t.die d).power = .active ∧ t.fleet.waking.contains (.slice d sl) = false ∧
      (∀ e, e ≠ d → t.die e = s.die e) ∧ t.fleet.cores = s.fleet.cores ∧ t = { s with fleet := t.fleet }) ∧
    (∀ n, n < 512 → s.mem.wf = true → s.pp.state = .service → s.belowFloor (.core n) .off = false → s.coreLive n = false →
      ∃ t, exec (.powerStateOrder (.core n) .off) s = .next t ∧
        t.core n = { s.core n with power := .off, sync := [], gather := [] } ∧ (∀ m, m ≠ n → t.core m = s.core m) ∧
        (∀ a, scratchBase + n * mib2 ≤ a → a < scratchBase + (n + 1) * mib2 → t.mem.read a = 0) ∧
        (∀ a, a < scratchBase + n * mib2 ∨ scratchBase + (n + 1) * mib2 ≤ a → t.mem.read a = s.mem.read a) ∧
        t = { s with fleet := { s.fleet with cores := t.fleet.cores }, mem := t.mem }) ∧
    (∀ n, n < 512 → s.pp.state = .service → s.belowFloor (.core n) .off = false → s.coreLive n = true →
      exec (.powerStateOrder (.core n) .off) s = .next ((s.setCore n fun c => { c with power := .retain }).cometF7 4 n [n])) ∧
    (∀ n, n < 512 → s.pp.state = .service →
      exec (.powerStateOrder (.core n) .retain) s = .next (s.setCore n fun c => { c with power := .retain })) ∧
    (∀ u p, s.belowFloor u p = true → exec (.powerStateOrder u p) s = .next s)

/-! ## Phoger commands: settings and module states -/

/-- R93, R95, R96, R98–R101, R146, R161, R162. Once accepted: CAPS_QUERY answers up to 14 capability records, SETTING_READ a setting's value in force and its layer, and SETTING_WRITE sets the
runtime value of a runtime setting within its range. SITEKEY_ENROL enrols a first site key, replaces one by a key that it has signed, and removes one on a token that Ersovik signed; a wrong signature is refused, and a removal
without a key. SITELAYER_WRITE is accepted for a reference that a layer can have and else out of range; the bytes read are checked, and a layer that passes is in force and, where a flash device works, stored there with its version as the
floor, while one that fails is refused in the notice and changes nothing. Where it rests on the model's own reading: log entries 21, 98 and 99. -/
def Obligations.SettingsCommandsDoTheirWork : Prop :=
  ∀ (s : State) (h : CmdHdr),
    (∀ first, s.admits h (.capsQuery first) → exec (.capsQuery h first) s = .next (s.finishCmd h (.capsQuery first)
      (leBytes 2 29 ++ leBytes 2 (min 14 (29 - first)) ++ zeros 4 ++ ((s.capabilities.drop first).take 14).flatMap capBytes))) ∧
    (∀ id r, s.admits h (.settingRead id) → settingRow id = some r → exec (.settingRead h id) s = .next (s.finishCmd h (.settingRead id)
      (leBytes 8 (s.cfg.inForce r).1 ++ leBytes 1 (s.cfg.inForce r).2 ++ zeros 7))) ∧
    (∀ id v r, s.admits h (.settingWrite id v) → settingRow id = some r → r.runtime = true → r.ok v = true →
      exec (.settingWrite h id v) s = .next ({ s with cfg := { s.cfg with runtime := tabSet s.cfg.runtime id v } }.finishCmd h
        (.settingWrite id v) [])) ∧
    (∀ key sig, s.admits h (.sitekeyEnrol 1 key sig) → exec (.sitekeyEnrol h key sig) s = .next (
      if s.cfg.siteKey.all (fun old => ecdsaOk old key sig) = true then
        { s with cfg := s.cfg.setSiteKey (some key) }.finishCmd h (.sitekeyEnrol 1 key sig) []
      else s.refuseCmd h (.sitekeyEnrol 1 key sig) ST_SIGNATURE)) ∧
    (∀ key, s.cfg.flashA.ok = true ∨ s.cfg.flashB.ok = true → (s.cfg.setSiteKey key).siteKey = key) ∧
    (∀ token old, s.admits h (.sitekeyEnrol 2 (zeros 96) token) → s.cfg.siteKey = some old →
      exec (.sitekeyRemove h token) s = .next (
        if ecdsaOk Config.ersovikKey (leBytes 8 s.cfg.serial) token = true then
          { s with cfg := s.cfg.setSiteKey none }.finishCmd h (.sitekeyEnrol 2 (zeros 96) token) []
        else s.refuseCmd h (.sitekeyEnrol 2 (zeros 96) token) ST_SIGNATURE)) ∧
    (∀ token, s.admits h (.sitekeyEnrol 2 (zeros 96) token) → s.cfg.siteKey = none →
      exec (.sitekeyRemove h token) s = .next (s.refuseCmd h (.sitekeyEnrol 2 (zeros 96) token) ST_DENIED)) ∧
    (∀ src, s.admits h (.sitelayerWrite src) → src.addr % 64 = 0 → 160 ≤ src.length → src.length % 16 = 0 → s.deferredOf h.sender < 16 →
      exec (.sitelayerWrite h src) s = .next (s.acceptCmd h (.sitelayerWrite src))) ∧
    (∀ src, s.admits h (.sitelayerWrite src) → src.addr % 64 ≠ 0 ∨ src.length < 160 ∨ src.length % 16 ≠ 0 →
      exec (.sitelayerWrite h src) s = .next (s.refuseCmd h (.sitelayerWrite src) ST_RANGE)) ∧
    (∀ id d src b, s.item id = some d → d.cmd = .sitelayerWrite src → b.length = src.length → s.supervisorRuns = true →
      (s.fnPort ((senderFn d.hdr.sender).getD 0)).isSome = true →
      ∃ t, exec (.sitelayerWriteCheck id (.ok b)) s = .next t ∧
        (s.siteStatus b = ST_OK → t.cfg.site = some (siteOf b) ∧ (s.cfg.flashA.ok = true ∨ s.cfg.flashB.ok = true →
          t.cfg.siteBytes = some b ∧ t.cfg.siteFloor = (siteOf b).version)) ∧
        (s.siteStatus b ≠ ST_OK → t.cfg = s.cfg) ∧
        t.cx.deferred = s.cx.deferred.filter (fun x => x.id != d.id) ∧
        (d.hdr.sender ≠ .gone → t.cx.answers = s.cx.answers ++ [Answer.mk d.hdr.sender 3 0x0005 d.hdr (s.siteStatus b) []]) ∧
        t = { s with aon := t.aon, cfg := t.cfg, cx := { s.cx with deferred := t.cx.deferred, answers := t.cx.answers } })

/-- R74–R78, R80, R82, R83, R86, R131. A suspend begins a warned DRAIN under the commanded hold, a resume clears the hold, a stop goes from SERVICE by a warned DRAIN and from RETAIN at once to STANDBY with the hold,
and a start from STANDBY, which the BMC sends, clears the hold. A module reset goes back to phase 0x3 with contexts, queues, cores and mailboxes cleared, and keeps the host ports, the locked binding and the hold; a
cold reset goes back to phase 0x2, and clears those and the hold too. A die reset is accepted and holds its die; once complete, the die's cores, Commons and combiners are clear. -/
def Obligations.ModuleStateCommandsMoveTheModule : Prop :=
  ∀ (s : State) (h : CmdHdr),
    (s.admits h .moduleSuspend → ∃ t, exec (.moduleSuspend h) s = .next t ∧ t.pp.state = .drain ∧ t.pp.warned = true ∧
      t.pp.hold = true ∧ t.pp.drainEntry = s.aon.clock ∧ s.replied t h .moduleSuspend ST_OK ∧
      t.mem = s.mem ∧ t.ctx = s.ctx ∧ t.mbx = s.mbx ∧ t.host = s.host) ∧
    (s.admits h .moduleResume → exec (.moduleResume h) s =
      .next ({ s with pp := { s.pp with hold := false } }.finishCmd h .moduleResume [])) ∧
    (s.admits h .moduleStop → ∃ t, exec (.moduleStop h) s = .next t ∧
      (s.pp.state = .service → t.pp.state = .drain ∧ t.pp.warned = true ∧ t.pp.stopping = true ∧ s.replied t h .moduleStop ST_OK ∧
        t.mem = s.mem ∧ t.ctx = s.ctx ∧ t.mbx = s.mbx ∧ t.host = s.host) ∧
      (s.pp.state = .retain → t.pp.state = .standby ∧ t.pp.hold = true ∧ t.mem.cells = [] ∧ t.fleet.cores = [] ∧ t.cfg = { s.cfg with runtime := [] })) ∧
    (s.pp.state = .standby → h.sender = .bmc → h.target = 0xFF → h.major = 1 → h.minor ≤ s.cfg.minor →
      exec (.moduleStart h) s = .next ({ s with pp := { s.pp with hold := false } }.emit
        (.mctp (answerBytes (Answer.mk .bmc 2 0x0104 h ST_OK []))))) ∧
    (s.admits h (.moduleReset 1) → ∃ t, exec (.moduleResetModule h) s = .next t ∧ t.pp.state = .startup ∧ t.pp.phase = 3 ∧
      t.pp.hold = s.pp.hold ∧ t.fleet.cores = [] ∧ t.dq = State.reset.dq ∧ t.ctx.ctxs = [] ∧ t.mbx.chans = [] ∧
      (s.ctx.dumpBase = none → t.mem.cells = []) ∧ t.cfg.bindingLocked = s.cfg.bindingLocked ∧ t.host.portA = s.host.portA ∧
      t.host.portB = s.host.portB ∧ t.cx.answers = [Answer.mk h.sender 2 0x0105 h ST_OK []]) ∧
    (s.admits h (.moduleReset 2) → ∃ t, exec (.moduleResetCold h) s = .next t ∧ t.pp.state = .startup ∧ t.pp.phase = 2 ∧
      t.pp.hold = false ∧ t.fleet.cores = [] ∧ t.fleet.dies = [] ∧ t.dq = State.reset.dq ∧ t.ctx.ctxs = [] ∧ t.mbx.chans = [] ∧
      t.mem.cells = [] ∧ t.cfg.bindingLocked = false ∧ t.cx.takeovers = 0 ∧ t.host.portA.up = false ∧ t.host.portB.up = false ∧
      (h.sender = .bmc → Output.mctp (answerBytes (Answer.mk .bmc 2 0x0105 h ST_OK [])) ∈ t.out)) ∧
    (∀ d, s.admits h (.dieReset d) → d < 8 → (s.die d).retired = false → s.deferredOf h.sender < 16 →
      ∃ t, exec (.dieReset h d) s = .next t ∧ t.die d = { s.die d with resetting := true } ∧ (∀ e, e ≠ d → t.die e = s.die e) ∧
        s.replied t h (.dieReset d) ST_ACCEPTED ∧
        t = { s with cx := t.cx, fleet := { s.fleet with dies := t.fleet.dies }, wt := { s.wt with models := t.wt.models } }) ∧
    (∀ d, d < 8 → (s.die d).resetting = true → s.pp.state = .service → ∃ t, exec (.dieResetComplete d) s = .next t ∧
      (t.die d).resetting = false ∧ (t.die d).sliceTag = [] ∧ (t.die d).combiners = [] ∧
      (∀ k, k < 64 → (t.core (64 * d + k)).step = none ∧ (t.core (64 * d + k)).regs = zeroRegs ∧
        (t.core (64 * d + k)).sync = [] ∧ (t.core (64 * d + k)).tag = none) ∧
      (∀ a, commonsBase + d * 2 ^ 27 ≤ a → a < commonsBase + d * 2 ^ 27 + 48 * mib2 → t.mem.read a = 0) ∧
      t.pp = s.pp ∧ t.mbx = s.mbx ∧ t.cfg = s.cfg)

/-! ## Phoger commands: memory, contexts and ranges -/

/-- R209–R211, R214. Once accepted: a grant moves free memory of the PF to a VF and a revoke moves it back, whose bytes read zero when its zeroing ends; a new
context takes the lowest free CTAG and a zeroed range table; a destruction is accepted and marks the context alone, and, when it ends, the context, its groups, steps and programs are gone and its notice is queued.
Where it rests on the model's own reading: log entry 80. -/
def Obligations.MemoryAndContextCommands : Prop :=
  ∀ (s : State) (h : CmdHdr),
    (∀ f b l, s.admits h (.memGrant f b l) → 1 ≤ f → f < 256 → s.tdiFixed f = false → b % 65536 = 0 → l % 65536 = 0 → l ≠ 0 →
      s.pfFree b l = true → exec (.memGrant h f b l) s =
        .next ({ s with ctx := { s.ctx with grants := s.ctx.grants ++ [Region.mk f b l] } }.finishCmd h (.memGrant f b l) [])) ∧
    (∀ f b l, s.admits h (.memRevoke f b l) → s.tdiFixed f = false → s.ctx.grants.contains (Region.mk f b l) = true →
      s.regionBusy f b l = false → exec (.memRevoke h f b l) s =
        .next ({ s with ctx := { s.ctx with
          grants := s.ctx.grants.filter fun g => !(g == Region.mk f b l)
          zeroing := s.ctx.zeroing ++ [Region.mk 0 b l] } }.finishCmd h (.memRevoke f b l) [])) ∧
    (∀ b r, s.ctx.zeroing.find? (fun x => x.base == b) = some r → s.mem.wf = true → ∃ t, exec (.revokeZeroingEnd b) s = .next t ∧
      (∀ a, r.base ≤ a → a < r.base + r.length → t.mem.read a = 0) ∧
      (∀ a, a < r.base ∨ r.base + r.length ≤ a → t.mem.read a = s.mem.read a) ∧
      t = { s with mem := t.mem, ctx := { s.ctx with zeroing := s.ctx.zeroing.filter fun x => !(x == r) } }) ∧
    (∀ p k id tb ct, s.admits h (.ctxCreate p k id tb) → tb % 65536 = 0 → tb + tableBytes ≤ capBase →
      s.inTierMemory ((senderFn h.sender).getD 0) tb tableBytes = true → meets s.tableIvs tb tableBytes = false →
      s.ctx.ctxs.length < 4096 → (List.range 4096).find? s.ctagFree = some ct →
      exec (.ctxCreate h p k id tb) s = .next ({ s with
        mem := s.mem.zero tb tableBytes
        ctx := { s.ctx with
          ctxs := tabSet s.ctx.ctxs ct { noContext with
            owner := (senderFn h.sender).getD 0, tableBase := tb, pasid := id
            homePort := if p = 2 then s.setting 7 else p
            compat := if k = 0 then s.setting 4 == 1 else k == 2 }
          roots := tabSet s.ctx.roots ct [] } }.finishCmd h (.ctxCreate p k id tb) (leBytes 2 ct ++ zeros 6))) ∧
    (∀ ct c, s.admits h (.ctxDestroy ct) → s.ownCtx h.sender ct true = .inr c → s.deferredOf h.sender < 16 →
      ∃ t, exec (.ctxDestroy h ct) s = .next t ∧ (t.context ct).dying = true ∧ s.replied t h (.ctxDestroy ct) ST_ACCEPTED ∧
        (∀ x, x ≠ ct → t.context x = s.context x) ∧
        t = { s with
          ctx := { s.ctx with ctxs := t.ctx.ctxs, incarnation := t.ctx.incarnation }, kv := t.kv, cx := t.cx, fab := t.fab, out := t.out }) ∧
    (∀ ct c, tabGet? s.ctx.ctxs ct = some c → c.dying = true → s.supervisorRuns = true →
      ∃ t, exec (.ctxDestroyComplete ct) s = .next t ∧ tabGet? t.ctx.ctxs ct = none ∧
        (∀ x, x ≠ ct → tabGet? t.ctx.ctxs x = tabGet? s.ctx.ctxs x) ∧
        (∀ g, g ∈ t.dq.groups → g.2.ctag ≠ ct) ∧ (∀ x, x ∈ t.dq.steps → x.ctag ≠ ct) ∧ (∀ p, p ∈ t.ctx.programs → p.ctag ≠ ct) ∧
        (∀ d, d ∈ s.cx.deferred → d.cmd = .ctxDestroy ct → d.hdr.sender ≠ .gone →
          Answer.mk d.hdr.sender 3 0x0204 d.hdr ST_OK [] ∈ t.cx.answers) ∧ t.pp = s.pp ∧ t.mbx = s.mbx ∧ t.cfg = s.cfg)

/-- R216, R217, R219, R222, R236. A RANGE_MAP writes its entries to the range table in memory and nothing else there. An invalidation drops every
cached range of its context, holds its walks and waits; once no host read and no open expert entry of the context remains it commits, replies and lets the held walks go on. A key slot takes a key whose halves differ while no
protected range is mapped, and no other context's changes. -/
def Obligations.RangeAndKeyCommands : Prop :=
  ∀ (s : State) (h : CmdHdr) (ct : Nat) (c : Context),
    (∀ first es, s.admits h (.rangeMap ct first es) → s.ownCtx h.sender ct false = .inr c → c.key.isSome = true ∨
        (∀ e, e ∈ es → e.kind = 0 ∨ bit e.attrs 0 = false) → 1 ≤ es.length → es.length ≤ 6 → first + es.length ≤ 16384 →
      es.all (s.entryOk c.owner) = true → rangesOrdered (tableAfter (s.mem.ranges c.tableBase) first es) = true → s.mem.wf = true →
      ∃ t, exec (.rangeMap h ct first es) s = .next t ∧ s.replied t h (.rangeMap ct first es) ST_OK ∧
        t.mem.readN (c.tableBase + 32 * first) (32 * es.length) = es.flatMap rangeBytes ∧
        (∀ a, a < c.tableBase + 32 * first ∨ c.tableBase + 32 * (first + es.length) ≤ a → t.mem.read a = s.mem.read a) ∧
        (t.context ct).owner = (s.context ct).owner ∧ (∀ x, x ≠ ct → t.context x = s.context x) ∧
        t = { s with mem := t.mem, ctx := { s.ctx with ctxs := t.ctx.ctxs, roots := t.ctx.roots }, cx := t.cx }) ∧
    (s.admits h (.rangeInvalidateAll ct) → s.ownCtx h.sender ct false = .inr c →
      ∃ t, exec (.rangeInvalidateAll h ct) s = .next t ∧ t.ctx.invalidating.contains ct = true ∧
        (∀ u, u ∈ t.ctx.caches → ∀ e, e ∈ u.2 → e.ctag ≠ ct) ∧ (∀ w, w ∈ t.ctx.walks → w.ctag = ct → w.held = true) ∧
        t.cx.waiting = s.cx.waiting ++ [Deferred.mk s.cx.nextId h (.rangeInvalidateAll ct)] ∧ t.cx.answers = s.cx.answers ∧
        t = { s with ctx := { s.ctx with
          invalidating := t.ctx.invalidating, walks := t.ctx.walks, roots := t.ctx.roots, caches := t.ctx.caches }, cx := t.cx }) ∧
    (s.ctx.invalidating.contains ct = true → (∀ r, r ∈ s.host.reads → r.ctag ≠ ct) → (∀ e, e ∈ s.wt.entries → e.m.ctag ≠ ct) →
      s.supervisorRuns = true → ∃ t, exec (.invalidationCommit ct) s = .next t ∧ t.ctx.invalidating.contains ct = false ∧
        (∀ w, w ∈ t.ctx.walks → w.ctag = ct → w.held = false) ∧
        (∀ w, w ∈ s.cx.waiting → w.cmd = .rangeInvalidateAll ct → w.hdr.sender ≠ .gone → (s.context ct).dying = false →
          Answer.mk w.hdr.sender 2 0x0206 w.hdr ST_OK [] ∈ t.cx.answers) ∧
        ((∀ x, x ∈ s.dq.steps → x.ctag = ct → x.ended = none) → t = { s with ctx := { s.ctx with
          invalidating := t.ctx.invalidating, walks := t.ctx.walks, ctxs := t.ctx.ctxs }, cx := t.cx })) ∧
    (∀ key, s.admits h (.keySlotSet ct key) → s.ownCtx h.sender ct false = .inr c → key.take 32 ≠ key.drop 32 →
      (s.mapped c).any (fun e => e.kind == 1 && bit e.attrs 0) = false →
      ∃ t, exec (.keySlotSet h ct key) s = .next t ∧ (t.context ct).key = some key ∧ s.replied t h (.keySlotSet ct key) ST_OK ∧
        (∀ x, x ≠ ct → t.context x = s.context x) ∧ t = { s with ctx := { s.ctx with ctxs := t.ctx.ctxs }, cx := t.cx })

/-! ## Phoger commands: steps, queues, programs -/

/-- R134, R195, R200, R230, R234. A resumed step whose cores are free runs again, the cores that had saved from what they saved and, where a save had failed, the others in place; while another
step has its cores it awaits its relaunch; a step that is not suspended, or whose record waits to be held, is not resumed. An abort marks a step whose cores run, ends any other with ST_ABORTED, and is done when the step is aborting already; an aborting
step whose cores have stopped ends with its status and leaves them. Where it rests on the model's own reading: log entry 108 (a resume while the record waits). -/
def Obligations.StepCommands : Prop :=
  ∀ (s : State) (h : CmdHdr) (ct q i : Nat) (c : Context) (x : StepRec),
    (s.admits h (.stepResume ct q i) → s.ownCtx h.sender ct false = .inr c → s.queueOfCtx ct q = true → s.step? q i = some x →
      x.ended = none → x.cond = .suspended → s.recordWaits x = false → s.coresFree x = true → (x.saved.map (·.1)).Nodup →
      ∃ t, exec (.stepResume h ct q i) s = .next t ∧ s.replied t h (.stepResume ct q i) ST_OK ∧
        (t.step? q i).map (·.cond) = some .running ∧ (t.step? q i).map (·.cores) = some x.cores ∧
        (∀ n, n ∈ x.unsaved → x.coresHeld = true →
          (t.core n).stopOrdered = false ∧ (t.core n).regs = (s.core n).regs ∧ (t.core n).pc = (s.core n).pc) ∧
        (∀ n sv, tabGet? x.saved n = some sv →
          (t.core n).regs = sv.regs ∧ (t.core n).pc = sv.pc ∧ (t.core n).step = some (q, i) ∧ (t.core n).power = .active) ∧
        (x.saved = [] → t.mem = s.mem) ∧ t.kv = s.kv ∧ t.ctx = s.ctx ∧ t.mbx = s.mbx) ∧
    (s.admits h (.stepResume ct q i) → s.ownCtx h.sender ct false = .inr c → s.queueOfCtx ct q = true → s.step? q i = some x →
      x.ended = none → x.cond = .suspended → s.recordWaits x = false → s.coresFree x = false →
      exec (.stepResume h ct q i) s = .next (((s.modStep q i fun u => { u with cond := .preempted }).mirrorOut q).finishCmd h
        (.stepResume ct q i) [])) ∧
    (s.admits h (.stepResume ct q i) → s.ownCtx h.sender ct false = .inr c → s.queueOfCtx ct q = true → s.step? q i = some x →
      x.ended ≠ none ∨ x.cond ≠ .suspended ∨ s.recordWaits x = true →
      exec (.stepResume h ct q i) s = .next (s.refuseCmd h (.stepResume ct q i) ST_STATE)) ∧
    (s.admits h (.stepAbort ct q i) → s.ownCtx h.sender ct true = .inr c → s.queueOfCtx ct q = true → s.step? q i = some x →
      x.ended = none → x.cond ≠ .aborting → x.runs = true →
      exec (.stepAbort h ct q i) s = .next ((s.modStep q i fun u => { u with cond := .aborting, faultStatus := ST_ABORTED }).finishCmd h
        (.stepAbort ct q i) [])) ∧
    (s.admits h (.stepAbort ct q i) → s.ownCtx h.sender ct true = .inr c → s.queueOfCtx ct q = true → s.step? q i = some x →
      x.ended = none → x.cond = .aborting → exec (.stepAbort h ct q i) s = .next (s.finishCmd h (.stepAbort ct q i) [])) ∧
    (s.admits h (.stepAbort ct q i) → s.ownCtx h.sender ct true = .inr c → s.queueOfCtx ct q = true → s.step? q i = some x →
      x.ended = none → x.runs = false →
      ∃ t, exec (.stepAbort h ct q i) s = .next t ∧ (∀ u, t.step? q i = some u → u.ended = some ST_ABORTED ∧ u.cores = []) ∧
        s.replied t h (.stepAbort ct q i) ST_OK ∧ t.pp = s.pp ∧ t.mbx = s.mbx ∧ t.cfg = s.cfg) ∧
    (s.step? q i = some x → x.cond = .aborting → x.ended = none → ∃ t, exec (.stepAbortComplete q i) s = .next t ∧
      (∀ u, t.step? q i = some u → u.ended = some x.faultStatus ∧ u.cores = []) ∧
      (∀ n, n ∈ x.cores → (s.core n).step = some (q, i) → (t.core n).step = none) ∧ t.pp = s.pp ∧ t.mbx = s.mbx ∧ t.cfg = s.cfg)

/-- R173–R175, R204. Once accepted: a free group is assigned to its context's function, in a page that no group of that function has; a released group, none of whose queues has a step that has not ended,
returns every queue of it to STATE 0 with its fields cleared; a configured queue takes its class and ring with its indices and counts at zero, and keeps its slot. A member sends the head the entries that changed. -/
def Obligations.QueueCommands : Prop :=
  ∀ (s : State) (h : CmdHdr),
    (∀ g ct f pg c, s.admits h (.qgroupAssign g ct f pg) → tabGet? s.ctx.ctxs ct = some c → c.dying = false → f = c.owner →
      (f = 0 → pg = 0) → pg < 64 → g < 1024 → tabGet? s.dq.groups g = none →
      (f ≠ 0 → s.dq.groups.any (fun x => x.2.fn == f && x.2.vfPage == pg) = false) →
      exec (.qgroupAssign h g ct f pg) s = .next (({ s with dq := { s.dq with
        groups := tabSet s.dq.groups g (QGroup.mk ct f pg) } }.mirrorGroup g).finishCmd h (.qgroupAssign g ct f pg) [])) ∧
    (∀ g x, s.admits h (.qgroupRelease g) → tabGet? s.dq.groups g = some x → s.groupUnended g = false →
      ∃ t, exec (.qgroupRelease h g) s = .next t ∧ s.replied t h (.qgroupRelease g) ST_OK ∧ tabGet? t.dq.groups g = none ∧
        (∀ q, q / 64 = g → t.queueState q = 0 ∧ t.queue q = freshQueue) ∧ (∀ q, q / 64 ≠ g → t.queue q = s.queue q) ∧
        t = { s with dq := { s.dq with groups := t.dq.groups, queues := t.dq.queues }, cx := t.cx, fab := t.fab, out := t.out } ∧
        (s.isHead = true → t.fab = s.fab ∧ t.out = s.out)) ∧
    (∀ q k l r g c, s.admits h (.queueConfigure q k l r) → s.group q = some g → s.ownCtx h.sender g.ctag false = .inr c →
      4 ≤ l → l ≤ 16 → r % 4096 = 0 → (s.queue q).unended = false →
      ∃ t, exec (.queueConfigure h q k l r) s = .next t ∧ s.replied t h (.queueConfigure q k l r) ST_OK ∧
        t.queue q = { freshQueue with
          configured := true, cls := k, log2 := l, ringVa := r, slot := (s.queue q).slot, clearSince := s.aon.clock } ∧
        (∀ p, p ≠ q → t.queue p = s.queue p) ∧
        t = { s with dq := { s.dq with queues := t.dq.queues }, cx := t.cx, fab := t.fab, out := t.out } ∧
        (s.isHead = true → t.fab = s.fab ∧ t.out = s.out))

/-- R163–R172, R276–R279. A load is accepted for a context with room for a handle. The program object read, where container and object keep their rules and its code is mapped for execution, is stored under the
context's next handle, which the notice carries; where its container fails a check, or the object a rule, the notice carries that status, and with 256 handles loaded meanwhile ST_NOSPACE, and nothing is stored. An unload takes a handle out of use.
Where it rests on the model's own reading: log entries 55, 80 and 100. -/
def Obligations.ProgramCommands : Prop :=
  ∀ (s : State) (h : CmdHdr) (ct : Nat) (c : Context),
    (∀ va l, s.admits h (.programLoad ct va l) → s.ownCtx h.sender ct false = .inr c → s.handlesOf ct < 256 →
      s.deferredOf h.sender < 16 → exec (.programLoad h ct va l) s = .next (s.acceptCmd h (.programLoad ct va l))) ∧
    (∀ va l, s.admits h (.programLoad ct va l) → s.ownCtx h.sender ct false = .inr c → 256 ≤ s.handlesOf ct →
      exec (.programLoad h ct va l) s = .next (s.refuseCmd h (.programLoad ct va l) ST_NOSPACE)) ∧
    (∀ id d va l data b p, s.item id = some d → d.cmd = .programLoad ct va l → s.supervisorRuns = true →
      tabGet? s.ctx.ctxs ct = some c → c.dying = false → s.sourceBytes ct va l data = .bytes b →
      containerStatus 1 s.cfg.minor l b = none → parseProgram ct c.nextHandle va b = .inr p →
      s.sourceMapped ct p.codeVa p.codeLen 3 = true →
      (s.handlesOf ct < 256 → ∃ t, exec (.programLoadCheck id data) s = .next t ∧ t.ctx.programs = s.ctx.programs ++ [p] ∧
        p.handle = c.nextHandle ∧ (t.context ct).nextHandle = c.nextHandle + 1 ∧ (∀ x, x ≠ ct → t.context x = s.context x) ∧
        (d.hdr.sender ≠ .gone →
          t.cx.answers = s.cx.answers ++ [Answer.mk d.hdr.sender 3 0x0304 d.hdr ST_OK (leBytes 4 p.handle ++ zeros 4)]) ∧
        t = { s with
          ctx := { s.ctx with programs := t.ctx.programs, ctxs := t.ctx.ctxs }, cx := { s.cx with deferred := t.cx.deferred, answers := t.cx.answers } }) ∧
      (256 ≤ s.handlesOf ct → exec (.programLoadCheck id data) s = .next (s.notice d ST_NOSPACE []))) ∧
    (∀ id d va l data b st, s.item id = some d → d.cmd = .programLoad ct va l → s.supervisorRuns = true →
      tabGet? s.ctx.ctxs ct = some c → c.dying = false → s.sourceBytes ct va l data = .bytes b →
      containerStatus 1 s.cfg.minor l b = some st ∨
        containerStatus 1 s.cfg.minor l b = none ∧ parseProgram ct c.nextHandle va b = .inl st →
      exec (.programLoadCheck id data) s = .next (s.notice d st [])) ∧
    (∀ p, s.admits h (.programUnload ct p) → s.ownCtx h.sender ct false = .inr c →
      s.ctx.programs.any (fun x => x.ctag == ct && x.handle == p && x.loaded) = true →
      exec (.programUnload h ct p) s = .next ({ s with ctx := { s.ctx with programs := s.ctx.programs.map fun (x : Program) =>
        if x.ctag = ct ∧ x.handle = p then { x with loaded := false } else x } }.finishCmd h (.programUnload ct p) []))

/-! ## Phoger commands: pools and offers -/

/-- R366, R367, R369, R379–R381. Once accepted: a pool is made with every record free and a key from the device's random source; a pool that is not busy is destroyed and its memory queued for
zeroing; an offer is noted under the next number, which the reply carries and which marks the sequence's blocks, and its cancellation ends it; an acceptance gives the blocks of the offer to the context and sequence that accept them and ends it; a hint is
noted on the blocks of the sequence and no other. Where it rests on the model's own reading: log entries 28 and 80. -/
def Obligations.PoolCommands : Prop :=
  ∀ (s : State) (h : CmdHdr),
    (∀ p g tr b l, s.admits h (.poolCreate p g tr b l) → s.poolRangeOk p g tr b l = true → s.pool? p = none →
      ∃ t x, exec (.poolCreate h p g tr b l) s = .next t ∧ tabGet? t.kv.pools p = some x ∧ x.base = b ∧ x.length = l ∧ x.log2 = g ∧
        x.tier = tr ∧ x.recs = [] ∧ x.key = s.randomKey.1 ∧ s.replied t h (.poolCreate p g tr b l) ST_OK ∧
        (∀ k, k ≠ p → tabGet? t.kv.pools k = tabGet? s.kv.pools k) ∧
        t = { s with kv := { s.kv with pools := t.kv.pools }, cx := t.cx, drawn := s.drawn + 1 }) ∧
    (∀ p x, s.admits h (.poolDestroy p) → s.pool? p = some x → x.busy = false →
      exec (.poolDestroy h p) s = .next ({ s with
        kv := { s.kv with pools := tabDel s.kv.pools p }
        ctx := { s.ctx with zeroing := s.ctx.zeroing ++ [Region.mk 0 x.base x.length] } }.finishCmd h (.poolDestroy p) [])) ∧
    (∀ r c1 c2 p, s.admits h (.kvOffer 1 r) → s.ownCtx h.sender r.ctag false = .inr c1 → s.ownCtx h.sender r.toCtag false = .inr c2 →
      s.pool? r.pool = some p → s.sequenceOf p r.ctag r.sequence ≠ [] → r.toCtag ≠ r.ctag →
      (∀ k, k ∈ s.sequenceOf p r.ctag r.sequence → (p.record k).offer = 0) → s.kv.offers.length < 1024 →
      ∃ t y, exec (.kvOffer h r) s = .next t ∧ t.kv.offers = s.kv.offers ++ [Offer.mk s.kv.nextOffer r.ctag r.toCtag r.pool] ∧
        t.kv.nextOffer = s.kv.nextOffer + 1 ∧ t.cx.answers = s.cx.answers ++
          [Answer.mk h.sender 2 0x0403 h ST_OK (leBytes 4 s.kv.nextOffer ++ zeros 4)] ∧ t.pool? r.pool = some y ∧
        (∀ k, k ∈ s.sequenceOf p r.ctag r.sequence → y.record k = { p.record k with offer := s.kv.nextOffer }) ∧
        (∀ k, k ∉ s.sequenceOf p r.ctag r.sequence → y.record k = p.record k) ∧ t = { s with kv := t.kv, cx := t.cx }) ∧
    (∀ r c, s.admits h (.kvOffer 2 r) → s.ownCtx h.sender r.ctag false = .inr c →
      s.kv.offers.any (fun o => o.number == r.offer && o.from_ == r.ctag) = true →
      exec (.kvOfferCancel h r) s = .next ((s.endOffer r.offer).finishCmd h (.kvOffer 2 r) (zeros 8))) ∧
    (∀ ct o n c f p, s.admits h (.kvAccept ct o n) → s.ownCtx h.sender ct false = .inr c →
      s.kv.offers.find? (fun x => x.number == o && x.to_ == ct) = some f → s.pool? f.pool = some p →
      (p.recs.filter fun r => r.2.offer == o).all (fun r => decide ((p.record r.1).count ≤ 1)) = true →
      ∃ t, exec (.kvAccept h ct o n) s = .next t ∧ (∀ x, x ∈ t.kv.offers → x.number ≠ o) ∧
        s.replied t h (.kvAccept ct o n) ST_OK ∧ t = { s with kv := t.kv, cx := t.cx } ∧
        (∀ k r, tabGet? p.recs k = some r → r.offer = o → ∃ y, t.pool? f.pool = some y ∧ (y.record k).owner = ct ∧
          (y.record k).sequence = n ∧ (y.record k).offer = 0)) ∧
    (∀ ct pl hint n c p, s.admits h (.kvHint ct pl hint n) → s.ownCtx h.sender ct false = .inr c → s.pool? pl = some p →
      ∃ t y, exec (.kvHint h ct pl hint n) s = .next t ∧ t.pool? pl = some y ∧ s.replied t h (.kvHint ct pl hint n) ST_OK ∧
        (∀ k, k ∈ s.sequenceOf p ct n → (y.record k).hint = hint) ∧
        (∀ k, k ∉ s.sequenceOf p ct n → y.record k = p.record k) ∧ t = { s with kv := t.kv, cx := t.cx })

/-! ## Weights, adapters and placement -/

/-- R170, R171, R454–R456, R463, R464. A begin opens the epoch of a model that has none open, newer than the one in service. A commit takes the switch, with each queue's cut at its producer index, and asks for the container; a member takes the switch at
its word. The check of the tables, on the head with the bytes read for its EPOCH_COMMIT and on a member with those it was sent, opens the distribution of layer 0 and asks for the shards that this member reads, or ends the epoch where they fail. An abort before any layer has been
committed leaves the epoch in service as it was and gives the commit its notice; after one it begins the restore of the old image. No other model changes. Where it rests on the model's own reading: log entry 48. -/
def Obligations.EpochCommands : Prop :=
  ∀ (s : State) (h : CmdHdr) (n e : Nat),
    (∀ src, s.admits h (.epochBegin n e src) → n < 16 → (s.model n).phase = .none_ → (s.model n).service < e → src.addr % 64 = 0 →
      s.placing n = false → ∃ t, exec (.epochBegin h n e src) s = .next t ∧ (t.model n).phase = .opened ∧ (t.model n).opened = e ∧
        (t.model n).source = some src ∧ (t.model n).service = (s.model n).service ∧ (t.model n).image = (s.model n).image ∧
        s.replied t h (.epochBegin n e src) ST_OK ∧ (∀ k, k ≠ n → t.model k = s.model k) ∧
        t = { s with wt := { s.wt with models := t.wt.models }, cx := t.cx, fab := t.fab, out := t.out, drawn := t.drawn }) ∧
    (s.admits h (.epochCommit n e) → n < 16 → (s.model n).phase = .opened → (s.model n).opened = e → s.deferredOf h.sender < 16 →
      ∃ t, exec (.epochCommit h n e) s = .next t ∧ (t.model n).phase = .checking ∧
        (t.model n).cuts = s.dq.queues.map (fun q => (q.1, q.2.producer)) ∧ s.replied t h (.epochCommit n e) ST_ACCEPTED ∧
        (∀ k, k ≠ n → t.model k = s.model k) ∧ (∀ b p, (s.model n).source = some b → s.fnPort 0 = some p →
          Output.hostRead p 0 b.pasid b.addr b.length 0 ∈ t.out) ∧
        t = { s with
          wt := { s.wt with models := t.wt.models }, dq := { s.dq with switches := t.dq.switches }, cx := t.cx, fab := t.fab, out := t.out }) ∧
    (n < 16 → (s.model n).phase = .opened → (s.model n).opened = e →
      exec (.switchReceive n e) s = .next (s.setModel n fun m => { m with
        phase := .checking, cuts := s.dq.queues.map fun q => (q.1, q.2.producer) })) ∧
    (∀ id b i, s.supervisorRuns = true →
      ((∃ d, s.item id = some d ∧ d.cmd = .epochCommit n e ∧ (s.fnPort 0).isSome = true ∧
          (s.model n).source.map (·.length) = some b.length) ∨
        s.item id = none ∧ s.isHead = false ∧ ((sectionOf b 1).map fun x => fieldAt x 0 1) = some n) →
      (s.model n).phase = .checking → s.checkImage n b = .inr i →
      (∀ x, x ∈ i.layerShards 0 → x.2.reader = s.fab.device → s.pfPort.isSome = true) →
      ∃ t, exec (.epochCommitCheck id (.ok b)) s = .next t ∧ (t.model n).phase = .staging ∧ (t.model n).openImage = some i ∧
        (t.model n).podCommitted = 0 ∧ (t.model n).frontier = 0 ∧ (t.model n).service = (s.model n).service ∧
        (∀ k, k ≠ n → t.model k = s.model k) ∧
        t = { s with
          wt := { s.wt with models := t.wt.models }, host := { s.host with reads := t.host.reads, nextRead := t.host.nextRead }, out := t.out } ∧
        ∀ x p, x ∈ i.layerShards 0 → x.2.reader = s.fab.device → s.pfPort = some p →
          (s.host.reads.any fun r => r.purpose == ReadPurpose.shard n x.1) = false →
          ∃ r, r ∈ t.host.reads ∧ r.purpose = .shard n x.1 ∧ r.port = p ∧ r.addr = x.2.hostAddr ∧ r.length = x.2.padded) ∧
    (∀ id d b st, s.supervisorRuns = true → s.item id = some d → d.cmd = .epochCommit n e → (s.fnPort 0).isSome = true →
      (s.model n).source.map (·.length) = some b.length → (s.model n).phase = .checking → s.checkImage n b = .inl st →
      (s.model n).highest = 0 → ∃ t, exec (.epochCommitCheck id (.ok b)) s = .next t ∧ (t.model n).phase = .none_ ∧ (t.model n).opened = 0 ∧
        (t.model n).service = (s.model n).service ∧ (t.model n).image = (s.model n).image ∧ (∀ k, k ≠ n → t.model k = s.model k) ∧
        (∀ x, s.commitItem n = some x → x.hdr.sender ≠ .gone → Answer.mk x.hdr.sender 3 0x0502 x.hdr st [] ∈ t.cx.answers)) ∧
    (s.admits h (.epochAbort n e) → n < 16 → (s.model n).isOpen = true → (s.model n).opened = e → (s.model n).highest = 0 →
      ∃ t, exec (.epochAbort h n e) s = .next t ∧ (t.model n).phase = .none_ ∧ (t.model n).opened = 0 ∧
        (t.model n).service = (s.model n).service ∧ (t.model n).image = (s.model n).image ∧ (∀ k, k ≠ n → t.model k = s.model k) ∧
        (∀ d, s.commitItem n = some d → d.hdr.sender ≠ .gone →
          Answer.mk d.hdr.sender 3 0x0502 d.hdr ST_ABORTED [] ∈ t.cx.answers)) ∧
    (s.admits h (.epochAbort n e) → n < 16 → (s.model n).swapping = true → (s.model n).opened = e → (s.model n).highest ≠ 0 →
      (s.model n).service ≠ 0 → s.pfPort.isSome = true → ∃ t, exec (.epochAbort h n e) s = .next t ∧ (t.model n).phase = .restoring ∧
        (t.model n).restoreTo = (s.model n).highest ∧ (t.model n).podCommitted = 0 ∧ (t.model n).image = (s.model n).image ∧
        (t.model n).service = (s.model n).service ∧ (∀ k, k ≠ n → t.model k = s.model k))

/-- R417–R419, R449, R450. A load is accepted for a number in range that is free or the context's own. A verified adapter becomes resident; the epoch before it retires, until no step is bound to it, when it is dropped and the notice sent. An unload of
an adapter to which no step is bound frees its number. A table that passes its checks is in force at once where no other member has a part in it; else it is sent to the others, of which each checks and stages it and answers, and once all have staged it the head
installs its own and has them commit, and sends the notice when they have; a member's refusal ends it with that status and nothing installed, and one lost with ST_UNREACHED. Where it rests on the model's own reading: log entries 37 and 43. -/
def Obligations.AdapterAndPlacementCommands : Prop :=
  ∀ (s : State) (h : CmdHdr),
    (∀ ct n r e va l c, s.admits h (.adapterLoad ct n r e va l) → s.ownCtx h.sender ct false = .inr c → n < 1024 → 1 ≤ r → r ≤ 256 →
      (∀ a, tabGet? s.wt.adapters n = some a → a.ctag = ct) → s.adaptersResident < 1024 → s.deferredOf h.sender < 16 →
      exec (.adapterLoad h ct n r e va l) s = .next (s.acceptCmd h (.adapterLoad ct n r e va l))) ∧
    (∀ id d ct n r e va l data b c x, s.item id = some d → d.cmd = .adapterLoad ct n r e va l → s.supervisorRuns = true →
      tabGet? s.ctx.ctxs ct = some c → c.dying = false → s.sourceBytes ct va l data = .bytes b →
      containerStatus 3 s.cfg.minor l b = none → parseAdapter e r va b = .inr x → tabGet? s.wt.adapters n = none →
      ∃ t, exec (.adapterLoadCheck id data) s = .next t ∧ tabGet? t.wt.adapters n = some (Adapter.mk ct (some x) none d.id) ∧
        (∀ k, k ≠ n → tabGet? t.wt.adapters k = tabGet? s.wt.adapters k) ∧ x.epoch = e ∧ x.rank = r ∧
        (d.hdr.sender ≠ .gone → t.cx.answers = s.cx.answers ++ [Answer.mk d.hdr.sender 3 0x0504 d.hdr ST_OK []]) ∧
        t = { s with wt := { s.wt with adapters := t.wt.adapters }, cx := t.cx }) ∧
    (∀ id d ct n r e va l data b c x a o, s.item id = some d → d.cmd = .adapterLoad ct n r e va l → s.supervisorRuns = true →
      tabGet? s.ctx.ctxs ct = some c → c.dying = false → s.sourceBytes ct va l data = .bytes b →
      containerStatus 3 s.cfg.minor l b = none → parseAdapter e r va b = .inr x → tabGet? s.wt.adapters n = some a → a.ctag = ct →
      a.resident = some o → a.retiring = none → o.epoch < e → s.adapterBound n (some o.epoch) = true →
      exec (.adapterLoadCheck id data) s = .next { s with wt := { s.wt with
        adapters := tabSet s.wt.adapters n (Adapter.mk ct (some x) (some o) d.id) } }) ∧
    (∀ n a e, s.supervisorRuns = true → tabGet? s.wt.adapters n = some a → a.retiring = some e →
      (s.adapterBound n (some e.epoch) = false → ∃ t, exec (.adapterEpochDrop n) s = .next t ∧
        tabGet? t.wt.adapters n = some { a with retiring := none } ∧
        (∀ k, k ≠ n → tabGet? t.wt.adapters k = tabGet? s.wt.adapters k) ∧
        (∀ d, s.item a.noticeItem = some d → d.hdr.sender ≠ .gone →
          t.cx.answers = s.cx.answers ++ [Answer.mk d.hdr.sender 3 (cmdOpcode d.cmd) d.hdr ST_OK []]) ∧
        t = { s with wt := { s.wt with adapters := t.wt.adapters }, cx := t.cx }) ∧
      (s.adapterBound n (some e.epoch) = true → exec (.adapterEpochDrop n) s = .next s)) ∧
    (∀ ct n c a, s.admits h (.adapterUnload ct n) → s.ownCtx h.sender ct false = .inr c → tabGet? s.wt.adapters n = some a →
      a.ctag = ct → s.adapterBound n none = false →
      exec (.adapterUnload h ct n) s = .next ({ s with wt := { s.wt with adapters := tabDel s.wt.adapters n } }.finishCmd h
        (.adapterUnload ct n) [])) ∧
    (∀ n src, s.admits h (.placementApply n src) → n < 16 → src.addr % 64 = 0 → s.deferredOf h.sender < 16 →
      exec (.placementApply h n src) s = .next (s.acceptCmd h (.placementApply n src))) ∧
    (∀ id d n src b p lost, s.supervisorRuns = true → s.item id = some d → d.cmd = .placementApply n src → b.length = src.length →
      (s.fnPort ((senderFn d.hdr.sender).getD 0)).isSome = true → tabGet? s.wt.placeJobs n = none →
      s.checkPlacement n src.length b = .inr p →
      (s.placeFar p = [] → bit p.mask s.fab.device = true → ∃ t, exec (.placementApplyInstall id (.ok b) lost) s = .next t ∧
        t.placement? n = some p ∧ (∀ k, k ≠ n → t.placement? k = s.placement? k) ∧
        (d.hdr.sender ≠ .gone → t.cx.answers = s.cx.answers ++ [Answer.mk d.hdr.sender 3 0x0506 d.hdr ST_OK []]) ∧
        t = { s with wt := { s.wt with placements := t.wt.placements, placeJobs := t.wt.placeJobs }, cx := t.cx }) ∧
      (s.placeFar p ≠ [] → ∃ t, exec (.placementApplyInstall id (.ok b) lost) s = .next t ∧
        tabGet? t.wt.placeJobs n = some (PlaceJob.mk p [] false) ∧ (∀ m, m ∈ s.placeFar p → Output.packet m 0 (.placement n b) ∈ t.out) ∧
        t = { s with wt := { s.wt with placeJobs := t.wt.placeJobs }, fab := t.fab, out := t.out })) ∧
    (∀ id b p n lost, s.supervisorRuns = true → s.item id = none → s.isHead = false → fieldAt b 5 1 = n → n < 16 →
      s.checkPlacement n b.length b = .inr p → ∃ t, exec (.placementApplyInstall id (.ok b) lost) s = .next t ∧
        tabGet? t.wt.stagedTables n = some p ∧ Output.packet s.headDevice 0 (.placeDone s.fab.device n ST_OK) ∈ t.out ∧
        t = { s with wt := { s.wt with stagedTables := t.wt.stagedTables }, fab := t.fab, out := t.out }) ∧
    (∀ id d n src data lost j, s.supervisorRuns = true → s.item id = some d → d.cmd = .placementApply n src →
      tabGet? s.wt.placeJobs n = some j →
      ((∀ m, m ∈ s.placeFar j.table → (tabGet? j.answers m).isSome = true) →
        (j.committing = true → exec (.placementApplyInstall id data lost) s = .next (s.placeEnd d n ST_OK)) ∧
        (∀ st, j.committing = false → j.failure = some st → exec (.placementApplyInstall id data lost) s = .next (s.placeEnd d n st)) ∧
        (j.committing = false → j.failure = none → s.placeFar j.table ≠ [] → bit j.table.mask s.fab.device = true →
          ∃ t, exec (.placementApplyInstall id data lost) s = .next t ∧ t.placement? n = some j.table ∧
            (∀ k, k ≠ n → t.placement? k = s.placement? k) ∧ tabGet? t.wt.placeJobs n = some (PlaceJob.mk j.table [] true) ∧
            (∀ m, m ∈ s.placeFar j.table → Output.packet m 0 (.placeCommit n) ∈ t.out) ∧
            t = { s with wt := { s.wt with placements := t.wt.placements, placeJobs := t.wt.placeJobs }, fab := t.fab, out := t.out })) ∧
      ((∃ m, m ∈ s.placeFar j.table ∧ tabGet? j.answers m = none) → exec (.placementApplyInstall id data lost) s =
        .next (if lost = true then s.placeEnd d n ST_UNREACHED else s)))

/-- R26, R451–R453, R458, R459, R171. A frame that this member lacks and whose CRC passes is staged with its CRC and sent on to the member's children; with the shard's last frame the shard is verified where its digest is good, and else forgotten whole. One whose CRC
fails, or that is missing after later ones have arrived, is asked of the parent, or by the reader of host memory. A holder serves a frame, and one that lacks it asks its parent; a round asks the parent for every frame that is missing. A layer whose shards are verified is copied to its store once no old-epoch core can read it, and
where memory of a shard has been lost it is not; its commit raises the frontier and is reported to the head; at the pod-wide commit, which the head journals, the next layer begins, or after the last one the epoch is in service and the notice sent. Where it rests on the model's own reading: log
entries 33, 35 and 107. -/
def Obligations.LayerDistribution : Prop :=
  ∀ (s : State) (n k j : Nat) (i : Image) (x : Shard),
    (∀ bytes, (s.model n).current = some i → (s.model n).shardNow k = some x → j < x.frames → x.frames ≤ 2 ^ 24 → bytes.length = 4096 →
      (s.model n).keyOf i = none → s.takesShard x = true → (s.model n).verified.contains k = false →
      tabGet? (s.model n).frames (frameKey k j) = none → s.mem.wf = true →
      ∃ t, exec (.weightFrameReceive n k j (crc32c bytes) bytes) s = .next t ∧
        t.mem.readN (x.stagePa + 4096 * j) 4096 = bytes ∧
        t.mem.readN (x.stagePa + 4096 * x.frames + 4 * j) 4 = leBytes 4 (crc32c bytes) ∧
        (∀ a, a < x.stagePa + 4096 * j ∨ x.stagePa + 4096 * (j + 1) ≤ a →
          a < x.stagePa + 4096 * x.frames + 4 * j ∨ x.stagePa + 4096 * x.frames + 4 * j + 4 ≤ a → t.mem.read a = s.mem.read a) ∧
        (∀ c, c ∈ s.children x → Output.packet c 7 (.weightFrame n k j bytes) ∈ t.out) ∧
        ((∃ y, y < x.frames ∧ y ≠ j ∧ tabGet? (s.model n).frames (frameKey k y) = none) →
          tabGet? (t.model n).frames (frameKey k j) = some 1 ∧ (t.model n).verified = (s.model n).verified) ∧
        ((∀ y, y < x.frames → y ≠ j → (tabGet? (s.model n).frames (frameKey k y)).isSome = true) →
          (i.shardGood x (t.staged (s.model n) i x) = true → (t.model n).verified = (s.model n).verified ++ [k]) ∧
          (i.shardGood x (t.staged (s.model n) i x) = false → (t.model n).verified = (s.model n).verified ∧
            ∀ y, y < x.frames → tabGet? (t.model n).frames (frameKey k y) = none)) ∧
        (∀ m, m ≠ n → t.model m = s.model m) ∧
        t = { s with mem := t.mem, wt := { s.wt with models := t.wt.models }, fab := t.fab, out := t.out }) ∧
    (∀ crc bytes, (s.model n).shardNow k = some x → j < x.frames → bytes.length = 4096 → crc32c bytes ≠ crc →
      exec (.weightFrameReceive n k j crc bytes) s = .next (if s.takesShard x = true then s.askParent n k j x else s)) ∧
    (∀ y, (s.model n).shardNow k = some x → s.takesShard x = true → j < x.frames → j < y → y < 2 ^ 24 →
      tabGet? (s.model n).frames (frameKey k j) = none → tabGet? (s.model n).frames (frameKey k y) = some 1 →
      exec (.frameRequestTimeout n k j) s = .next (s.askParent n k j x)) ∧
    (∀ p, x.reader ≠ s.fab.device → s.parent x = some p → s.askParent n k j x = s.send p 7 (.frameRequest n k j)) ∧
    (∀ p, x.reader = s.fab.device → s.pfPort = some p → s.askParent n k j x = s.readShard n k x p) ∧
    (∀ src, (s.model n).current = some i → (s.model n).shardNow k = some x → i.shards[k]? = some x → j < x.frames →
      ((tabGet? (s.model n).frames (frameKey k j)).isSome = true →
        exec (.frameRequestReceive src n k j) s = .next (s.send src 7 (.weightFrame n k j
          (s.mem.devRead ((s.model n).keyOf i) (x.stagePa + 4096 * j) 4096)))) ∧
      (tabGet? (s.model n).frames (frameKey k j) = none →
        exec (.frameRequestReceive src n k j) s = .next (s.askParent n k j x))) ∧
    ((s.model n).current = some i → (s.model n).distributing = true →
      ∃ t, exec (.frameRequestRound n) s = .next t ∧ t.model n = s.model n ∧ t.mem = s.mem ∧ t.dq = s.dq ∧ t.fleet = s.fleet ∧
        t.ctx = s.ctx ∧
        ∀ y f p, y ∈ i.layerShards (s.model n).podCommitted → s.takesShard y.2 = true → (s.model n).verified.contains y.1 = false →
          f ∈ (s.model n).missing y.1 y.2 → y.2.reader ≠ s.fab.device → s.parent y.2 = some p →
          Output.packet p 7 (.frameRequest n y.1 f) ∈ t.out) ∧
    (∀ l, (s.model n).phase = .staging → (s.model n).openImage = some i → (s.model n).podCommitted = l → s.pp.state = .service →
      (∀ y, y ∈ i.layerShards l → s.takesShard y.2 = true → (s.model n).verified.contains y.1 = true) → s.oldPast n l = true →
      (l = 0 → s.drained n = true) → s.mem.wf = true →
      ((∀ y, y ∈ i.layerShards l → s.takesShard y.2 = true → s.copyBlock y.2 = none) →
        ∃ t, exec (.layerCopy n) s = .next t ∧ (t.model n).phase = .copying ∧ (∀ m, m ≠ n → t.model m = s.model m) ∧
          t = { s with mem := t.mem, wt := { s.wt with models := t.wt.models } } ∧
          (∀ a, (∀ y, y ∈ i.layerShards l → s.takesShard y.2 = true → a < y.2.storePa ∨ y.2.storePa + y.2.storeLen ≤ a) →
            (∀ y, y ∈ i.layerShards l → y.2.padded ≤ y.2.storeLen ∧ y.2.form = 1) → (s.model n).keyOf i = none →
            t.mem.read a = s.mem.read a) ∧
          (∀ y, i.layerShards l = [y] → s.takesShard y.2 = true → y.2.form = 1 → (s.model n).keyOf i = none →
            y.2.padded ≤ y.2.storeLen → t.mem.readN y.2.storePa y.2.padded = s.mem.readN y.2.stagePa y.2.padded)) ∧
      ((∃ y, y ∈ i.layerShards l ∧ s.takesShard y.2 = true ∧ (s.copyBlock y.2).isSome = true) →
        ∃ t, exec (.layerCopy n) s = .next t ∧ t = { s with aon := t.aon, rel := t.rel })) ∧
    ((s.model n).phase = .copying → s.pp.state = .service → s.supervisorRuns = true →
      ∃ t, exec (.layerCommit n) s = .next t ∧ (t.model n).frontier = (s.model n).podCommitted + 1 ∧ (t.model n).phase = .waiting ∧
        (s.isHead = true → bit (t.model n).reported s.fab.device = true) ∧
        (s.isHead = false → Output.packet s.headDevice 7 (.layerReport n (s.model n).podCommitted) ∈ t.out) ∧
        (∀ m, m ≠ n → t.model m = s.model m) ∧ t.mem = s.mem ∧ t.ctx = s.ctx) ∧
    ((s.model n).phase = .waiting → s.isHead = true → maskWithin s.podMask (s.model n).reported = true → s.supervisorRuns = true →
      (s.model n).openImage = some i →
      (i.layers.length ≤ (s.model n).podCommitted + 1 →
        ∃ t, exec (.podLayerCommit n) s = .next t ∧ (t.model n).service = (s.model n).opened ∧ (t.model n).image = some i ∧
          (t.model n).phase = .none_ ∧ (t.model n).opened = 0 ∧
          (∃ e, t.cx.journal = s.cx.journal ++ [e] ∧ e.opcode = 0x0502 ∧ e.committed = true) ∧
          (∀ d, s.commitItem n = some d → d.hdr.sender ≠ .gone → Answer.mk d.hdr.sender 3 0x0502 d.hdr ST_OK [] ∈ t.cx.answers)) ∧
      ((s.model n).podCommitted + 1 < i.layers.length → s.pfPort.isSome = true →
        ∃ t, exec (.podLayerCommit n) s = .next t ∧ (t.model n).podCommitted = (s.model n).podCommitted + 1 ∧
          (t.model n).phase = .staging ∧ (t.model n).frames = [] ∧ (t.model n).verified = [] ∧
          (∃ e, t.cx.journal = s.cx.journal ++ [e] ∧ e.opcode = 0x0502 ∧ e.committed = true)))

/-! ## Plans, ports and pod states -/

/-- R483–R486, R490, R498. PLAN_LOAD is accepted, and the plan read for it is staged here where it is well formed, names links that exist and passes the head's checks, or ends the command with the status of the check that fails. A member that the plan names stages a plan that it accepts and
reports to the head, and reports the status of one that it does not accept. A commit puts the plan staged in force with the member's device number, in STARTUP without ports steps the timebase, at a member by the head's amount and at the head by the pod's, and is reported to the head; the command ends
with ST_OK once every member has committed, or ST_UNREACHED where one has not within 10 ms. The head sends each tabled change of pod state to the members, and a member takes the state it is sent.
Where it rests on the model's own reading: log entries 46 and 47. -/
def Obligations.PlansAndPodStates : Prop :=
  ∀ (s : State) (h : CmdHdr),
    (∀ src, s.admits h (.planLoad src) → src.addr % 64 = 0 → s.deferredOf h.sender < 16 →
      exec (.planLoad h src) s = .next (s.acceptCmd h (.planLoad src))) ∧
    (∀ b off d src, s.planItem = some d → d.cmd = .planLoad src → b.length = src.length → (s.fnPort 0).isSome = true →
      s.supervisorRuns = true → s.fab.staged = none →
      (∀ p, parsePlan b = some p → planLinksOk b = true → s.headPlanOk p = true → s.memberPlanStatus p = ST_OK →
        ∃ t, exec (.planReceive (.ok b) off) s = .next t ∧ t.fab.staged = some p ∧ t.fab.plan = s.fab.plan ∧ t.fab.planBytes = b ∧
          (∃ r, r ∈ t.fab.reports ∧ r.member = p.head) ∧ t.mem = s.mem ∧ t.ctx = s.ctx ∧ t.fleet = s.fleet) ∧
      (parsePlan b = none → exec (.planReceive (.ok b) off) s = .next (s.planFails ST_MALFORMED)) ∧
      (∀ p, parsePlan b = some p → planLinksOk b = false ∨ s.headPlanOk p = false →
        exec (.planReceive (.ok b) off) s = .next (s.planFails ST_RANGE)) ∧
      (∀ p, parsePlan b = some p → planLinksOk b = true → s.headPlanOk p = true → s.memberPlanStatus p ≠ ST_OK →
        exec (.planReceive (.ok b) off) s = .next (s.planFails (s.memberPlanStatus p)))) ∧
    (∀ b off p m, s.planItem = none → s.supervisorRuns = true → parsePlan b = some p → s.ownRecord p = some m →
      s.fab.staged ≠ some p → s.fab.plan ≠ some p → ∃ t, exec (.planReceive (.ok b) off) s = .next t ∧ t.fab.plan = s.fab.plan ∧
        Output.packet p.head 0 (.planReport m.device (s.memberPlanStatus p) off s.willStep) ∈ t.out ∧
        (s.memberPlanStatus p = ST_OK → t.fab.staged = some p ∧ t.fab.offset = off) ∧
        (s.memberPlanStatus p ≠ ST_OK → t.fab.staged = s.fab.staged ∧ t.fab.offset = s.fab.offset) ∧
        t.mem = s.mem ∧ t.ctx = s.ctx ∧ t.fleet = s.fleet) ∧
    (∀ sh p m, s.fab.staged = some p → s.ownRecord p = some m → m.device ≠ p.head → s.supervisorRuns = true →
      ∃ t, exec (.planCommit sh) s = .next t ∧ t.fab.plan = some p ∧ t.fab.staged = none ∧ t.fab.device = m.device ∧
        (s.willStep = true → t.aon.timebase = (s.aon.timebase + sh / 40 * 40) % 2 ^ 64) ∧
        (s.willStep = false → t.aon.timebase = s.aon.timebase) ∧ Output.packet p.head 0 (.planDone m.device) ∈ t.out ∧
        t.mem = s.mem ∧ t.ctx = s.ctx ∧ t.fleet = s.fleet) ∧
    (∀ sh p m, s.fab.staged = some p → s.ownRecord p = some m → m.device = p.head → s.supervisorRuns = true →
      s.planItem.isSome = true → (∀ k, k ∈ p.members → ∃ r, r ∈ s.fab.reports ∧ r.member = k.device) →
      ∃ t, exec (.planCommit sh) s = .next t ∧ t.fab.plan = some p ∧ t.fab.staged = none ∧ t.fab.device = m.device ∧
        bit t.fab.committed m.device = true ∧
        (s.willStep = true → t.aon.timebase = (s.aon.timebase + s.podStep) % 2 ^ 64) ∧
        (s.willStep = false → t.aon.timebase = s.aon.timebase) ∧ t.mem = s.mem ∧ t.ctx = s.ctx ∧ t.fleet = s.fleet) ∧
    (∀ id d src p, s.item id = some d → d.cmd = .planLoad src → s.supervisorRuns = true → s.fab.staged = none → s.fab.plan = some p →
      (s.fab.committed = p.mask → exec (.planLoadComplete id) s =
        .next ({ s with fab := { s.fab with committed := 0 } }.notice d ST_OK [])) ∧
      (s.fab.committed ≠ p.mask → s.fab.committed ≠ 0 → planPatience ≤ s.aon.clock - s.fab.dispatchedAt →
        exec (.planLoadComplete id) s = .next ({ s with fab := { s.fab with committed := 0 } }.notice d ST_UNREACHED []))) ∧
    (∀ st, s.admits h (.podStateSet st) →
      (st = s.fab.podState → exec (.podStateSet h st) s = .next (s.finishCmd h (.podStateSet st) [])) ∧
      (st ≠ s.fab.podState → s.podChangeOk st = false →
        exec (.podStateSet h st) s = .next (s.refuseCmd h (.podStateSet st) ST_STATE)) ∧
      (st ≠ s.fab.podState → s.podChangeOk st = true →
        ∃ t, exec (.podStateSet h st) s = .next t ∧ t.fab.podState = st ∧ s.replied t h (.podStateSet st) ST_OK ∧
          (∀ m, m ∈ s.otherMembers → Output.packet m 3 (.podState st) ∈ t.out) ∧ t.fab.plan = s.fab.plan ∧
          t = { s with fab := t.fab, cx := t.cx, out := t.out })) ∧
    (∀ st, st < 4 → s.isHead = false → exec (.podStateReceive st) s = .next { s with fab := { s.fab with podState := st } })

/-- R479, R482. A port is defined, with no link in another, over matched links that the plan gives one neighbour; a port that is removed is gone at once where its direct flits have been acknowledged, and else is marked as being removed. Every other port that is not being removed stays, and the table of ports keeps its ascending numbers.
Where it rests on the model's own reading: log entry 32. -/
def Obligations.PortCommands : Prop :=
  ∀ (s : State) (h : CmdHdr),
    (∀ pt mk p nb, s.admits h (.portDefine pt mk) → s.fab.plan = some p → pt < 18 → mk ≠ 0 →
      (∀ l, l ∈ bitList 18 mk → (s.link l).state = .matched ∧ s.portOf l = none) → s.portNeighbours p mk = [nb] →
      tabGet? s.fab.ports pt = none → (s.fab.ports.map (·.1)).Pairwise (· < ·) → ∃ t, exec (.portDefine h pt mk) s = .next t ∧
        (tabGet? t.fab.ports pt).map (fun d => (d.mask, d.neighbour, d.removing)) = some (mk, nb, false) ∧
        (∀ k, k ≠ pt → (tabGet? t.fab.ports k).map (fun d => (d.mask, d.neighbour, d.removing)) =
          (tabGet? s.fab.ports k).map fun d => (d.mask, d.neighbour, d.removing)) ∧
        (t.fab.ports.map (·.1)).Pairwise (· < ·) ∧ s.replied t h (.portDefine pt mk) ST_OK ∧ t.fab.plan = s.fab.plan ∧ t = { s with fab := t.fab, cx := t.cx, out := t.out }) ∧
    (∀ pt d, s.admits h (.portRemove pt) → (s.fab.ports.map (·.1)).Pairwise (· < ·) → tabGet? s.fab.ports pt = some d →
      ∃ t, exec (.portRemove h pt) s = .next t ∧
        tabGet? t.fab.ports pt = (if s.portQuiet d = true then none else some { d with removing := true }) ∧
        (∀ k e, k ≠ pt → tabGet? s.fab.ports k = some e → e.removing = false → tabGet? t.fab.ports k = some e) ∧
        (t.fab.ports.map (·.1)).Pairwise (· < ·) ∧ s.replied t h (.portRemove pt) ST_OK ∧ t = { s with fab := t.fab, cx := t.cx, out := t.out })

/-! ## Links, flits and stored messages -/

/-- R468–R471, R541. A link that is down or training, not retired, in a module that is neither OFF nor STANDBY, passes the stages of its training: the first leaves it training, the second sends its identity record, and the third, with the
neighbour's record in hand, gives the link the state of that record, clears its attempts and sends a credit audit and whether the link lies in a port. The record gives management only where the versions do not agree, identified where there is no plan, matched where it agrees with the plan and quarantined where it
does not. A record that comes before the third stage is kept; one that comes later is compared again. A retraining, which a retransmission counts for only the eighth time, begins the training again with a record, and after three attempts the link is failed; a failed link is tried again after 60 s, and retired once it has failed for
24 h. Where it rests on the model's own reading: log entries 32, 45 and 62. -/
def Obligations.LinkStatesFollowTraining : Prop :=
  ∀ (s : State) (l : Nat), l < 18 →
    ((s.link l).state = .down ∨ (s.link l).state = .training → (s.link l).retired = false → s.pp.state ≠ .off → s.pp.state ≠ .standby →
      ((s.link l).stage = 0 → exec (.linkTrainingStageEnd l) s = .next (s.setLink l fun x => { x with
        state := .training, stage := 1, attempts := max 1 x.attempts })) ∧
      ((s.link l).stage = 1 → ∃ t, exec (.linkTrainingStageEnd l) s = .next t ∧ (t.link l).stage = 2 ∧
        (t.link l).state = (s.link l).state ∧ Output.packet 0xFF 0 (.identity l) ∈ t.out ∧ (∀ k, k ≠ l → t.link k = s.link k) ∧
        t = { s with fab := { s.fab with links := t.fab.links }, out := t.out }) ∧
      ((s.link l).stage = 2 → (s.link l).neighbour = none → exec (.linkTrainingStageEnd l) s = .next s) ∧
      (∀ r, (s.link l).stage = 2 → (s.link l).neighbour = some r → ∃ t, exec (.linkTrainingStageEnd l) s = .next t ∧
        (t.link l).stage = 3 ∧ (t.link l).attempts = 0 ∧ (t.link l).failedFrom = none ∧ (t.link l).state = s.linkVerdict l r ∧
        Output.packet 0xFF 0 (.creditAudit l) ∈ t.out ∧
        ((s.fab.ports.map (·.1)).Pairwise (· < ·) →
          Output.packet 0xFF 0 (.portWord r.link (s.fab.ports.any fun p => bit p.2.mask l && !p.2.removing)) ∈ t.out) ∧
        t = { s with fab := t.fab, aon := t.aon, dq := t.dq, cx := t.cx, out := t.out } ∧
        (s.linkVerdict l r ≠ .matched → t.dq = s.dq ∧ t.cx = s.cx ∧ ∀ k, k ≠ l → (t.link k).state = (s.link k).state))) ∧
    (∀ r, (versionsAgree r = false → s.linkVerdict l r = .mgmtOnly) ∧
      (versionsAgree r = true → s.planNow = none → s.linkVerdict l r = .identified) ∧
      (∀ p, versionsAgree r = true → s.planNow = some p → s.agrees p l r = true → s.linkVerdict l r = .matched) ∧
      (∀ p, versionsAgree r = true → s.planNow = some p → s.agrees p l r = false → s.linkVerdict l r = .quarantined)) ∧
    (∀ c, (s.link l).trained = true ∨ (s.link l).state = .training → (c = 1 → 8 ≤ (s.link l).sameRetries) →
      ∃ t, exec (.linkRetrain l c) s = .next t ∧ (t.link l).stage = 0 ∧ (t.link l).neighbour = none ∧
        ((s.link l).attempts < 3 → (t.link l).state = .training ∧ (t.link l).attempts = (s.link l).attempts + 1) ∧
        (3 ≤ (s.link l).attempts → (t.link l).state = .failed ∧ (t.link l).failedSince = s.aon.clock) ∧
        ((s.link l).state ≠ .matched → t.aon = (s.cometF7 7 l [c, (s.link l).attempts]).aon ∧ (∀ k, k ≠ l → t.link k = s.link k) ∧
          t = { s with fab := { s.fab with links := t.fab.links }, aon := t.aon }) ∧
        t = { s with fab := t.fab, aon := t.aon, dq := t.dq, cx := t.cx, out := t.out }) ∧
    (∀ c, c = 1 → (s.link l).sameRetries < 8 → exec (.linkRetrain l c) s = .next s) ∧
    ((s.link l).state = .failed → (s.link l).retired = false → 60000000000 ≤ s.aon.clock - (s.link l).failedSince →
      ((s.link l).failedFrom.all (fun t => decide (s.aon.clock - t < 86400000000000)) = true → exec (.linkRetryTimer l) s =
        .next (s.setLink l fun x => { x with state := .training, stage := 0, attempts := 1 })) ∧
      ((s.link l).failedFrom.any (fun t => decide (86400000000000 ≤ s.aon.clock - t)) = true → s.supervisorRuns = true →
        ∃ t, exec (.linkRetryTimer l) s = .next t ∧ t.link l = { s.link l with state := .failed, retired := true } ∧
          UnitRef.link l ∈ t.rel.retired ∧ (∀ k, k ≠ l → t.link k = s.link k) ∧
          t = { s with fab := { s.fab with links := t.fab.links }, rel := { s.rel with retired := t.rel.retired }, aon := t.aon })) ∧
    (∀ r, (s.link l).stage = 2 → exec (.identityRecordReceive l r) s = .next (s.setLink l fun x => { x with
      neighbour := some r, effMinor := min 3 r.minor })) ∧
    (∀ r, (s.link l).stage = 3 → (s.link l).retired = false →
      (s.linkVerdict l r = (s.link l).state → exec (.identityRecordReceive l r) s = .next (s.setLink l fun x => { x with
        neighbour := some r, effMinor := min 3 r.minor })) ∧
      (∃ t, exec (.identityRecordReceive l r) s = .next t ∧ (t.link l).state = s.linkVerdict l r ∧ (t.link l).neighbour = some r ∧
        (t.link l).effMinor = min 3 r.minor ∧ t = { s with fab := t.fab, aon := t.aon, dq := t.dq, cx := t.cx, out := t.out }))

/-- R472, R473, R475–R477, R487. On a link that runs, a flit whose CRC fails is discarded, and a nak asks for it unless one has; so is a flit out of its sequence. A flit in sequence that fits is acknowledged and, in DRAIN and RETAIN, stays in the receive buffer; elsewhere one that begins a packet for this member, and does not end it, joins what the link
has received of it and its credit goes back. A link-control flit brings its acknowledgement and its credits. A nak acknowledges the flits before it and has the rest of the replay buffer sent again. An audit sets the credits to the allocation less the occupancy at the other end, less one for each flit that is sent again. A stored message
goes to the link of its route, with its hop value raised, or, after 1 ms without a route, is discarded and counted. Where it rests on the model's own reading: log entries 20, 33, 63 and 95. -/
def Obligations.FlitsAndStoredMessages : Prop :=
  ∀ (s : State) (l : Nat), l < 18 →
    (∀ flit, flit.length = 256 → (s.link l).trained = true ∨ 2 ≤ (s.link l).stage → s.fabricRuns = true →
      (crc64 (flit.take 248) ≠ fieldAt flit 248 8 →
        ((s.link l).discarding = false → exec (.flitReceive l flit) s =
          .next ((s.setLink l fun x => { x with discarding := true }).emit
            (.flit l (flitBytes (flitHeader 3 0 0 (s.link l).rxSeq 1 0 0 0 0 0) [])))) ∧
        ((s.link l).discarding = true → exec (.flitReceive l flit) s = .next s)) ∧
      (crc64 (flit.take 248) = fieldAt flit 248 8 → (∀ e, e ∈ s.fab.links → e.2.rxBuf = []) →
        (bits (fieldAt flit 0 8) 62 2 = 3 → (∀ e, e ∈ s.fab.links → e.2.txq = []) → s.fab.direct = [] →
          ∃ t, exec (.flitReceive l flit) s = .next t ∧
            t.link l = ((s.link l).acknowledge (bits (fieldAt flit 0 8) 35 12)).credited (bits (fieldAt flit 0 8) 31 3)
              (bits (fieldAt flit 0 8) 23 8) ∧ (∀ k, k ≠ l → t.link k = s.link k) ∧ t = { s with fab := t.fab }) ∧
        (bits (fieldAt flit 0 8) 62 2 = 1 ∨ bits (fieldAt flit 0 8) 62 2 = 2 →
          (s.link l).carries (bits (fieldAt flit 0 8) 59 3) = true → bits (fieldAt flit 0 8) 47 12 ≠ (s.link l).rxSeq →
          ∃ t, exec (.flitReceive l flit) s = .next t ∧ (t.link l).discarding = true ∧ (t.link l).rxSeq = (s.link l).rxSeq ∧
            (t.link l).rxBuf = [] ∧ (t.link l).rxPart = (s.link l).rxPart ∧ t = { s with fab := t.fab, out := t.out }) ∧
        (bits (fieldAt flit 0 8) 62 2 = 1 → bits (fieldAt flit 0 8) 59 3 < 4 → (s.link l).carries (bits (fieldAt flit 0 8) 59 3) = true →
          bit (fieldAt flit 0 8) 14 = false → bits (fieldAt flit 0 8) 47 12 = (s.link l).rxSeq → s.packetHere (txFlitOf flit).payload = true →
          ∃ t, exec (.flitReceive l flit) s = .next t ∧ (t.link l).rxSeq = ((s.link l).rxSeq + 1) % 4096 ∧
            (t.link l).discarding = false ∧
            Output.flit l (flitBytes (flitHeader 3 0 0 (((s.link l).rxSeq + 1) % 4096) 0 0 0 0 0 0) []) ∈ t.out ∧
            (s.pp.state ≠ .service → (t.link l).rxBuf = [txFlitOf flit] ∧ (t.link l).rxPart = (s.link l).rxPart) ∧
            (s.pp.state = .service → (t.link l).rxBuf = [] ∧
              tabGet? (t.link l).rxPart (txFlitOf flit).vc = some (txFlitOf flit).payload ∧
              Output.flit l (flitBytes (flitHeader 3 0 0 (((s.link l).rxSeq + 1) % 4096) 0 (txFlitOf flit).vc 1 0 0 0) []) ∈ t.out) ∧
            t = { s with fab := t.fab, out := t.out }))) ∧
    (∀ ack, (s.link l).trained = true ∨ 2 ≤ (s.link l).stage →
      (((s.link l).acknowledge (ack % 4096)).replay = [] → exec (.nakReceive l ack) s =
        .next (s.setLink l fun x => x.acknowledge (ack % 4096))) ∧
      (∃ t, exec (.nakReceive l ack) s = .next t ∧ (t.link l).replay = ((s.link l).acknowledge (ack % 4096)).replay ∧
        (∀ b, b ∈ ((s.link l).acknowledge (ack % 4096)).replay → Output.flit l b ∈ t.out) ∧
        t.mem = s.mem ∧ t.ctx = s.ctx ∧ t.fleet = s.fleet ∧ t.pp = s.pp ∧
        (s.supervisorRuns = false → (∀ k, k ≠ l → t.link k = s.link k) ∧ t = { s with
          fab := { s.fab with links := t.fab.links }, out := t.out }))) ∧
    (∀ occ, (s.link l).trained = true → ∃ t, exec (.creditAuditReceive l occ) s = .next t ∧
      (∀ b, b ∈ (s.link l).replay → Output.flit l b ∈ t.out) ∧ t = { s with fab := t.fab, out := t.out } ∧
      ((∀ e, e ∈ s.fab.links → e.2.txq = []) → s.fab.direct = [] → (∀ k, k ≠ l → t.link k = s.link k) ∧
        t.link l = Link.recharge { s.link l with credits := (List.range 8).map fun v => (v, creditAlloc v - occ.getD v 0) }
          (((s.link l).replay.map txFlitOf).map (·.vc)) ∧
        ((s.link l).replay = [] → ∀ v, v < 8 → (t.link l).credit v = creditAlloc v - occ.getD v 0))) ∧
    (∀ hop k m n, hop < 4 → s.fabricRuns = true → (s.partition hop)[k]? = some m → s.routeWithin m.dest (3 - hop) = some (l, n) →
      (s.link l).credit m.vc ≠ 0 → (s.link l).txq = [] → (s.link l).carries m.vc = true → (s.link l).replay.length < 512 →
      m.vc < 4 → 16 ≤ m.bytes.length → (∀ e, e ∈ s.fab.links → e.2.rxBuf = []) → ∃ t, exec (.forwardStoredMessage hop k) s = .next t ∧
        t.partition hop = (s.partition hop).eraseIdx k ∧ (∀ h, h ≠ hop → t.partition h = s.partition h) ∧
        (∀ f, (flitsOf m.vc 0 (putAt m.bytes 2 (leBytes 1 (hop + 1)))).head? = some f →
          Output.flit l (flitBytes (flitHeader 1 m.vc (s.link l).txSeq (s.link l).rxSeq 0 0 0 f.payload.length (b2n f.eop) 0) f.payload)
            ∈ t.out) ∧ t = { s with fab := t.fab, out := t.out }) ∧
    (∀ hop k m c, (s.partition hop)[k]? = some m → m.noRouteSince = some c → 1000000 ≤ s.aon.clock - c →
      s.routeWithin m.dest (3 - hop) = none → (∀ e, e ∈ s.fab.links → e.2.rxBuf = []) →
      ∃ t, exec (.noRouteDiscard hop k) s = .next t ∧ t.partition hop = (s.partition hop).eraseIdx k ∧
        (∀ h, h ≠ hop → t.partition h = s.partition h) ∧ t.fab.noRoute = s.fab.noRoute + 1 ∧
        t.aon = (s.cometF0 7 0 m.dest (s.fab.noRoute + 1)).aon ∧ t = { s with fab := t.fab, aon := t.aon, out := t.out })

/-- R205, R489, R497–R500. A member that is not the head sends its heartbeat to the head. At the head the heartbeat of a member that the plan names, and to which there is a route, is noted; it brings the member into RLY.MEMBERS with the pod state sent to it, or, where the head had lost the member, asks it for its mirror first. A member that has been silent for 1 ms, or
to which there is no route, leaves RLY.MEMBERS: its pending relay entries are discarded and counted, and commands forwarded to it end with ST_UNREACHED. A member asks its parent for the time, a response carries the stamps and the sender's own offset, and the offset from pod time is that of the four stamps; it is locked within 50 ns, slews by it, and is
no longer locked after 1 ms without a response. Where it rests on the model's own reading: log entries 33 and 47. -/
def Obligations.HeartbeatsAndPodTime : Prop :=
  ∀ s : State,
    (s.fab.plan.isSome = true → s.isHead = false → s.fabricRuns = true →
      exec .heartbeatSend s = .next (s.send s.headDevice 0 .heartbeat)) ∧
    (∀ m p, s.fab.plan = some p → s.isHead = true → bit p.mask m = true → m ≠ s.fab.device →
      ((s.route m).isSome = true → bit s.fab.members m = false → bit s.fab.unrefreshed m = false →
        ∃ t, exec (.heartbeatReceive m p.podId) s = .next t ∧ bit t.fab.members m = true ∧
          (∀ k, k ≠ m → bit t.fab.members k = bit s.fab.members k) ∧ tabGet? t.fab.beats m = some s.aon.clock ∧
          Output.packet m 3 (.podState s.fab.podState) ∈ t.out ∧ t = { s with fab := t.fab, out := t.out }) ∧
      ((s.route m).isSome = true → bit s.fab.members m = false → bit s.fab.unrefreshed m = true →
        exec (.heartbeatReceive m p.podId) s =
          .next (({ s with fab := { s.fab with beats := tabSet s.fab.beats m s.aon.clock } }).send m 0 .mirrorAsk)) ∧
      (s.route m = none ∨ bit s.fab.members m = true → exec (.heartbeatReceive m p.podId) s =
        .next { s with fab := { s.fab with beats := tabSet s.fab.beats m s.aon.clock } })) ∧
    (∀ m, s.isHead = true → m ≠ s.fab.device → bit s.fab.members m = true →
      s.route m = none ∨ 1000000 ≤ s.aon.clock - tabGet 0 s.fab.beats m →
      ∃ t, exec (.memberHeartbeatTimeout m) s = .next t ∧ bit t.fab.members m = false ∧
        (∀ k, k ≠ m → bit t.fab.members k = bit s.fab.members k) ∧
        t.dq.relay = s.dq.relay.filter (fun r => r.member != m) ∧
        t.dq.discarded = (s.dq.discarded + (s.dq.relay.filter fun r => r.member == m).length) % 2 ^ 32 ∧
        t.dq.groups = s.dq.groups ∧ t.dq.queues = s.dq.queues ∧ t.dq.steps = s.dq.steps ∧ bit t.fab.unrefreshed m = true ∧
        (∀ e, e ∈ s.fab.forwardedCmds → e.member = m → e.hdr.sender ≠ .gone →
          Answer.mk e.hdr.sender (if e.notice = true then 3 else 2) e.opcode e.hdr ST_UNREACHED [] ∈ t.cx.answers) ∧
        t = { s with fab := t.fab, dq := t.dq, aon := t.aon, cx := { s.cx with answers := t.cx.answers } }) ∧
    (∀ t1 p, s.timeParent = some p → s.fabricRuns = true → exec (.timeRequestSend t1) s = .next (s.send p 1 (.timeRequest t1))) ∧
    (∀ m t1 t2 t3, s.fab.plan.isSome = true → s.fabricRuns = true → m < 64 →
      exec (.timeRequestReceive m t1 t2 t3) s = .next (s.send m 1 (.timeResponse t1 t2 t3 s.fab.offset))) ∧
    (∀ (t1 t2 t3 t4 : Nat) (o : Int), s.timeParent.isSome = true → ∃ t, exec (.timeResponseReceive t1 t2 t3 t4 o) s = .next t ∧
      t.fab.offset = (((t2 : Int) - t1) - ((t4 : Int) - t3)) / 2 + o ∧ (t.fab.locked = true ↔ t.fab.offset.natAbs ≤ 50) ∧
      t.fab.lastTime = s.aon.clock ∧ t.aon.slewLeft = slewFor t.fab.offset ∧ (t.fab.slewing = true ↔ slewFor t.fab.offset ≠ 0) ∧
      t = { s with
        fab := { s.fab with offset := t.fab.offset, locked := t.fab.locked, lastTime := t.fab.lastTime, slewing := t.fab.slewing }
        aon := { s.aon with slewLeft := t.aon.slewLeft } }) ∧
    (s.fab.plan.isSome = true → s.isHead = false → 1000000 ≤ s.aon.clock - s.fab.lastTime →
      exec .timeResponseTimeout s = .next { s with
        fab := { s.fab with locked := false, slewing := false }
        aon := { s.aon with slewLeft := 0 } })

/-! ## Power, droop and thermal control -/

/-- R510–R514, R517–R519, R521, R522, R529. An accepted cap is in force at once, with record 0x020E, and a change of matched mode too; each in matched mode puts the quota at the floor of the cap unless a governor clamp or a coolant reduction holds it. At the end of each interval the limiter cuts its quota above the limit, or its pace where no quota is
left, raises its pace and then its quota below 98 % of it, and leaves both between; each die in service has its current ceiling from the same loop. A core's allowance for a window is the smallest of its formats, halved at most by a droop clamp and zero in an unwarned DRAIN. A correction stays within 15 % of the model and is none while the sense is excluded. The trim
grows from the second interval above 102 % of the live limit and falls below 98 %. The active Power Controller's heartbeat, no other, is noted and releases a clamp with record 0x0202; 100 µs without one clamp the module with record 0x0201. Where it rests on the model's own reading: log entry 60. -/
def Obligations.LimiterAndGovernor : Prop :=
  ∀ (s : State) (h : CmdHdr),
    (∀ c, s.admits h (.capSet c) → 900 ≤ c → c ≤ 3600 → c % 25 = 0 → ∃ t, exec (.capSet h c) s = .next t ∧ t.pwr.cap = c ∧
      s.replied t h (.capSet c) ST_OK ∧
      (s.pwr.matched = false → t.pwr = { s.pwr with cap := c } ∧ t.aon = (s.comet 0x020E 1 s.moduleInst none [s.pwr.cap, c]).aon) ∧
      (s.pwr.matched = true → s.pwr.govClamp = false → s.pwr.coolant = 0 → t.pwr.q = qFloor c) ∧
      (s.pwr.matched = true → s.pwr.govClamp = true ∨ 0 < s.pwr.coolant → t.pwr.q = min s.pwr.q (qFloor c)) ∧
      t = { s with pwr := { s.pwr with cap := c, q := t.pwr.q, floorRecAt := t.pwr.floorRecAt }, aon := t.aon, cx := t.cx }) ∧
    (∀ m, s.admits h (.matchedSet m) →
      (s.pwr.matched = (m == 1) → exec (.matchedSet h m) s = .next (s.finishCmd h (.matchedSet m) [])) ∧
      (s.pwr.matched ≠ (m == 1) → ∃ t, exec (.matchedSet h m) s = .next t ∧ t.pwr.matched = (m == 1) ∧
        s.replied t h (.matchedSet m) ST_OK ∧ (m ≠ 1 → t.pwr = { s.pwr with matched := false } ∧ t.aon = s.aon) ∧
        (m = 1 → s.pwr.govClamp = false → s.pwr.coolant = 0 → t.pwr.q = qFloor s.pwr.cap) ∧
        (m = 1 → s.pwr.govClamp = true ∨ 0 < s.pwr.coolant → t.pwr.q = min s.pwr.q (qFloor s.pwr.cap)) ∧
        t = { s with
          pwr := { s.pwr with matched := t.pwr.matched, q := t.pwr.q, floorRecAt := t.pwr.floorRecAt }, aon := t.aon, cx := t.cx })) ∧
    (∀ act, s.limiting = true → ∃ t, exec (.limiterInterval act) s = .next t ∧
      (s.limit * 9406 < s.estimate act → 0 < s.pwr.q →
        t.pwr.q = loopCut s.pwr.q (s.estimate act) (s.limit * 9406) (max (s.estimate act - Config.fixedPower * 9406) (8 * 9406)) ∧
        t.pwr.pace = s.pwr.pace) ∧
      (s.limit * 9406 < s.estimate act → s.pwr.q = 0 → t.pwr.q = 0 ∧ t.pwr.pace = max 1 (s.pwr.pace - 1)) ∧
      (100 * s.estimate act < 98 * (s.limit * 9406) → s.pwr.pace < 8 → t.pwr.q = s.pwr.q ∧ t.pwr.pace = s.pwr.pace + 1) ∧
      (100 * s.estimate act < 98 * (s.limit * 9406) → 8 ≤ s.pwr.pace → t.pwr.pace = s.pwr.pace ∧
        t.pwr.q = loopRise s.pwr.q (s.estimate act) (s.limit * 9406) (max (s.estimate act - Config.fixedPower * 9406) (8 * 9406))
          (if s.pwr.matched = true then qFloor s.pwr.cap else 1536)) ∧
      (s.estimate act ≤ s.limit * 9406 → 98 * (s.limit * 9406) ≤ 100 * s.estimate act →
        t.pwr.q = s.pwr.q ∧ t.pwr.pace = s.pwr.pace) ∧
      (∀ d, d < 8 → (s.die d).retired = false → t.diePower d = { s.diePower d with currentCeil := s.currentLoop d act }) ∧
      (∀ d, 8 ≤ d ∨ (s.die d).retired = true → t.diePower d = s.diePower d) ∧
      t = { s with
        pwr := { s.pwr with q := t.pwr.q, pace := t.pwr.pace, dies := t.pwr.dies, floorRecAt := t.pwr.floorRecAt }, aon := t.aon }) ∧
    (∀ n f fs, n < 512 → exec (.allowanceWindowStart n (f :: fs)) s = .next (s.setCore n fun c => { c with
      allowance := (if s.pp.state = .drain ∧ s.pp.warned = false then 0
        else min (((f :: fs).map fun f => allowanceOf s.pwr.matched f (min s.pwr.q (s.diePower (n / 64)).ceiling)).foldl min 64)
          (if (s.diePower (n / 64)).droop = true then 32 else 64)), spent := 0 })) ∧
    (∀ d sw mw, d < 8 → exec (.correctionUpdate d sw mw) s = .next (s.setDiePower d fun x => { x with
      correction := if x.senseOut = true then 0 else max (-(15 * mw : Int)) (min (15 * mw) (100 * ((sw : Int) - mw))) })) ∧
    (∀ w, s.limiting = true → ∃ t, exec (.governorTrim w) s = .next t ∧
      (102 * s.liveLimit < 800 * w → t.pwr.overCount = s.pwr.overCount + 1 ∧
        (1 ≤ s.pwr.overCount → t.pwr.trim = min 3200 (s.pwr.trim + (8 * w - s.liveLimit))) ∧
        (s.pwr.overCount = 0 → t.pwr.trim = s.pwr.trim)) ∧
      (800 * w < 98 * s.liveLimit → t.pwr.trim = s.pwr.trim - 80 ∧ t.pwr.overCount = 0) ∧
      (98 * s.liveLimit ≤ 800 * w → 800 * w ≤ 102 * s.liveLimit → t.pwr.trim = s.pwr.trim ∧ t.pwr.overCount = 0) ∧
      t = { s with pwr := { s.pwr with trim := t.pwr.trim, overCount := t.pwr.overCount } }) ∧
    (s.masterRuns 3 = true →
      (s.pwr.govClamp = false →
        exec (.governorHeartbeat 3) s = .next { s with pwr := { s.pwr with govBeat := s.aon.clock, govClamp := false } }) ∧
      (s.pwr.govClamp = true → exec (.governorHeartbeat 3) s =
        .next ({ s with pwr := { s.pwr with govBeat := s.aon.clock, govClamp := false } }.comet 0x0202 1 s.moduleInst none
          (words2 (s.aon.clock - s.pwr.clampAt))))) ∧
    (∀ m, m ≠ 3 ∨ s.masterRuns 3 = false → exec (.governorHeartbeat m) s = .next s) ∧
    (s.limiting = true → s.pwr.govClamp = false → 100000 ≤ s.aon.clock - s.pwr.govBeat → exec .governorClamp s =
      .next ({ s with pwr := { s.pwr with govClamp := true, clampAt := s.aon.clock } }.comet 0x0201 3 s.moduleInst none
        (words2 (s.aon.clock - s.pwr.govBeat) ++ [s.pwr.cap])))

/-- R113, R508, R509, R522–R525, R528–R531. A low reading clamps its die and is counted, unless the die is clamped already, until 1 µs after the last low reading; 10 ms of clamps in one second leave a record once in it. Filling cores follow the current's target and never outnumber those that are stalled, and in a state other than SERVICE there is none. A die's point
moves down by one under a thermal ceiling of 10 ms, up by one below 90 °C after 100 ms, or in matched mode to 15. The guard refuses, with record 0x0203, a limit, a point above 15 and a setpoint above the fused voltage; a command it lets through is done, unless a governor clamp is in force. A phase that fails is excluded with its
record and shows the new current limit where that falls; below eight phases the ceiling of the die is 0 and the Supervisor retires the die. One of the other rails loses a phase without derating, and with a second what it feeds leaves service. An excluded current sense has no correction. Where it rests on the model's own reading: log entry 61. -/
def Obligations.DroopAndRegulators : Prop :=
  ∀ (s : State) (d : Nat), d < 8 →
    (s.limiting = true → (s.die d).retired = false →
      ((s.diePower d).droop = false → ∃ t, exec (.droopDetect d) s = .next t ∧
        (t.diePower d).droop = true ∧ (t.diePower d).lastLow = s.aon.clock ∧ (t.diePower d).droopSince = s.aon.clock ∧
        (t.diePower d).droopsNow = (s.diePower d).droopsNow + 1 ∧ (∀ e, e ≠ d → t.diePower e = s.diePower e) ∧
        t = { s with pwr := { s.pwr with dies := t.pwr.dies } }) ∧
      ((s.diePower d).droop = true →
        exec (.droopDetect d) s = .next (s.setDiePower d fun x => { x with lastLow := s.aon.clock }))) ∧
    ((s.diePower d).droop = true → 1000 ≤ s.aon.clock - (s.diePower d).lastLow → ∃ t, exec (.droopRelease d) s = .next t ∧
      (t.diePower d).droop = false ∧ (∀ e, e ≠ d → t.diePower e = s.diePower e) ∧
      ((t.diePower d).droopTime ≤ 10000000 → t.aon = s.aon) ∧
      ((s.diePower d).droopSecond = s.aon.clock / 1000000000 →
        (t.diePower d).droopTime = (s.diePower d).droopTime + (s.aon.clock - max (s.diePower d).droopSince ((s.diePower d).droopSecond * 1000000000)) ∧
        ((s.diePower d).droopRecorded = true → t.aon = s.aon) ∧
        ((s.diePower d).droopRecorded = false → 10000000 < (t.diePower d).droopTime →
          t.aon = (s.comet 0x0208 2 d none ([d, 2] ++ words2 (t.diePower d).droopTime)).aon ∧ (t.diePower d).droopRecorded = true)) ∧
      t = { s with pwr := { s.pwr with dies := t.pwr.dies }, aon := t.aon }) ∧
    (∀ ma st, s.limiting = true → ∃ t, exec (.tulleInterval d ma st) s = .next t ∧ (t.diePower d).filling ≤ st ∧
      (t.diePower d).currents = (ma :: (s.diePower d).currents).take 80 ∧
      (s.pp.state = .service → 0 < allowanceOf s.pwr.matched 0 (min s.pwr.q (s.diePower d).ceiling) → ∀ target,
        target = max (2 * ((ma :: (s.diePower d).currents).take 80).sum / (5 * ((ma :: (s.diePower d).currents).take 80).length))
          ((s.diePower d).currents.headD ma - 2560) → (t.diePower d).filling = min st
            (if ma < target then (s.diePower d).filling + ceilDiv (target - ma) (Config.fillerMa d + 1)
              else (s.diePower d).filling - (ma - target) / (Config.fillerMa d + 1))) ∧
      (s.pp.state ≠ .service → (t.diePower d).filling = 0) ∧ (∀ e, e ≠ d → t.diePower e = s.diePower e) ∧
      t = { s with pwr := { s.pwr with dies := t.pwr.dies } }) ∧
    ((s.die d).retired = false → (s.die d).power = .active → (s.die d).ordered = none → s.pwr.govClamp = false →
      s.supervisorRuns = true → s.limiting = true → ∃ t, exec (.voltagePointAdjust d) s = .next t ∧
      (s.pwr.matched = true → (s.die d).point ≠ 15 → (t.die d).ordered = some 15 ∧ (t.diePower d).pointAt = s.aon.clock) ∧
      (s.pwr.matched = true → (s.die d).point = 15 → t = s) ∧
      (s.pwr.matched = false → (s.diePower d).thermalCeil < 1536 → 10000000 ≤ s.aon.clock - (s.diePower d).thermalSince →
        10000000 ≤ s.aon.clock - (s.diePower d).pointAt → 8 < (s.die d).point → (t.die d).ordered = some ((s.die d).point - 1)) ∧
      (s.pwr.matched = false → 1536 ≤ (s.diePower d).thermalCeil → (s.diePower d).hot ≤ 1440 →
        100000000 ≤ s.aon.clock - (s.diePower d).pointAt → (s.die d).point < 15 → (t.die d).ordered = some ((s.die d).point + 1)) ∧
      t.die d = { s.die d with ordered := (t.die d).ordered, orderedAt := (t.die d).orderedAt } ∧
      t.diePower d = { s.diePower d with pointAt := (t.diePower d).pointAt } ∧
      (∀ e, e ≠ d → t.die e = s.die e ∧ t.diePower e = s.diePower e) ∧
      t = { s with fleet := { s.fleet with dies := t.fleet.dies }, pwr := { s.pwr with dies := t.pwr.dies } }) ∧
    (∀ m, s.masterRuns m = true → s.cx.adopting = false →
      (∀ mv, mv ≤ Config.fusedMv d (s.die d).point → s.pwr.govClamp = false →
        exec (.regulatorCommand m d (.setRail mv)) s = .next (s.setDiePower d fun x => { x with railMv := some mv })) ∧
      (∀ mv, Config.fusedMv d (s.die d).point < mv →
        exec (.regulatorCommand m d (.setRail mv)) s = .next (s.comet 0x0203 3 d none [m, d, mv])) ∧
      (∀ p, p ≤ 15 → s.pwr.govClamp = false → exec (.regulatorCommand m d (.namePoint p)) s =
        .next (s.setDie d fun x => { x with ordered := some p, orderedAt := s.aon.clock })) ∧
      (∀ p, 15 < p → exec (.regulatorCommand m d (.namePoint p)) s = .next (s.comet 0x0203 3 d none [m, d, p])) ∧
      (∀ v, exec (.regulatorCommand m d (.setLimit v)) s = .next (s.comet 0x0203 3 d none [m, d, v])) ∧
      (∀ c, s.guardRefuses d c = false → s.pwr.govClamp = true → exec (.regulatorCommand m d c) s = .next s)) ∧
    (∀ ph, ph < 16 → (s.diePower d).phasesOut.contains ph = false →
      (9 ≤ (s.diePower d).phases → ∀ s1, s1 = (s.setDiePower d fun x => { x with phasesOut := ph :: x.phasesOut }).comet 0x0204 2 d none
          [d, ph, (s.diePower d).phases - 1] → exec (.phaseFailure d ph) s =
        .next (if railLimit ((s.diePower d).phases - 1) = railLimit (s.diePower d).phases then s1
          else s1.comet 0x0206 2 d none [d, railLimit ((s.diePower d).phases - 1)])) ∧
      ((s.diePower d).phases ≤ 8 → s.supervisorRuns = false → ∃ t, exec (.phaseFailure d ph) s = .next t ∧
        t.diePower d = { s.diePower d with phasesOut := ph :: (s.diePower d).phasesOut, currentCeil := 0 } ∧
        (∀ e, e ≠ d → t.diePower e = s.diePower e) ∧ t = { s with pwr := { s.pwr with dies := t.pwr.dies }, aon := t.aon }) ∧
      ((s.diePower d).phases ≤ 8 → s.supervisorRuns = true → (s.die d).retired = false →
        ∃ t, exec (.phaseFailure d ph) s = .next t ∧ UnitRef.die d ∈ t.rel.retired)) ∧
    (∀ rail ph, 8 ≤ rail → rail < 26 →
      (tabGet 0 s.pwr.railPhases rail = 0 → exec (.phaseFailure rail ph) s =
        .next ({ s with
          drawn := s.drawn + 1
          pwr := { s.pwr with railPhases := tabSet s.pwr.railPhases rail 1 } }.comet 0x0204 2 (railInst rail) none
            [rail, ph, Config.freeValue s.drawn])) ∧
      (tabGet 0 s.pwr.railPhases rail = 1 → s.supervisorRuns = true → rail < 24 ∨ s.cx.active ≠ rail - 24 ∨ s.cx.standbyReady = true →
        ∃ t, exec (.phaseFailure rail ph) s = .next t ∧ ∀ u, u ∈ railUnits rail → u ∈ t.rel.retired)) ∧
    (∀ c, c = 1 ∨ c = 2 → (s.diePower d).senseOut = false → exec (.currentSenseExcluded d c) s =
      .next ((s.setDiePower d fun x => { x with senseOut := true, correction := 0 }).comet 0x0205 2 d none [d, c]))

/-- R131, R532–R535, R537. The hottest sensor and the stacks 5 °C above theirs give a die's effective temperature, which sets its ceiling and pace, with a record when a ceiling begins. The outlet's reading sets the reduction of the live limit, and a change of it, an outlet too warm for the power and an inlet above 40 °C, once a minute, each leave a
record. A trip sets the thermal hold, with its record, and in SERVICE begins a warned DRAIN; the hold goes, with its record, once every sensor has been low for 1 s. A refresh shows the measured powers, the energy and each die's clamps and temperature. -/
def Obligations.ThermalLimitsAndTelemetry : Prop :=
  ∀ s : State,
    (∀ d xs ys x e, d < 8 → hottest xs = some x → hottest (xs ++ ys.map (· + 80)) = some e →
      ∃ t, exec (.thermalSample d xs ys) s = .next t ∧
        t.diePower d = { s.diePower d with
          hot := x, hotMax := max (s.diePower d).hotMax x, thermalCeil := thermalCeiling e, thermalPace := if 1680 ≤ e then 4 else 8
          thermalSince := if (s.diePower d).thermalCeil = 1536 ∧ thermalCeiling e < 1536 then s.aon.clock else (s.diePower d).thermalSince } ∧
        (∀ k, k ≠ d → t.diePower k = s.diePower k) ∧
        (s.pwr.matched = false → t.aon = (if (s.diePower d).thermalCeil = 1536 ∧ thermalCeiling e < 1536 then
          (s.comet 0x0208 2 d none [d, 1, ofSigned 32 e]).aon else s.aon)) ∧
        t = { s with pwr := { s.pwr with dies := t.pwr.dies, floorRecAt := t.pwr.floorRecAt }, aon := t.aon }) ∧
    (∀ i o w, s.pp.aonPowered = true → ∃ t, exec (.coolantSample i o w) s = .next t ∧ t.pwr.inlet = i ∧ t.pwr.outlet = o ∧
      t.pwr.coolant = 75 * (o - 1120).toNat ∧
      (75 * (o - 1120).toNat = s.pwr.coolant → ¬ 20000 * (w : Int) < 132600 * (o - i) → i ≤ 640 → t.aon = s.aon) ∧
      (75 * (o - 1120).toNat ≠ s.pwr.coolant → ¬ 20000 * (w : Int) < 132600 * (o - i) → i ≤ 640 → t.aon =
        (s.comet 0x0209 2 s.moduleInst none [ofSigned 32 i, ofSigned 32 o, 75 * (o - 1120).toNat, 0]).aon) ∧
      (75 * (o - 1120).toNat = s.pwr.coolant → 20000 * (w : Int) < 132600 * (o - i) → i ≤ 640 → t.aon =
        (s.comet 0x0209 2 s.moduleInst none [ofSigned 32 i, ofSigned 32 o, 75 * (o - 1120).toNat, 1]).aon) ∧
      (75 * (o - 1120).toNat = s.pwr.coolant → ¬ 20000 * (w : Int) < 132600 * (o - i) → 640 < i →
        (s.pwr.inletRecAt = none → t.pwr.inletRecAt = some s.aon.clock ∧ t.aon =
          (s.comet 0x0209 2 s.moduleInst none [ofSigned 32 i, ofSigned 32 o, 75 * (o - 1120).toNat, 2]).aon) ∧
        (∀ c, s.pwr.inletRecAt = some c → s.aon.clock - c < 60000000000 → t.aon = s.aon)) ∧
      t = { s with pwr := { s.pwr with
        inlet := t.pwr.inlet, outlet := t.pwr.outlet, coolant := t.pwr.coolant, inletRecAt := t.pwr.inletRecAt }, aon := t.aon }) ∧
    (∀ pl i r, pl ≤ 11 → tripAt pl ≤ r → s.pp.thermalHold = false →
      (s.pp.state = .service → ∃ t, exec (.thermalTrip pl i r) s = .next t ∧
        t.pp.thermalHold = true ∧ t.pp.thermalHoldSince = s.aon.clock ∧ t.pp.state = .drain ∧ t.pp.warned = true ∧
        t.mem = s.mem ∧ t.ctx = s.ctx ∧ t.mbx = s.mbx ∧ t.host = s.host) ∧
      (s.pp.state = .drain ∨ s.pp.state = .retain ∨ s.pp.state = .startup → exec (.thermalTrip pl i r) s =
        .next ({ s with pp := { s.pp with thermalHold := true, thermalHoldSince := s.aon.clock } }.comet 0x020A 3
          (if pl < 10 then pl else if pl = 10 then i / 2 else s.moduleInst) none [pl * 256 + i, ofSigned 32 r]))) ∧
    (∀ ds hs o, s.pp.thermalHold = true → 1000000000 ≤ s.aon.clock - s.pp.thermalHoldSince → (∀ x, x ∈ ds → x ≤ 1360) → (∀ x, x ∈ hs → x ≤ 1360) → o ≤ 960 →
      exec (.thermalHoldRelease ds hs o) s = .next ({ s with pp := { s.pp with thermalHold := false } }.comet 0x020B 1 s.moduleInst none
        (words2 (s.aon.clock - s.pp.thermalHoldSince)))) ∧
    (∀ m, s.pp.aonPowered = true → ∃ t, exec (.telemetryRefresh m) s = .next t ∧
      (∀ d, d < 8 → t.diePower d = { s.diePower d with
        dieW := m.dieW.getD d 0 % 65536, droops := min 8191 (s.diePower d).droopsNow, droopsNow := 0
        tempMax := max (s.diePower d).hot (s.diePower d).hotMax / 16, hotMax := (s.diePower d).hot }) ∧
      (∀ d, 8 ≤ d → t.diePower d = s.diePower d) ∧
      t = { s with pwr := { s.pwr with
        meanW := m.meanW % 65536, peakW := m.peakW % 65536, imain := m.imain % 65536
        energyMj := (s.pwr.energyMj + m.energyMj) % 2 ^ 64, dies := t.pwr.dies } })

/-! ## Firmware -/

/-- R331–R335, R546, R558–R564. FW_STAGE is accepted, and the set read for it ends the command with the status of the check that it fails, or with ST_HOSTIO where the read fails. A set that passes is staged and stored in the flash device that the module did not start from, where that works, and its library is written to the bank not in force at
once, with the notice, unless a step is bound to that bank; else it is written, with the notices that wait, when none is. FW_ACTIVATE is accepted, and the hand-over exchanges the roles of the complexes, brings the set and its library into force, raises the security floor where the set says so, and sends the notice. In management only the endpoint
writes the flash slot not preferred, which becomes the preferred one, and answers SPDM. Where it rests on the model's own reading: log entries 67, 69 and 71. -/
def Obligations.FirmwareCommands : Prop :=
  ∀ (s : State) (h : CmdHdr),
    (∀ src, s.admits h (.fwStage src) → s.cx.standbyReady = true → src.addr % 64 = 0 → s.deferredOf h.sender < 16 →
      exec (.fwStage h src) s = .next (s.acceptCmd h (.fwStage src))) ∧
    (∀ id d src, s.item id = some d → d.cmd = .fwStage src → s.supervisorRuns = true → s.cx.stageItems.contains id = false →
      (∀ data, (∀ b, s.bufferData ((senderFn d.hdr.sender).getD 0) data ≠ .ok b) →
        exec (.fwStageComplete id data) s = .next (s.notice d ST_HOSTIO [])) ∧
      (∀ b, (s.fnPort ((senderFn d.hdr.sender).getD 0)).isSome = true → b.length = src.length →
        (s.stageStatus (setBytes b) ≠ ST_OK → exec (.fwStageComplete id (.ok b)) s = .next (s.notice d (s.stageStatus (setBytes b)) [])) ∧
        (s.stageStatus (setBytes b) = ST_OK → s.cx.standbyReady = true → ∃ t l, exec (.fwStageComplete id (.ok b)) s = .next t ∧
          (setOf s.cfg.minor (setBytes b)).library = some l ∧
          t.cx.staged = some (setOf s.cfg.minor (setBytes b)) ∧ t.fleet.bankInForce = s.fleet.bankInForce ∧ t.libInForce = s.libInForce ∧
          (s.bankBound = true → t.fleet.libStaged = some l ∧ t.cx.stageItems = s.cx.stageItems ++ [id] ∧ t.cx.answers = s.cx.answers) ∧
          (s.bankBound = false → t.fleet.libStaged = none ∧ (if s.fleet.bankInForce = 0 then t.fleet.bank1 else t.fleet.bank0) = some l ∧
            (d.hdr.sender ≠ .gone → Answer.mk d.hdr.sender 3 0x0803 d.hdr ST_OK [] ∈ t.cx.answers)) ∧
          (s.cfg.startedFrom = 0 → s.cfg.flashB.ok = true → t.cfg.flashB.slot = t.cx.staged ∧ t.cx.stagedInStandbyOnly = false) ∧
          (s.cfg.startedFrom = 1 → s.cfg.flashA.ok = true → t.cfg.flashA.slot = t.cx.staged ∧ t.cx.stagedInStandbyOnly = false) ∧
          ((s.cfg.flash (1 - s.cfg.startedFrom)).ok = false → t.cfg = s.cfg ∧ t.cx.stagedInStandbyOnly = true) ∧
          t = { s with
            cfg := { s.cfg with flashA := t.cfg.flashA, flashB := t.cfg.flashB }
            fleet := { s.fleet with bank0 := t.fleet.bank0, bank1 := t.fleet.bank1, libStaged := t.fleet.libStaged }
            cx := { s.cx with
              staged := t.cx.staged, stagedInStandbyOnly := t.cx.stagedInStandbyOnly, stageItems := t.cx.stageItems
              deferred := t.cx.deferred, answers := t.cx.answers } }))) ∧
    (∀ l, s.fleet.libStaged = some l → s.bankBound = false → s.supervisorRuns = true → ∃ t, exec .libraryBankWrite s = .next t ∧
        t.fleet.libStaged = none ∧ t.cx.stageItems = [] ∧
        t.fleet.bankInForce = (if s.cx.staged.isNone = true then 1 - s.fleet.bankInForce else s.fleet.bankInForce) ∧
        (s.fleet.bankInForce = 0 → t.fleet.bank1 = some l ∧ t.fleet.bank0 = s.fleet.bank0) ∧
        (s.fleet.bankInForce ≠ 0 → t.fleet.bank0 = some l ∧ t.fleet.bank1 = s.fleet.bank1) ∧
        (∀ d, d ∈ s.cx.deferred → d.id ∈ s.cx.stageItems → d.hdr.sender ≠ .gone →
          Answer.mk d.hdr.sender 3 (cmdOpcode d.cmd) d.hdr ST_OK [] ∈ t.cx.answers) ∧
        t = { s with
          fleet := { s.fleet with
            bank0 := t.fleet.bank0, bank1 := t.fleet.bank1, libStaged := none, bankInForce := t.fleet.bankInForce }
          cx := { s.cx with stageItems := [], deferred := t.cx.deferred, answers := t.cx.answers } }) ∧
    (s.admits h .fwActivate → s.cx.staged.isSome = true → s.deferredOf h.sender < 16 →
      exec (.fwActivate h) s = .next ({ s with cx := { s.cx with activating := true } }.acceptCmd h .fwActivate)) ∧
    (∀ x, s.cx.activating = true → s.cx.standbyReady = true → s.cx.staged = some x → s.fleet.libStaged = none → s.pp.state = .service →
      s.supervisorRuns = true → s.cx.active < 2 → ∃ t, exec .fwActivateHandover s = .next t ∧ t.cx.active = 1 - s.cx.active ∧
        t.complex (1 - s.cx.active) = .active ∧ t.complex s.cx.active = .restarting ∧ t.cx.activating = false ∧
        t.cx.standbyReady = false ∧ t.cx.takeovers = (s.cx.takeovers + 1) % 2 ^ 32 ∧ t.cx.running = some x ∧ t.cx.staged = none ∧
        t.fleet.bankInForce = 1 - s.fleet.bankInForce ∧ t.cfg.minor = x.minor ∧
        t.cfg.preferred = (if s.cx.stagedInStandbyOnly = true then s.cfg.preferred else 1 - s.cfg.startedFrom) ∧
        t.cfg.securityFloor = (if x.floorRaise = true then max s.cfg.securityFloor x.security else s.cfg.securityFloor) ∧
        (∀ d, d ∈ s.cx.deferred → d.cmd = .fwActivate → d.hdr.sender ≠ .gone →
          Answer.mk d.hdr.sender 3 0x0804 d.hdr ST_OK [] ∈ t.cx.answers) ∧
        t = { s with
          cx := t.cx, fleet := { s.fleet with bankInForce := t.fleet.bankInForce }, host := t.host, out := t.out
          cfg := { s.cfg with minor := t.cfg.minor, preferred := t.cfg.preferred, securityFloor := t.cfg.securityFloor } }) ∧
    (∀ x, s.pp.state = .mgmtOnly →
      (s.cfg.preferred = 0 → s.cfg.flashB.ok = true → exec (.pldmFirmwareUpdate x) s =
        .next { s with cfg := { s.cfg with flashB := { s.cfg.flashB with slot := some x }, preferred := 1 } }) ∧
      (s.cfg.preferred = 1 → s.cfg.flashA.ok = true → exec (.pldmFirmwareUpdate x) s =
        .next { s with cfg := { s.cfg with flashA := { s.cfg.flashA with slot := some x }, preferred := 0 } })) ∧
    (∀ c, s.pp.state = .mgmtOnly → exec (.spdmRequest c) s = .next (s.emit (.spdm
      (if c ∈ [0x84, 0xE1, 0xE3, 0x81, 0x82, 0x83, 0xE0] then c % 128 else 0x7F))))

/-! ## Control Complexes -/

/-- R106–R109, R111–R116, R551, R562. The active complex's heartbeats are noted. When it fails, a ready standby takes its role, and else it is held in reset, with a record either way; dispatch waits for the adoption. A held complex restarts, or leaves the module with management only. An adoption with nothing to replay and every book in balance sends the
replies that the journal has committed and not sent, and completes an activation; one that cannot reconcile its books resets the module. The other complex restarts as standby, or stays in reset, and a standby that fails is held in reset with its record. Requests for a line are served in the order of their cores; an owner is the only one that has a
copy, a shared copy leaves every copy as the directory's, and a modified line's notice gives the directory its data. Where it rests on the model's own reading: log entries 65, 68 and 96. -/
def Obligations.ComplexesTakeOver : Prop :=
  ∀ s : State, s.cx.active < 2 →
    (s.complex s.cx.active = .active →
      exec (.complexHeartbeatWrite 1) s = .next { s with cx := { s.cx with dispBeat := s.aon.clock } } ∧
      exec (.complexHeartbeatWrite 2) s = .next { s with cx := { s.cx with supBeat := s.aon.clock } }) ∧
    (∀ f, s.watched = true → f = true ∨ s.beatAbsent = true →
      (s.cx.standbyReady = true → ∃ t, exec (.complexFailure f) s = .next t ∧
        t.cx.active = 1 - s.cx.active ∧ t.complex (1 - s.cx.active) = .active ∧ t.complex s.cx.active = .heldInReset ∧
        t.cx.standbyReady = false ∧ t.cx.takeovers = (s.cx.takeovers + 1) % 2 ^ 32 ∧ t.cx.adopting = true ∧
        t.cx.journal = s.cx.journal ∧ t.cx.deferred = s.cx.deferred ∧ t.cx.waiting = s.cx.waiting ∧ t.cx.answers = s.cx.answers ∧
        t.aon = (s.cometF5 5 supervisorId s.cx.active (1 - s.cx.active) (if f = true then 2 else 1)).aon ∧
        (s.cx.staged = none → t.cfg = s.cfg ∧ t.fleet = s.fleet) ∧
        t = { s with
          aon := t.aon, cx := t.cx, fleet := { s.fleet with bankInForce := t.fleet.bankInForce }, cfg := t.cfg, host := t.host, out := t.out }) ∧
      (s.cx.standbyReady = false → ∃ t, exec (.complexFailure f) s = .next t ∧
        t.cx.active = s.cx.active ∧ t.complex s.cx.active = .heldInReset ∧ t.complex (1 - s.cx.active) = s.complex (1 - s.cx.active) ∧
        t.aon = (s.cometF5 5 supervisorId s.cx.active s.cx.active (if f = true then 2 else 1)).aon ∧
        t = { s with
          aon := t.aon
          cx := { s.cx with stateA := t.cx.stateA, stateB := t.cx.stateB, adopting := true, l2 := [] } })) ∧
    (s.complex s.cx.active = .heldInReset → s.ioPowered s.cx.active = true → s.pp.state ≠ .mgmtOnly →
      (∃ t, exec (.complexRestart true) s = .next t ∧ t.complex s.cx.active = .active ∧
        t.complex (1 - s.cx.active) = s.complex (1 - s.cx.active) ∧
        t = { s with cx := { s.cx with
          stateA := t.cx.stateA, stateB := t.cx.stateB, adopting := true, dispBeat := s.aon.clock, supBeat := s.aon.clock } }) ∧
      ∃ t, exec (.complexRestart false) s = .next t ∧ t.pp.state = .mgmtOnly ∧ t.pp.phase = 15 ∧ t.mbx = s.mbx ∧
        ((∀ e, e ∈ s.host.fns → e.2.held = [] ∧ e.2.beyond = [] ∧ e.2.unsent = []) →
          t.aon = (s.comet 0x0501 4 s.aon.lead none [s.cx.active]).aon)) ∧
    (s.cx.adopting = true → s.complex s.cx.active = .active →
      (s.cx.waiting = [] → ∃ t, exec (.adoption ⟨true, []⟩) s = .next t ∧ t.cx.adopting = false ∧
        (∀ j, j ∈ s.cx.journal → j.committed = true → j.replied = false → s.hasReply j = false → s.repliedElsewhere j = false →
          j.hdr.sender ≠ .gone → Answer.mk j.hdr.sender 2 j.opcode j.hdr j.status j.payload ∈ t.cx.answers) ∧
        (s.cx.activating = true → s.cx.staged = none → t.cx.activating = false ∧
          ∀ d, d ∈ s.cx.deferred → d.cmd = .fwActivate → d.hdr.sender ≠ .gone →
            Answer.mk d.hdr.sender 3 0x0804 d.hdr ST_OK [] ∈ t.cx.answers) ∧
        (s.cx.activating = false → t.cx.deferred = s.cx.deferred) ∧
        t = { s with
          rel := { s.rel with books := t.rel.books }
          cx := { s.cx with adopting := false, activating := t.cx.activating, deferred := t.cx.deferred, answers := t.cx.answers } }) ∧
      ∀ found, ∃ t, exec (.adoption ⟨false, found⟩) s = .next t ∧ t.pp.state = .startup ∧ t.pp.phase = 3 ∧ t.cx.adopting = false ∧
        t.dq = State.reset.dq ∧ t.fleet.cores = []) ∧
    (s.supervisorRuns = true → s.complex (1 - s.cx.active) = .heldInReset ∨ s.complex (1 - s.cx.active) = .restarting →
      s.ioRetired (1 - s.cx.active) = false →
      (∃ t, exec (.standbyRestart true) s = .next t ∧ t.complex (1 - s.cx.active) = .standby ∧
        t.complex s.cx.active = s.complex s.cx.active ∧
        t = { s with cx := { s.cx with stateA := t.cx.stateA, stateB := t.cx.stateB, standbyReady := true } }) ∧
      exec (.standbyRestart false) s = .next (s.setComplex (1 - s.cx.active) .heldInReset)) ∧
    (s.complex (1 - s.cx.active) = .standby → ∃ t, exec .standbyComplexFailure s = .next t ∧
      t.complex (1 - s.cx.active) = .heldInReset ∧ t.complex s.cx.active = s.complex s.cx.active ∧
      t.aon = (s.cometF5 5 supervisorId 1 0 3).aon ∧
      t = { s with aon := t.aon, cx := { s.cx with stateA := t.cx.stateA, stateB := t.cx.stateB, standbyReady := false } }) ∧
    (∀ l x rs, s.complex s.cx.active = .active → ∃ t, exec (.ownershipRequest x l rs) s = .next t ∧
      (∀ k, k ≠ l → tabGet freshLine t.cx.l2 k = tabGet freshLine s.cx.l2 k) ∧ t = { s with cx := { s.cx with l2 := t.cx.l2 } } ∧
      (rs = [] → x.core < 6 → x.kind ≠ 2 → tabGet freshLine t.cx.l2 l = (tabGet freshLine s.cx.l2 l).own x.core x.store) ∧
      (rs = [] → x.core < 6 → x.kind = 2 → tabGet freshLine t.cx.l2 l = (tabGet freshLine s.cx.l2 l).share x.core) ∧
      (∀ r q, x :: rs = [r, q] ∨ x :: rs = [q, r] → r.core < q.core → q.core < 6 → r.kind ≠ 2 → q.kind ≠ 2 →
        tabGet freshLine t.cx.l2 l = ((tabGet freshLine s.cx.l2 l).own r.core r.store).own q.core q.store)) ∧
    (∀ (x : L2Line) c st, (x.own c st).owner = some c ∧ (x.own c st).sharers = [] ∧
      (x.own c st).copies = [(c, st.getD x.current)] ∧
      (x.owner ≠ some c → (x.share c).owner = none ∧ (x.share c).data = x.current ∧ c ∈ (x.share c).sharers)) ∧
    (∀ l n, s.complex s.cx.active = .active → ∃ t, exec (.lineWriteback l n []) s = .next t ∧
      (∀ k, k ≠ l → tabGet freshLine t.cx.l2 k = tabGet freshLine s.cx.l2 k) ∧ t = { s with cx := { s.cx with l2 := t.cx.l2 } } ∧
      ((tabGet freshLine s.cx.l2 l).owner = some n.core → (tabGet freshLine s.cx.l2 l).leaving = [] →
        (n.arrives = true → (tabGet freshLine t.cx.l2 l).owner = none ∧ (tabGet freshLine t.cx.l2 l).modified = false ∧
          (tabGet freshLine t.cx.l2 l).data = (if n.modified = true then n.data else (tabGet freshLine s.cx.l2 l).data)) ∧
        (n.arrives = false → (tabGet freshLine t.cx.l2 l).leaving = [Eviction.mk n.core n.modified n.data] ∧
          (tabGet freshLine t.cx.l2 l).owner = some n.core)) ∧
      ((tabGet freshLine s.cx.l2 l).owner ≠ some n.core → n.core ∉ (tabGet freshLine s.cx.l2 l).sharers →
        (tabGet freshLine s.cx.l2 l).leaving = [] → tabGet freshLine t.cx.l2 l = tabGet freshLine s.cx.l2 l))

/-! ## The Comet log, errors and retirement -/

/-- R132, R169, R206, R269, R549–R555, R565–R567. The oldest record of the intake is numbered and enters the ring, here and at a following share that is fit, and room in the intake admits the record of those lost; one severe enough is told to the BMC in STANDBY and raises the PF's vector 3 elsewhere. LOG_READ gives up to three records, and raises the BMC's mark alone.
DUMP_REGION_SET names a host region, or none. A fatal error of causes 1 to 4 notes where its dump was written and resets the module; below the service floor it leaves management only. A book found out of balance becomes suspect, and every other book is not; at the next audit it is rebuilt, with its record, the relay credits of a member
from the forward sequence number acknowledged, and a third rebuild within 1 s of a book that has no unit resets the module. Where it rests on the model's own reading: log entries 72 and 78. -/
def Obligations.LogDumpAndAudit : Prop :=
  ∀ (s : State) (h : CmdHdr),
    (∀ r rest, s.pp.aonPowered = true → s.aon.intake = r :: rest → ∃ t, exec .cometRecordWrite s = .next t ∧
      t.aon.ring = ({ r with number := s.aon.logCount % 2 ^ 32 } :: s.aon.ring).take 4096 ∧
      t.aon.logCount = (s.aon.logCount + 1) % 2 ^ 64 ∧ (s.aon.intakeLost = 0 → t.aon.intake = rest) ∧
      (0 < s.aon.intakeLost → t.aon.intake = rest ++ [s.lossRecord] ∧ t.aon.intakeLost = 0) ∧
      (s.aon.otherFit = true → t.aon.ringFollow = t.aon.ring) ∧ (s.aon.otherFit = false → t.aon.ringFollow = s.aon.ringFollow) ∧
      (r.severity < s.setting 8 → t = { s with aon := t.aon }) ∧
      (s.setting 8 ≤ r.severity → s.pp.state = .standby → t = { s with
        aon := t.aon, out := .mctp (cometBytes { r with number := s.aon.logCount % 2 ^ 32 }) :: s.out }) ∧
      (s.setting 8 ≤ r.severity → s.pp.state ≠ .standby → ∀ p x, s.fnPort 0 = some p → (s.fn 0).fnMask = false →
        (s.fn 0).vecs[3]? = some x → x.masked = false → t.out = .msix 0 3 p x.addr x.data :: s.out) ∧
      t = { s with aon := t.aon, host := t.host, out := t.out }) ∧
    (∀ f n, s.admits h (.logRead f n) →
      (n < 1 ∨ 3 < n → exec (.logRead h f n) s = .next (s.refuseCmd h (.logRead f n) ST_RANGE)) ∧
      (1 ≤ n → n ≤ 3 → ∃ t, exec (.logRead h f n) s = .next t ∧
        t.cx.answers = s.cx.answers ++ [Answer.mk h.sender 2 0x0801 h ST_OK (leBytes 8 (max f (s.aon.logCount - 4096)) ++
          leBytes 8 s.aon.logCount ++ ((List.range (min n (s.aon.logCount - max f (s.aon.logCount - 4096)))).filterMap fun i =>
            s.aon.record (max f (s.aon.logCount - 4096) + i)).flatMap cometBytes)] ∧
        t.aon.bmcMark = (if isBmc h.sender = true then max s.aon.bmcMark f else s.aon.bmcMark) ∧
        t = { s with aon := { s.aon with bmcMark := t.aon.bmcMark }, cx := t.cx })) ∧
    (∀ r : Hbuf, s.admits h (.dumpRegionSet r) →
      (r.addr ≠ 0 → r.addr % 64 = 0 → 2 ^ 28 ≤ r.length → exec (.dumpRegionSet h r) s =
        .next ({ s with rel := { s.rel with dumpHost := some r } }.finishCmd h (.dumpRegionSet r) [])) ∧
      (r.addr = 0 → r.length = 0 → r.pasid = none → exec (.dumpRegionSet h r) s =
        .next ({ s with rel := { s.rel with dumpHost := none } }.finishCmd h (.dumpRegionSet r) [])) ∧
      (r.addr = 0 ∧ (r.length ≠ 0 ∨ r.pasid ≠ none) ∨ r.addr ≠ 0 ∧ (r.addr % 64 ≠ 0 ∨ r.length < 2 ^ 28) →
        exec (.dumpRegionSet h r) s = .next (s.refuseCmd h (.dumpRegionSet r) ST_RANGE))) ∧
    (∀ c, s.supervisorRuns = true → 1 ≤ c → c ≤ 4 → ∃ t, exec (.fatalError c) s = .next t ∧ t.pp.state = .startup ∧ t.pp.phase = 3 ∧
      t.fleet.cores = [] ∧ t.dq = State.reset.dq ∧ t.rel.dumpValid = decide (0 < s.dumpWhere) ∧ t.rel.dumpWhere = s.dumpWhere ∧
      t.cfg = { s.cfg with runtime := [] }) ∧
    (s.supervisorRuns = true → s.aboveFloor = false → ∃ t, exec (.fatalError 5) s = .next t ∧ t.pp.state = .mgmtOnly ∧
      t.pp.phase = 15 ∧ t.mbx = s.mbx ∧ t.fleet.cores = [] ∧ t.dq = State.reset.dq) ∧
    (∀ k, s.supervisorRuns = true → s.pp.state = .service ∨ s.pp.state = .drain ∨ s.pp.state = .retain →
      ((tabGet freshBook s.rel.books (bookKey k)).suspect = false → ∃ t, exec (.audit [k]) s = .next t ∧
        (tabGet freshBook t.rel.books (bookKey k)).suspect = true ∧
        (∀ j, j ≠ bookKey k → (tabGet freshBook t.rel.books j).suspect = false) ∧
        t = { s with rel := { s.rel with books := t.rel.books } }) ∧
      ((tabGet freshBook s.rel.books (bookKey k)).suspect = true →
        (((tabGet freshBook s.rel.books (bookKey k)).rebuilds.filter fun t => decide (s.aon.clock < t + 1000000000)).length < 2 →
          ∃ t, exec (.audit [k]) s = .next t ∧ (tabGet freshBook t.rel.books (bookKey k)).suspect = false ∧
            s.aon.clock ∈ (tabGet freshBook t.rel.books (bookKey k)).rebuilds ∧
            t.aon = (s.cometF6 (bookArea k.1 k.2).1 (bookArea k.1 k.2).2 k.1 (Config.freeValue s.drawn) (Config.freeValue (s.drawn + 1))).aon ∧
            (k.1 = 4 → tabGet 0 t.dq.inFlight k.2 = tabGet 0 s.dq.relaySent k.2 - tabGet 0 s.dq.relayAcked k.2) ∧
            (k.1 ∉ [4, 6, 7, 13] → t = { s with drawn := s.drawn + 2, aon := t.aon, rel := { s.rel with books := t.rel.books } }) ∧
            t = { s with
              drawn := s.drawn + 2, aon := t.aon, rel := { s.rel with books := t.rel.books }, fab := t.fab, out := t.out
              dq := { s.dq with inFlight := t.dq.inFlight }, fleet := { s.fleet with cores := t.fleet.cores } }) ∧
        (2 ≤ ((tabGet freshBook s.rel.books (bookKey k)).rebuilds.filter fun t => decide (s.aon.clock < t + 1000000000)).length →
          bookUnit k.1 k.2 = none → ∃ t, exec (.audit [k]) s = .next t ∧ t.pp.state = .startup ∧ t.pp.phase = 3)))

/-- R241–R243, R540–R545, R551. A corrected error is counted, and over its unit's threshold it is recorded and the unit retired: a core's quad is marked, a spare lane group taken. An uncorrectable error is recorded; the step of a core, slice or engine that it meets ends with ST_ECC, or with ST_CORERESET for a control fault, which resets a core and, when the
Supervisor runs, has its quad marked at once. An error of a memory unit poisons the unit, of a KV record loses the block, of a library bank keeps the engine from it, and of the always-on domain, or of one copy of the journal, only leaves its record; the L2 and the Power Controller fail the complex, both copies of the journal reset the module, and a transit
fault retires the die. A marked quad that no step holds takes a spare, a core that does not stop has its quad marked, and lane groups and edges of the mesh are retired, with a die that no edge reaches. Where it rests on the model's own reading: log entries 74, 75 and 87. -/
def Obligations.ErrorsAndRetirement : Prop :=
  ∀ s : State,
    (∀ u, correctedLimit u = none → exec (.correctedError u) s =
      .next { s with rel := { s.rel with corrected := (u, s.aon.clock) :: s.rel.corrected } }) ∧
    (∀ u most ns, correctedLimit u = some (most, ns) →
      (errorsIn ((u, s.aon.clock) :: s.rel.corrected) u s.aon.clock ns ≤ most ∨ s.rel.retired.contains u = true ∨ s.supervisorRuns = false →
        exec (.correctedError u) s = .next { s with rel := { s.rel with corrected := (u, s.aon.clock) :: s.rel.corrected } }) ∧
      (most < errorsIn ((u, s.aon.clock) :: s.rel.corrected) u s.aon.clock ns → s.rel.retired.contains u = false → s.supervisorRuns = true →
        (∀ n, u = .core n → ∃ t, exec (.correctedError u) s = .next t ∧ n % 64 / 4 ∈ (t.die (n / 64)).retiring ∧
          (∀ d, d ≠ n / 64 → t.die d = s.die d) ∧ t = { s with
            aon := t.aon, fleet := { s.fleet with dies := t.fleet.dies }
            rel := { s.rel with corrected := (u, s.aon.clock) :: s.rel.corrected, retired := t.rel.retired } }) ∧
        (∀ e d g, u = .laneGroup e d g → ∃ t, exec (.correctedError u) s = .next t ∧
          tabGet 0 t.fleet.lanes (e * 2 + d) = tabGet 0 s.fleet.lanes (e * 2 + d) + 1 ∧ t = { s with
            aon := t.aon, fleet := { s.fleet with lanes := t.fleet.lanes }
            rel := { s.rel with corrected := (u, s.aon.clock) :: s.rel.corrected, retired := u :: s.rel.retired } }))) ∧
    (s.ioUp = true → s.supervisorRuns = false →
      (∀ c off q i, c < 512 → (s.core c).step = some (q, i) → (∃ x, s.step? q i = some x ∧ x.ended = none) →
        (∃ t, exec (.uncorrectableError (.coreStore c off)) s = .next t ∧ (∀ u, t.step? q i = some u → u.ended = some ST_ECC) ∧
          t.rel.uncorrected = (.core c, s.aon.clock) :: s.rel.uncorrected) ∧
        (∃ t, exec (.uncorrectableError (.matrixStore c)) s = .next t ∧ (∀ u, t.step? q i = some u → u.ended = some ST_ECC) ∧
          t.rel.uncorrected = (.core c, s.aon.clock) :: s.rel.uncorrected) ∧
        (∃ t, exec (.uncorrectableError (.coreControl c)) s = .next t ∧ (∀ u, t.step? q i = some u → u.ended = some ST_CORERESET))) ∧
      (∀ c off, c < 512 → (s.core c).step = none → exec (.uncorrectableError (.coreStore c off)) s =
        .next ((s.cometF3 4 c c off (0, 0)).countError (.core c))) ∧
      (∀ n, n < 512 → ∃ t, exec (.uncorrectableError (.coreControl n)) s = .next t ∧
        (t.core n).step = none ∧ (t.core n).regs = zeroRegs ∧ (t.core n).tag = none ∧ (t.core n).sync = [] ∧
        t.rel.uncorrected = (.core n, s.aon.clock) :: s.rel.uncorrected) ∧
      (∀ d sl row q i, d < 8 → sl < 48 → row < 512 → (s.die d).sliceHeld.filter (fun h => h.1 == sl) = [(sl, q, i)] →
        (∃ x, s.step? q i = some x ∧ x.ended = none) → ∃ t, exec (.uncorrectableError (.commons d sl row)) s = .next t ∧
          (∀ u, t.step? q i = some u → u.ended = some ST_ECC) ∧ t.rel.uncorrected = (.rowBlock d sl row, s.aon.clock) :: s.rel.uncorrected) ∧
      (∀ d e q i, d < 8 → e < 26 → s.engineStep d e = some (q, i) → (∃ x, s.step? q i = some x ∧ x.ended = none) →
        (∃ t, exec (.uncorrectableError (.engineOperand d e)) s = .next t ∧ (∀ u, t.step? q i = some u → u.ended = some ST_ECC) ∧
          t.rel = s.rel) ∧
        (∃ t, exec (.uncorrectableError (.engineControl d e)) s = .next t ∧
          (∀ u, t.step? q i = some u → u.ended = some ST_CORERESET) ∧ t.rel.uncorrected = (.engine d e, s.aon.clock) :: s.rel.uncorrected)) ∧
      (∀ d e k x, d < 8 → e = 12 ∨ e = 13 → k < 4 → (s.engine d e).side[k]? = some x → (∃ y, s.step? x.queue x.step = some y ∧ y.ended = none) →
        ∃ t, exec (.uncorrectableError (.sideEntry d e k)) s = .next t ∧ (∀ u, t.step? x.queue x.step = some u → u.ended = some ST_ECC) ∧
          t.rel.uncorrected = (.engine d e, s.aon.clock) :: s.rel.uncorrected) ∧
      (∀ d e b, d < 8 → e < 8 → b < 2 → ∃ t, exec (.uncorrectableError (.libraryBank d e b)) s = .next t ∧ b ∈ (t.engine d e).badBanks ∧
        t.rel.uncorrected = (.engine d e, s.aon.clock) :: s.rel.uncorrected) ∧
      (∀ u, s.siteOk (.memoryUnit u) = true → ∃ t, exec (.uncorrectableError (.memoryUnit u)) s = .next t ∧ t.mem = s.mem.setPoison u ∧
        t.aon = (s.cometF3 3 (halfOf (u * 64)) (halfOf (u * 64)) (u * 64) (0, 0)).aon ∧
        t = { s with mem := t.mem, aon := t.aon, rel := { s.rel with uncorrected := t.rel.uncorrected } })) ∧
    (s.ioUp = true →
      (∀ n, n < 512 → s.supervisorRuns = true → s.rel.retired.contains (.core n) = false →
        ∃ t, exec (.uncorrectableError (.coreControl n)) s = .next t ∧ n % 64 / 4 ∈ (t.die (n / 64)).retiring) ∧
      (∀ p r x, tabGet? s.kv.pools p = some x → ∃ t, exec (.uncorrectableError (.kvRecord p r)) s = .next t ∧
        ((tabGet freshKv x.recs r).state = .held → (tabGet? t.kv.pools p).map (fun y => (tabGet freshKv y.recs r).state) = some .lost) ∧
        (∀ k, k ≠ p → tabGet? t.kv.pools k = tabGet? s.kv.pools k) ∧
        t = { s with aon := (s.cometF3 3 p p r (0, 0)).aon, kv := { s.kv with pools := t.kv.pools } }) ∧
      (∀ i, i < 2 → exec (.uncorrectableError (.alwaysOn i)) s = .next (s.cometF3 0 i i 0 (0, 0))) ∧
      exec (.uncorrectableError (.journal false)) s = .next (s.cometF3 5 supervisorId s.cx.active 0 (0, 0)) ∧
      (∃ t, exec (.uncorrectableError (.journal true)) s = .next t ∧ t.pp.state = .startup ∧ t.pp.phase = 3) ∧
      (∀ e i, e = .l2 ∧ i = supervisorId ∨ e = .powerController ∧ i = 3 → s.watched = true → exec (.uncorrectableError e) s =
        .next ((s.cometF3 5 i s.cx.active 0 (0, 0)).complexFails 2)) ∧
      (∀ d, d < 8 → s.supervisorRuns = true → (s.die d).retired = false → ∃ t, exec (.uncorrectableError (.transit d)) s = .next t ∧
        UnitRef.die d ∈ t.rel.retired)) ∧
    (∀ d k p r, d < 8 → k < 16 → (s.die d).retiring.contains k = true → s.quadHeld d k = false → s.supervisorRuns = true →
      (s.die d).retired = false → s.spareQuads d = p :: r → 16 ≤ s.dieCores d → s.aboveFloor = true →
      ∃ t, exec (.quadSpareMap d k) s = .next t ∧ t.quad d k = some p ∧ k ∉ (t.die d).retiring ∧
        (∀ o, s.quad d k = some o → o ∈ (t.die d).retiredQuads) ∧ (∀ m, m < 16 → m ≠ k → t.quad d m = s.quad d m) ∧
        (∀ c, c < 4 → (t.core (64 * d + 4 * k + c)).regs = zeroRegs ∧ (t.core (64 * d + 4 * k + c)).step = none) ∧
        t = { s with mem := t.mem, aon := t.aon, fleet := { s.fleet with cores := t.fleet.cores, dies := t.fleet.dies } }) ∧
    (∀ n, n < 512 → (s.core n).stopOrdered = true → (s.core n).step.isSome = true → (s.core n).freed = false → s.supervisorRuns = true →
      ∃ t, exec (.coreStopTimeout n) s = .next t ∧ n % 64 / 4 ∈ (t.die (n / 64)).retiring ∧ (∀ d, d ≠ n / 64 → t.die d = s.die d) ∧
        t = { s with
          aon := t.aon, fleet := { s.fleet with dies := t.fleet.dies }, rel := { s.rel with retired := t.rel.retired } }) ∧
    (∀ e d g, e < 14 → d < 2 → g < 17 → s.rel.retired.contains (.laneGroup e d g) = false → s.supervisorRuns = true →
      ∃ t, exec (.meshLaneGroupFailure e d g) s = .next t ∧ tabGet 0 t.fleet.lanes (e * 2 + d) = tabGet 0 s.fleet.lanes (e * 2 + d) + 1 ∧
        t = { s with
          aon := t.aon, fleet := { s.fleet with lanes := t.fleet.lanes }
          rel := { s.rel with retired := .laneGroup e d g :: s.rel.retired } }) ∧
    (∀ e p, e < 14 → s.fleet.edgesDown.contains e = false → edgeEnds[e]? = some p → s.supervisorRuns = true →
      ((∀ d, d = p.1 ∨ d = p.2 → (edgesOf d).all (e :: s.fleet.edgesDown).contains = false) →
        ∃ t, exec (.meshEdgeFailure e) s = .next t ∧ t = { s with
          aon := t.aon, fleet := { s.fleet with edgesDown := e :: s.fleet.edgesDown }, rel := { s.rel with retired := t.rel.retired } }) ∧
      (∀ d, d = p.2 → d < 8 → (edgesOf d).all (e :: s.fleet.edgesDown).contains = true → (s.die d).retired = false →
        (edgesOf p.1).all (e :: s.fleet.edgesDown).contains = false →
        ∃ t, exec (.meshEdgeFailure e) s = .next t ∧ UnitRef.die d ∈ t.rel.retired))


/-! ## Mailboxes -/

/-- R12, R119–R123, R125, R127, R137. Each act of a master on a channel. A claim of a free channel of its pair owns it and reads 0, a claim of one that is owned reads the owner, and a claim by another master reads 0xFFFF with a record; a narrow one reads the bytes it addresses. The owner of an empty channel sends, which counts the message and tells the receiver; the receiver of a full one takes it,
and ends it, which frees the channel and tells the owner, and on channel 523 carries the message to the BMC; the owner withdraws a message that is not taken, and releases the lock of an empty channel. A write that its sender may not make changes nothing but the log, and a withdrawal that lost its race to the receiver nothing at all. -/
def Obligations.MailboxChannels : Prop :=
  ∀ (s : State) (a : Access) (c : Nat), s.accepts a = true → c < 544 →
    (∀ off size,
      (s.bound c a.master = true → (s.chan c).owner = 0 → exec (.lockClaim a ⟨c, off, size⟩) s =
        .next ((s.setChan c fun x => { x with owner := a.master }).emit (.readData a.master 0))) ∧
      (s.bound c a.master = true → (s.chan c).owner ≠ 0 → exec (.lockClaim a ⟨c, off, size⟩) s =
        .next (s.emit (.readData a.master (narrowed (s.chan c).owner off size)))) ∧
      (s.bound c a.master = false → exec (.lockClaim a ⟨c, off, size⟩) s =
        .next ((s.emit (.readData a.master (narrowed 0xFFFF off size))).mbxDiscard c a.master))) ∧
    (s.bound c a.master = true → (s.chan c).owner = a.master → (s.chan c).full = false →
      (∃ t, exec (.mbxSend a c) s = .next t ∧
        t.chan c = { s.chan c with
          full := true, taken := false, withdrawn := false, sent := ((s.chan c).sent + 1) % 65536, lastSender := a.master
          order := s.mbx.sends } ∧
        (∀ k, k ≠ c → t.chan k = s.chan k) ∧ t.mbx.sends = s.mbx.sends + 1 ∧
        (fnOf (s.otherMaster c a.master) = none → t.host = s.host ∧ t.out = .interrupt (s.otherMaster c a.master) c false :: s.out) ∧
        (∀ f, fnOf (s.otherMaster c a.master) = some f → (s.chan c).msgEn = false → t.host = s.host ∧ t.out = s.out) ∧
        (∀ f p x, fnOf (s.otherMaster c a.master) = some f → (s.chan c).msgEn = true → s.fnPort f = some p → (s.fn f).fnMask = false →
          (s.fn f).vecs[0]? = some x → x.masked = false → t.out = .msix f 0 p x.addr x.data :: s.out) ∧
        t = { s with mbx := t.mbx, host := t.host, out := t.out }) ∧
      exec (.lockRelease a c) s = .next (s.setChan c fun x => { x with owner := 0 })) ∧
    (s.bound c a.master = true → (s.chan c).owner ≠ a.master → (s.chan c).full = true →
      exec (.mbxTake a c) s = .next (s.setChan c fun x => { x with taken := true }) ∧
      ∃ t, exec (.mbxDone a c) s = .next t ∧ t.chan c = { s.chan c with full := false, taken := false, owner := 0 } ∧
        (∀ k, k ≠ c → t.chan k = s.chan k) ∧
        (c = 523 → Output.mctp ((s.chan c).message.take (16 + fieldAt (s.chan c).message 6 2)) ∈ t.out) ∧
        (c ≠ 523 → fnOf (s.chan c).owner = none → t.host = s.host ∧ t.out = .interrupt (s.chan c).owner c true :: s.out) ∧
        (∀ f, c ≠ 523 → fnOf (s.chan c).owner = some f → (s.chan c).emptyEn = false → t.host = s.host ∧ t.out = s.out) ∧
        t = { s with mbx := t.mbx, host := t.host, out := t.out }) ∧
    (s.bound c a.master = true → (s.chan c).owner = a.master → (s.chan c).full = true → (s.chan c).taken = false →
      exec (.mbxWithdraw a c) s = .next (s.setChan c fun x => { x with full := false, withdrawn := true, owner := 0 })) ∧
    (s.bound c a.master = false ∨ (s.chan c).owner ≠ a.master ∨ (s.chan c).full = true →
      exec (.mbxSend a c) s = .next (s.mbxDiscard c a.master) ∧ exec (.lockRelease a c) s = .next (s.mbxDiscard c a.master)) ∧
    (s.bound c a.master = false ∨ (s.chan c).owner = a.master ∨ (s.chan c).full = false →
      exec (.mbxTake a c) s = .next (s.mbxDiscard c a.master) ∧ exec (.mbxDone a c) s = .next (s.mbxDiscard c a.master)) ∧
    ((s.chan c).lastSender = a.master → (s.chan c).taken = true ∨ (s.chan c).full = false → exec (.mbxWithdraw a c) s = .next s) ∧
    (s.bound c a.master = false ∨ (s.chan c).owner ≠ a.master → (s.chan c).lastSender ≠ a.master →
      exec (.mbxWithdraw a c) s = .next (s.mbxDiscard c a.master))

/-- R7, R11, R12, R27, R125–R127, R132–R134, R137, R572, R575. A write of a host function to a register: the channel registers do what their commands do, the interrupt enables and each FLT register take the bits that are theirs and discard what is written to the others, bytes of the buffer of an owned and empty channel are written, and the entries of the MSI-X table take address, data and
mask. A narrow or misaligned write to a 64-bit register is discarded with its record, and one to a reserved offset is discarded. The PF's write of LOG.DUMP clears its valid bit. A write to the configuration space of a port changes that port's memory enables and VFs, or the function's mask. Another master of the module writes the buffer of
a channel that it owns. Where it rests on the model's own reading: log entries 8 and 85. -/
def Obligations.RegisterWrites : Prop :=
  ∀ (s : State) (a : Access),
    (s.accepts a = true → ∀ f, fnOf a.master = some f → 1 ≤ f →
      (∀ k o n v, k < 2 → o + n ≤ 256 → n = 1 ∨ n = 2 ∨ n = 4 ∨ n = 8 → v < 2 ^ (8 * n) → s.bound (2 * f + k) a.master = true →
        (s.chan (2 * f + k)).owner = a.master → (s.chan (2 * f + k)).full = false →
        ∃ t, exec (.registerWrite a 0 (0x8000 + 4096 * k + o) n v) s = .next t ∧
          (∀ i, i < n → tabGet 0 (t.chan (2 * f + k)).buf (o + i) = (leBytes n v).getD i 0) ∧
          (∀ j, j < o ∨ o + n ≤ j → tabGet 0 (t.chan (2 * f + k)).buf j = tabGet 0 (s.chan (2 * f + k)).buf j) ∧
          { t.chan (2 * f + k) with buf := (s.chan (2 * f + k)).buf } = s.chan (2 * f + k) ∧
          (∀ j, j ≠ 2 * f + k → t.chan j = s.chan j) ∧ t = { s with mbx := { s.mbx with chans := t.mbx.chans } }) ∧
      (∀ k v, k < 2 → v < 2 ^ 64 →
        exec (.registerWrite a 0 (0x8100 + 4096 * k) 8 v) s = exec (.mbxSend a (2 * f + k)) s ∧
        exec (.registerWrite a 0 (0x8110 + 4096 * k) 8 v) s = exec (.mbxTake a (2 * f + k)) s ∧
        exec (.registerWrite a 0 (0x8118 + 4096 * k) 8 v) s = exec (.mbxDone a (2 * f + k)) s ∧
        exec (.registerWrite a 0 (0x8120 + 4096 * k) 8 v) s = exec (.mbxWithdraw a (2 * f + k)) s ∧
        exec (.registerWrite a 0 (0x8208 + 4096 * k) 8 v) s = exec (.lockRelease a (2 * f + k)) s ∧
        (s.bound (2 * f + k) a.master = true → exec (.registerWrite a 0 (0x8128 + 4096 * k) 8 v) s =
          .next (s.setChan (2 * f + k) fun x => { x with emptyEn := bit v 1, msgEn := bit v 0 }))) ∧
      (∀ o v, o < 5 → v < 2 ^ 64 → ∃ t, exec (.registerWrite a 0 (0x4000 + 8 * o) 8 v) s = .next t ∧
        (o = 0 → t.fn f = { s.fn f with fltBase := if (s.fn f).fltEnable = true then (s.fn f).fltBase else v / 4096 * 4096 }) ∧
        (o = 1 → (s.fn f).fltEnable = false → t.fn f = { s.fn f with
          fltLog2 := v % 32, fltEnable := bit v 63 && decide (6 ≤ v % 32 ∧ v % 32 ≤ 16) }) ∧
        (o = 2 → t.fn f = s.fn f) ∧ (o = 3 → t.fn f = { s.fn f with fltConsumer := v % 2 ^ 32 }) ∧
        (o = 4 → t.fn f = { s.fn f with
          fltWriteError := (s.fn f).fltWriteError && !bit v 1, fltHeldBit := (s.fn f).fltHeldBit && !bit v 0 }) ∧
        (∀ g, g ≠ f → t.fn g = s.fn g) ∧ t = { s with host := { s.host with fns := t.host.fns } }) ∧
      (∀ o n v, o < 40 → n = 1 ∨ n = 2 ∨ n = 4 ∨ n = 8 ∧ o % 8 ≠ 0 → v < 2 ^ (8 * n) →
        exec (.registerWrite a 0 (0x4000 + o) n v) s =
          .next (s.comet 0x05F0 2 (a.master % 4096) none [0x4000 + o, 0 + a.port * 256, a.master])) ∧
      (∀ e v x, e < 4 → v < 2 ^ 32 → (s.fn f).vecs[e]? = some x →
        (∃ t, exec (.registerWrite a 0 (0x2000 + 16 * e) 4 v) s = .next t ∧
          (t.fn f).vecs[e]? = some { x with addr := x.addr / 2 ^ 32 * 2 ^ 32 + v } ∧
          (∀ g, g ≠ f → t.fn g = s.fn g) ∧ t = { s with host := { s.host with fns := t.host.fns } }) ∧
        (∃ t, exec (.registerWrite a 0 (0x2000 + 16 * e + 4) 4 v) s = .next t ∧
          (t.fn f).vecs[e]? = some { x with addr := v * 2 ^ 32 + x.addr % 2 ^ 32 } ∧
          (∀ g, g ≠ f → t.fn g = s.fn g) ∧ t = { s with host := { s.host with fns := t.host.fns } }) ∧
        (∃ t, exec (.registerWrite a 0 (0x2000 + 16 * e + 8) 4 v) s = .next t ∧ (t.fn f).vecs[e]? = some { x with data := v } ∧
          (∀ g, g ≠ f → t.fn g = s.fn g) ∧ t = { s with host := { s.host with fns := t.host.fns } }) ∧
        (bit v 0 = false → exec (.registerWrite a 0 (0x2000 + 16 * e + 12) 4 v) s = exec (.msixUnmask f (some e)) s)) ∧
      (∀ o v, o < 4096 → v < 2 ^ 64 → exec (.registerWrite a 0 (0xA000 + o) 8 v) s = .next s)) ∧
    (s.accepts a = true → fnOf a.master = some 0 → ∀ v, v < 2 ^ 64 → exec (.registerWrite a 0 0x3008 8 v) s =
      .next { s with rel := { s.rel with dumpValid := s.rel.dumpValid && !bit v 0 } }) ∧
    (∀ f, fnOf a.master = some f → a.port < 2 → (s.port a.port).up = true → (s.port a.port).cfgReady = true → (s.port a.port).on f = true →
      (∀ v, f = 0 → v < 2 ^ 16 → exec (.registerWrite a 8 0x04 2 v) s = .next (s.setPort a.port fun x => { x with pfMem := bit v 1 })) ∧
      (∀ v, v < 2 ^ 16 → bit v 14 = true →
        exec (.registerWrite a 8 0x42 2 v) s = .next (s.setFn f fun h => { h with fnMask := true })) ∧
      (∀ v, v < 2 ^ 16 → bit v 14 = false → exec (.registerWrite a 8 0x42 2 v) s = exec (.msixUnmask f none) s) ∧
      (∀ v, f = 0 → v < 2 ^ 24 → ∃ t, exec (.registerWrite a 8 0x108 4 v) s = .next t ∧
        { t.port a.port with posted := [] } = { s.port a.port with
          vfs := if bit v 0 = true then v / 65536 else 0, vfMem := bit v 3, posted := [] } ∧
        { t.port (1 - a.port) with posted := [] } = { s.port (1 - a.port) with posted := [] } ∧
        t = { s with
          host := { s.host with portA := t.host.portA, portB := t.host.portB, fns := t.host.fns }, out := t.out })) ∧
    (s.accepts a = true → fnOf a.master = none → ∀ c o n v, c < 544 → o + n ≤ 256 → n = 1 ∨ n = 2 ∨ n = 4 ∨ n = 8 → v < 2 ^ (8 * n) →
      s.bound c a.master = true → (s.chan c).owner = a.master → (s.chan c).full = false →
      ∃ t, exec (.registerWrite a 0 (0x100000 + 4096 * c + o) n v) s = .next t ∧
        (∀ i, i < n → tabGet 0 (t.chan c).buf (o + i) = (leBytes n v).getD i 0) ∧
        (∀ j, j < o ∨ o + n ≤ j → tabGet 0 (t.chan c).buf j = tabGet 0 (s.chan c).buf j) ∧ (∀ j, j ≠ c → t.chan j = s.chan j) ∧
        t = { s with mbx := { s.mbx with chans := t.mbx.chans } })

/-- R83, R115, R118, R145, R147–R149, R151, R155–R158, R546. The Supervisor takes a message, which frees its channel: it answers one that it refuses and runs the command of another, but that a reset requested during a start is merged into it; a command held behind one of its channel comes first. An answer leaves on the empty channel of its sender, where the journal notes it as
sent, or goes to the head, and stays while the channel is in use. A member answers a forwarded message, runs its command, or holds it. A member's answer joins the queue of its function, and the command forwarded is done with unless a notice is still to come; one that nothing waits for is discarded. The management endpoint passes a message
to channel 522 while it is free, and in STANDBY and management only answers it itself. Where it rests on the model's own reading: log entries 9, 33 and 49. -/
def Obligations.MessagesAndReplies : Prop :=
  ∀ s : State,
    (∀ d, s.supervisorRuns = true → s.nextHeld = some d → exec .supervisorTakeMessage s = .next (s.runHeld d)) ∧
    (∀ c x, s.cx.held = [] → s.nextMessage s.draw.1 = some (c, x) → c < 524 →
      (∀ e, parseMessage (channelSender c s.draw.1) s.cfg.minor x.message = .inl e →
        e.1.sender ≠ .gone → s.bound c supervisorId = true → (s.chan c).owner ≠ supervisorId → (s.chan c).full = true →
        ∃ t, exec .supervisorTakeMessage s = .next t ∧ (t.chan c).owner = 0 ∧ (t.chan c).full = false ∧
          t.cx.answers = s.cx.answers ++ [Answer.mk e.1.sender 2 e.2.1 e.1 e.2.2 []] ∧ (∀ k, k ≠ c → t.chan k = s.chan k) ∧
          t = { s with mbx := t.mbx, cx := t.cx, host := t.host, out := t.out }) ∧
      (∀ p, parseMessage (channelSender c s.draw.1) s.cfg.minor x.message = .inr p →
        (cmdMerges p.2 = false ∨ s.mbx.serviceFrom ≤ x.order → exec .supervisorTakeMessage s =
          .next (((s.takeMsg supervisorId c).doneMsg supervisorId c).runCmd p.1 p.2 (cmdEffect p.1 p.2))) ∧
        (cmdMerges p.2 = true → x.order < s.mbx.serviceFrom → exec .supervisorTakeMessage s =
          .next (((s.takeMsg supervisorId c).doneMsg supervisorId c).runCmd p.1 p.2 fun s => .ok [] s)))) ∧
    (∀ d c m a, (∃ f, f < 256 ∧ d = .host f ∧ c = 2 * f + 1 ∧ m = masterOf f) ∨ d = .bmc ∧ c = 523 ∧ m = bmcId → s.canReply = true →
      s.cx.answers.find? (fun a => a.dest == d) = some a →
      ((s.chan c).owner = 0 → (s.chan c).full = false → ∃ t, exec (.replyDelivery d) s = .next t ∧
        (t.chan c).full = true ∧ (t.chan c).owner = supervisorId ∧ (t.chan c).taken = false ∧
        (t.chan c).sent = ((s.chan c).sent + 1) % 65536 ∧
        (∀ i, i < 256 → tabGet 0 (t.chan c).buf i = (answerBytes a).getD i 0) ∧
        (∀ k, k ≠ c → t.chan k = s.chan k) ∧ t.cx.answers = s.cx.answers.erase a ∧
        (a.kind = 2 → ∀ j, j ∈ t.cx.journal → j.hdr = a.hdr → j.opcode = a.opcode → j.replied = true) ∧
        t = { s with
          mbx := t.mbx, cx := { s.cx with answers := t.cx.answers, journal := t.cx.journal }, host := t.host, out := t.out }) ∧
      ((s.chan c).owner ≠ 0 ∨ (s.chan c).full = true → exec (.replyDelivery d) s = .next s)) ∧
    (∀ f a, s.canReply = true → s.cx.answers.find? (fun a => a.dest == .relay f) = some a → exec (.replyDelivery (.relay f)) s =
      .next ((s.answered a).send s.headDevice 3 (.answer f (answerBytes a)))) ∧
    (∀ f m, f < 257 → s.isHead = false → s.takes (.relay f) (messageAny m) = true →
      (∀ e, parseMessage (.relay f) s.cfg.minor m = .inl e →
        exec (.forwardedCommandReceive f m) s = .next (s.refuseAs e.1 e.2.1 none e.2.2)) ∧
      (∀ p, parseMessage (.relay f) s.cfg.minor m = .inr p →
        (s.channelWaits (.relay f) = true → exec (.forwardedCommandReceive f m) s = .next (s.holdCmd p.1 p.2)) ∧
        (s.channelWaits (.relay f) = false → cmdPod p.2 = false →
          exec (.forwardedCommandReceive f m) s = .next (s.runCmd p.1 p.2 (cmdEffect p.1 p.2))) ∧
        (s.channelWaits (.relay f) = false → cmdPod p.2 = true → s.checkState p.2 = true →
          exec (.forwardedCommandReceive f m) s = .next (s.settleCmd p.1 p.2 (cmdEffect p.1 p.2 s))))) ∧
    (∀ n f m e, f < 256 → s.fab.forwardedCmds = [e] → e.member = n → e.fn = f → e.hdr.tag = fieldAt m 8 4 → e.opcode = fieldAt m 0 2 →
      exec (.forwardedReplyReceive n f m) s = .next { s with
        fab := { s.fab with
          forwardedCmds := if fieldAt m 2 1 = 2 ∧ fieldAt m 12 2 = ST_ACCEPTED then [{ e with notice := true }] else [] }
        cx := { s.cx with answers := s.cx.answers ++ [answerOf (.host f) m] } }) ∧
    (∀ n f m, s.fab.forwardedCmds = [] → exec (.forwardedReplyReceive n f m) s = .next s) ∧
    (∀ m, s.pp.state ≠ .standby → s.pp.state ≠ .mgmtOnly → s.ioUp = true → s.bound 522 6 = true →
      ((s.chan 522).owner = 0 → (s.chan 522).full = false → ∃ t, exec (.bmcMctpMessage m) s = .next t ∧
        (t.chan 522).full = true ∧ (t.chan 522).owner = 6 ∧ (t.chan 522).taken = false ∧
        (∀ i, i < m.length → i < 256 → tabGet 0 (t.chan 522).buf i = m.getD i 0) ∧ (∀ k, k ≠ 522 → t.chan k = s.chan k) ∧
        t = { s with mbx := t.mbx, host := t.host, out := t.out }) ∧
      ((s.chan 522).owner ≠ 0 ∨ (s.chan 522).full = true → exec (.bmcMctpMessage m) s = .next s)) ∧
    (∀ m, s.pp.state = .standby ∨ s.pp.state = .mgmtOnly →
      (∀ e, parseMessage .bmc s.cfg.minor m = .inl e →
        exec (.bmcMctpMessage m) s = .next (s.emit (.mctp (answerBytes ⟨.bmc, 2, e.2.1, e.1, e.2.2, []⟩)))) ∧
      (∀ p, parseMessage .bmc s.cfg.minor m = .inr p →
        exec (.bmcMctpMessage m) s = .next (s.endpoint p.1 p.2 (cmdEffect p.1 p.2))))

/-! ## Doorbells, the relay and the Dispatcher -/

/-- R139–R141, R178, R202–R204. Doorbells. One above the producer index and within the ring is latched with its value and no other queue
moves, one of the producer's own value changes nothing, and one below it or past the ring's room, to a queue that is not configured, or
of a function that does not own the group leaves a refusal record of kind 4 with ST_RANGE, ST_STATE or ST_DENIED and moves no index; the
last, and one to an unassigned group, leave a Comet record too. One in the pod window of this device acts as at its own page, one in
another member's waits in the relay table, where it replaces an earlier value, or is discarded, counted and recorded where that member
cannot be reached. The head forwards the oldest against a credit, and with none pending the switch that waits; a member applies a
forwarded one and returns the credit, which the head counts; and the mirror takes the five fields of an entry.
Where it rests on the model's own reading: log entries 33 and 49. -/
def Obligations.DoorbellsAndRelay : Prop :=
  ∀ s : State,
    (∀ a f p e g v G x, s.accepts a = true → fnOf a.master = some f → e < 64 → v < 2 ^ 64 → s.pageGroup f p = some g →
      s.group (g * 64 + e) = some G → x = s.queue (g * 64 + e) →
      (G.fn = f → s.queueState (g * 64 + e) ≠ 0 →
        (x.producer < v → v - x.completed ≤ 2 ^ x.log2 → ∃ t, exec (.doorbellWrite a p e v) s = .next t ∧
          t.queue (g * 64 + e) = { x with
            producer := v, latched := true, latchOrder := if x.latched = true then x.latchOrder else s.dq.latches } ∧
          (∀ q, q ≠ g * 64 + e → t.queue q = s.queue q) ∧
          t = { s with dq := { s.dq with queues := t.dq.queues, latches := s.dq.latches + 1 } }) ∧
        (v = x.producer → exec (.doorbellWrite a p e v) s = .next s) ∧
        (v < x.producer ∨ x.producer < v ∧ 2 ^ x.log2 < v - x.completed → exec (.doorbellWrite a p e v) s =
          .next (s.refusal f ST_RANGE G.ctag (g * 64 + e) v 9 s.cx.active a.master false false))) ∧
      (G.fn = f → s.queueState (g * 64 + e) = 0 → exec (.doorbellWrite a p e v) s =
        .next (s.refusal f ST_STATE G.ctag (g * 64 + e) v 9 s.cx.active a.master false false)) ∧
      (G.fn ≠ f → exec (.doorbellWrite a p e v) s =
        .next ((s.refusal G.fn ST_DENIED G.ctag (g * 64 + e) v 9 s.cx.active a.master false false).cometF0 6 g (g * 64 + e) a.master))) ∧
    (∀ a f p e g v, s.accepts a = true → fnOf a.master = some f → e < 64 → v < 2 ^ 64 → s.pageGroup f p = some g →
      s.group (g * 64 + e) = none → exec (.doorbellWrite a p e v) s =
        .next ((s.refusal f ST_STATE 0 (g * 64 + e) v 9 s.cx.active a.master true false).cometF0 6 g (g * 64 + e) a.master)) ∧
    (∀ a m p e v, s.accepts a = true → a.master = masterOf 0 → m < 64 → p < 1024 → e < 64 → v < 2 ^ 64 →
      (m = s.fab.device → exec (.podWindowDoorbell a m p e v) s = exec (.doorbellWrite a p e v) s) ∧
      (m ≠ s.fab.device → s.isHead = true → s.memberUp m = true →
        ((∀ r, r ∈ s.dq.relay → r.member ≠ m ∨ r.queue ≠ p * 64 + e) → exec (.podWindowDoorbell a m p e v) s = .next { s with
          dq := { s.dq with
            relay := s.dq.relay ++ [⟨m, p * 64 + e, a.master, v, s.dq.relayOrder⟩], relayOrder := s.dq.relayOrder + 1 } }) ∧
        (∀ r, r ∈ s.dq.relay → r.member = m → r.queue = p * 64 + e → exec (.podWindowDoorbell a m p e v) s = .next { s with
          dq := { s.dq with relay := s.dq.relay.map fun x =>
            if x.member = m ∧ x.queue = p * 64 + e then { x with value := v, master := a.master } else x } })) ∧
      (m ≠ s.fab.device → s.isHead = false ∨ s.memberUp m = false → exec (.podWindowDoorbell a m p e v) s =
        .next ({ s with dq := { s.dq with discarded := (s.dq.discarded + 1) % 2 ^ 32 } }.cometF0 6 p (p * 64 + e) a.master))) ∧
    (∀ m, s.isHead = true → s.memberUp m = true →
      (∀ r, s.nextForward m = some r → s.dq.switches = [] → ∃ t, exec (.relayForward m) s = .next t ∧
        t.dq.relay = s.dq.relay.filter (fun x => !(x.member == m && x.queue == r.queue)) ∧
        (∀ n, tabGet 0 t.dq.inFlight n = if n = m then tabGet 0 s.dq.inFlight n + 1 else tabGet 0 s.dq.inFlight n) ∧
        (∀ n, tabGet 0 t.dq.relaySent n = if n = m then tabGet 0 s.dq.relaySent n + 1 else tabGet 0 s.dq.relaySent n) ∧
        t = { s with
          dq := { s.dq with
            relay := t.dq.relay, inFlight := t.dq.inFlight, relaySent := t.dq.relaySent
            forwarded := (s.dq.forwarded + 1) % 2 ^ 32 } }.send m 3 (.doorbell r.master r.queue r.value)) ∧
      (∀ w, s.nextForward m = none → s.dq.switches = [w] → w.member = m →
        (∀ r, r ∈ s.dq.relay → r.member = m → w.before ≤ r.order) → exec (.relayForward m) s =
          .next ({ s with dq := { s.dq with switches := [] } }.send m 3 (.epochSwitch w.model w.epoch)))) ∧
    (∀ x q v d, q < 65536 → v < 2 ^ 64 → d < 2 → s.isHead = false → exec (.forwardedDoorbellReceive x q v d) s =
      .next ((s.doorbell x q v 10 d true).send s.headDevice 3 .relayCredit)) ∧
    (∀ m, 0 < tabGet 0 s.dq.inFlight m → ∃ t, exec (.relayCreditReturn m) s = .next t ∧
      (∀ n, tabGet 0 t.dq.inFlight n = if n = m then tabGet 0 s.dq.inFlight n - 1 else tabGet 0 s.dq.inFlight n) ∧
      (∀ n, tabGet 0 t.dq.relayAcked n = if n = m then tabGet 0 s.dq.relayAcked n + 1 else tabGet 0 s.dq.relayAcked n) ∧
      t = { s with dq := { s.dq with inFlight := t.dq.inFlight, relayAcked := t.dq.relayAcked } }) ∧
    (∀ m q x, s.isHead = true → m < 64 → q < 65536 → ∃ t, exec (.mirrorUpdate m q x) s = .next t ∧
      (∀ k, tabGet freshMirror t.dq.mirrors k = if k = mirrorKey m q then x else tabGet freshMirror s.dq.mirrors k) ∧
      t = { s with dq := { s.dq with mirrors := t.dq.mirrors } })

/-- R175, R180, R182, R184–R187, R189, R191–R193. A Dispatcher round over one queue: a latched queue without a slot is mapped to the
lowest free one and one in a slot is scanned; a posted descriptor of a slotted queue is read, from device memory or through the port of
its context, waits for its walk, or is reported as a failed read. A round over one step that awaits launch ends it, holds it at a hold
barrier or lets it wait, orders the wakes of the cores chosen for it, or pre-empts a step for it. An idle queue's slot passes to the first
parked queue of its class, and a step that has waited long is promoted.
Where it rests on the model's own reading: log entries 10, 86 and 104. -/
def Obligations.DispatcherRounds : Prop :=
  ∀ s : State, s.dispatching = true →
    (∀ q x, s.dq.queues = [(q, x)] → s.dq.steps = [] → x.configured = true → x.latched = true → x.producer ≤ x.consumed →
      (x.slot = none → exec .dispatchRound s = .next ((s.setQueue q fun y => { y with
        latched := false, clearSince := s.aon.clock, slot := some 0 }).mirrorOut q)) ∧
      (x.slot.isSome = true →
        exec .dispatchRound s = .next (s.setQueue q fun y => { y with latched := false, clearSince := s.aon.clock }))) ∧
    (∀ q x, s.dq.queues = [(q, x)] → s.dq.steps = [] → x.configured = true → x.latched = false → x.slot.isSome = true →
      x.reading = false → x.consumed < x.producer →
      (∀ t ps, s.stage dispUnit (s.queueCtag q) x.descVa 128 1 (some (q, x.consumed)) 9 s.cx.active = .ok t ps →
        (partsHost ps = false → exec .dispatchRound s = .next (t.setQueue q fun y => { y with reading := true })) ∧
        (partsHost ps = true → exec .dispatchRound s = .next ((t.setQueue q fun y => { y with reading := true }).issueRead
          ((t.ctxPort (t.context (s.queueCtag q))).getD 0) (s.queueCtag q) x.descVa ps (.descriptor q)))) ∧
      (∀ t, s.stage dispUnit (s.queueCtag q) x.descVa 128 1 (some (q, x.consumed)) 9 s.cx.active = .stall t →
        exec .dispatchRound s = .next t) ∧
      (∀ k d r a, s.stage dispUnit (s.queueCtag q) x.descVa 128 1 (some (q, x.consumed)) 9 s.cx.active = .fault k d r a →
        exec .dispatchRound s = .next (s.descFault q x.consumed k d r a))) ∧
    ((∀ e, e ∈ s.dq.queues → e.2.latched = false ∧ e.2.slot = none) →
      (∀ u, s.dq.steps = [u] → u.index = (s.queue u.queue).completed → u.ended = none → u.cond = .awaiting →
        (∀ e, s.launchWay u = .ends e → exec .dispatchRound s = .next (s.endUnlaunched u e)) ∧
        (s.launchWay u = .hold → exec .dispatchRound s =
          .next ((s.modStep u.queue u.index fun y => { y with cond := .held }).mirrorOut u.queue)) ∧
        (s.launchWay u = .waits → exec .dispatchRound s = .next s) ∧
        (∀ p w a cores, s.launchWay u = .place p w a → s.slicesFree u p = true → s.chooseCores [] u p = some cores →
          exec .dispatchRound s = .next (forEach cores s State.wakeCore))) ∧
      (∀ u v p w a t, s.dq.steps = [u, v] → (v.queue, v.index) ≠ (u.queue, u.index) → u.index = (s.queue u.queue).completed → u.ended = none → u.cond = .awaiting →
        v.cond = .running → s.launchWay u = .place p w a → s.slicesFree u p = true → s.chooseCores [] u p = none → s.dq.plans = [] →
        s.mayPreempt u v = true → s.victims [] u p 2 [v] [] = some [v] →
        t = ({ s with dq := { s.dq with plans := [((u.queue, u.index), [(v.queue, v.index)])] } }).preempt u v →
        exec .dispatchRound s = .next (if t.planned u = true then forEach (s.pick [] u p) t State.wakeCore else t))) ∧
    (∀ q w r, (s.queue q).slot.isSome = true → (s.queue q).latched = false → s.readSteps q = [] → (s.queue q).reading = false →
      1000000 ≤ s.aon.clock - max (s.queue q).clearSince (s.queue q).lastEnd →
      (s.queueOrder fun _ y => y.latched && y.slot.isNone && y.cls == (s.queue q).cls) = w :: r →
      exec (.idleSlotHandover q) s = .next ((((s.setQueue q fun y => { y with slot := none }).mirrorOut q).setQueue w fun y => { y with
        latched := false, clearSince := s.aon.clock, slot := (s.queue q).slot }).mirrorOut w)) ∧
    (∀ q i u, s.step? q i = some u → u.cond = .awaiting ∨ u.cond = .held → u.ended = none → (s.queue q).cls = 2 ∨ (s.queue q).cls = 3 →
      (if (s.queue q).cls = 2 then 20000000 else 100000000) ≤ s.aon.clock - u.readAt →
      exec (.classPromotion q i) s = .next (s.modStep q i fun y => { y with promoted := true }))

/-- R176, R181, R182, R184, R192, R195, R197, R231, R238, R260, R274, R278. A step's life. The bytes of a descriptor, of device memory
or of the completion, are checked: one that passes waits for its launch with its record, one that fails ends with its status, and one that
could not be read ends too. A step that can be placed is launched on every core chosen for it at once, each tagged, scrubbed where it
served another context, and at its group's entry; one that cannot ends, is held or waits. A victim takes up its saved state again, and
the last core's report ends its step.
Where it rests on the model's own reading: log entries 10, 86 and 89. -/
def Obligations.StepsReadLaunchedAndEnded : Prop :=
  ∀ s : State,
    (∀ q s0 s1 x c f va ps, x = s.queue q → x.reading = true → s.supervisorRuns = true → c = s.queueCtag q →
      f = ((s.group q).map (·.fn)).getD 0 → va = x.ringVa + x.consumed % 2 ^ x.log2 * 128 →
      s0 = { s with host := { s.host with reads := s.host.reads.filter fun r => !(r.purpose == ReadPurpose.descriptor q) } } →
      s0.xlateNow dispUnit c va 128 1 = .ok ps → s1 = s0.afterNow dispUnit c ps →
      (∀ b d r, b.length = 128 → (partsHost ps = false → s1.partsPoison ps = none ∧ d = s1.readParts ps) →
        (partsHost ps = true → d = b) → r = s1.stepOf q x.consumed c f d →
        (s1.descStatus d r = none → ∃ t : State, exec (.descriptorReadComplete q (.ok b)) s = .next (t.mirrorOut q) ∧
          t.queue q = { x with consumed := x.consumed + 1, reading := false } ∧ (∀ k, k ≠ q → t.queue k = s.queue k) ∧
          t = { s1 with dq := { s.dq with queues := t.dq.queues, steps := s.dq.steps ++ [r] } }) ∧
        (∀ e, s1.descStatus d r = some e → e ≠ ST_ISOLATION →
          exec (.descriptorReadComplete q (.ok b)) s = .next ((s1.readStep r).endStep q x.consumed e)) ∧
        (s1.descStatus d r = some ST_ISOLATION → ∃ t : State, exec (.descriptorReadComplete q (.ok b)) s =
            .next ((t.cometF1 6 (q / 64) (some c) r.depQueue f 0xFFFF).endStep q x.consumed ST_ISOLATION) ∧
          t = (s1.readStep r).fltRecord f { (s1.readStep r).fltBlank with
            kind := 5, status := ST_ISOLATION, ctag := c, queue := q, stepIndex := x.consumed, agentKind := 9
            agent := s.cx.active, detail := r.depQueue, flags := 2 })) ∧
      (∀ k e, partsHost ps = true → exec (.descriptorReadComplete q (.failed k e)) s = .next (s1.descFault q x.consumed 3
        (hostDetail k e (s1.context (s1.queueCtag q)).homePort) ((ps.head?.map (·.ri)).getD 0) va)) ∧
      (∀ b a, b.length = 128 → partsHost ps = false → s1.partsPoison ps = some a → exec (.descriptorReadComplete q (.ok b)) s =
        .next ((s1.readFailed q x.consumed ST_ECC).cometF3 6 (q / 64) q a (q, x.consumed)))) ∧
    (∀ q i u, s.step? q i = some u → s.dispatching = true → s.awaits u = true →
      (∀ e, s.launchWay u = .ends e → exec (.stepLaunch q i) s = .next (s.endUnlaunched u e)) ∧
      (s.launchWay u = .hold → exec (.stepLaunch q i) s = .next ((s.modStep q i fun y => { y with cond := .held }).mirrorOut q)) ∧
      (s.launchWay u = .waits → exec (.stepLaunch q i) s = .next s) ∧
      (∀ p w a, s.launchWay u = .place p w a → s.chooseCores (s.takenAhead q i) u p = none → exec (.stepLaunch q i) s = .next s) ∧
      (∀ p w a cores, s.launchWay u = .place p w a → s.chooseCores (s.takenAhead q i) u p = some cores → s.slicesFree u p = true →
        s.combinersFree p cores = true → (∀ n, n ∈ cores → (s.core n).power = .active) →
        ∃ t : State, exec (.stepLaunch q i) s = .next (t.mirrorOut q) ∧
          t.step? q i = some { u with
            cond := .running, cores := cores, epochW := w, epochA := a, libBank := s.fleet.bankInForce
            bank := if (s.queue u.queue).cls < 2 then 1 else 0, launchSeq := s.dq.launches, launchTime := s.aon.timebase
            promoted := false } ∧
          (∀ k j, k ≠ q ∨ j ≠ i → t.step? k j = s.step? k j) ∧
          (∀ n, n ∈ cores → (t.core n).step = some (q, i) ∧ (t.core n).tag = some u.ctag ∧ (t.core n).power = .active ∧
            (t.core n).rel = (cores.filter fun m => m / 64 == n / 64).findIdx (· == n) ∧
            (t.core n).pc = ((p.groups[p.groupOf (n / 64) (t.core n).rel]?).map (·.entry)).getD 0 ∧ (t.core n).loops = [] ∧
            (t.core n).ended = false ∧ (t.core n).gather = [] ∧
            (s.mem.wf = true → (s.core n).tag ≠ some u.ctag → ∀ o, o < mib2 → t.mem.read (scratchPa n o) = 0)) ∧
          (∀ n, n ∉ cores → t.core n = s.core n) ∧
          t = { s with
            drawn := t.drawn, mem := t.mem, fleet := t.fleet
            dq := { s.dq with
              steps := t.dq.steps, launches := s.dq.launches + 1
              lastServed := tabSet s.dq.lastServed (s.stepClass u) u.ctag
              plans := s.dq.plans.filter fun x => !(x.1 == (q, i)) } })) ∧
    (∀ q i u n sv, s.step? q i = some u → s.dispatching = true → u.cond = .preempted → u.ended = none → s.preempterGone u = true →
      u.coresHeld = false → u.cores = [n] → u.saved = [(n, sv)] → sv.dropped = [] → (s.core n).step = none →
      ∃ t : State, exec (.victimRelaunch q i) s = .next (t.mirrorOut q) ∧
        t.core n = { (s.core n).letGo with
          power := .active, tag := some u.ctag, lastIssue := s.aon.clock, regs := sv.regs, pc := sv.pc, loops := sv.loops
          step := some (q, i), ended := sv.ended, mark := sv.mark, rel := sv.rel, group := sv.group, recInvalid := sv.recInvalid
          recSched := sv.recSched, recTile := sv.recTile } ∧
        t.step? q i = some { u with cond := .running, saved := [], coresHeld := false, preemptedBy := none } ∧
        (∀ k j, k ≠ q ∨ j ≠ i → t.step? k j = s.step? k j) ∧ (t.die (n / 64)).power = .active ∧
        (∀ m, m ≠ n → t.core m = s.core m) ∧ (∀ d, d ≠ n / 64 → t.die d = s.die d) ∧
        (s.mem.wf = true → ∀ o b, sv.extents = [(o, b)] → b.length ≤ mib2 →
          ∀ j, j < b.length → t.mem.read (scratchPa n (o + j)) = b.getD j 0) ∧
        (sv.extents = [] → (s.core n).tag = some u.ctag → t.mem = s.mem) ∧
        t = { s with mem := t.mem, fleet := t.fleet, dq := { s.dq with steps := t.dq.steps } }) ∧
    (∀ n q i u, (s.core n).ended = true → (s.core n).reported = false → (s.core n).outstanding = 0 → (s.core n).dropped = [] →
      (s.core n).gather = [] → (s.core n).step = some (q, i) → s.step? q i = some u → u.ended = none →
      (u.cond = .running ∨ u.cond = .preempting → (∀ m, m ∈ u.cores → m ≠ n → (s.core m).step = some (q, i) ∧ (s.core m).reported = true) →
        exec (.coreEndReport n) s = .next ((s.setCore n fun c => { c with reported := true }).endStep q i ST_OK) ∧
        (s.dq.steps = [u] → u.cores = [n] → i = (s.queue q).completed →
          u.writeBack = false ∨ (s.ctx.invalidating.contains u.ctag = false ∧
            ∀ o g, s.nowParts dispUnit u.ctag (s.endVa u) 32 2 (s.context u.ctag) ≠ .ask o g) →
          ∃ t, exec (.coreEndReport n) s = .next t ∧ t.dq.steps = [] ∧ (t.queue q).completed = (s.queue q).completed + 1 ∧
            (t.core n).step = none ∧ (t.core n).regs = zeroRegs ∧ (∀ k, k ≠ q → t.queue k = s.queue k))) ∧
      (∀ m, m ∈ u.cores → m ≠ n → (s.core m).reported = false →
        exec (.coreEndReport n) s = .next (s.setCore n fun c => { c with reported := true })))

/-! ## Translation and host reads -/

/-- R134, R219–R223, R225, R246, R279, R571. Walks, translations and completions. A walk that finds a range fills its unit's cache, one that
finds none faults what missed, and a held one waits. A translation is kept among the 4,096 of its port or refused, and lets go on what
waited for it; an invalidation drops its pages and is answered once no translated request is outstanding. A read's completion brings its
bytes to what asked for them, the Dispatcher and the Supervisor once they run; a failed one, or 500 µs without one, fails the access.
The oldest held fault record is written once the ring can take it, and the first that waits is held in its place; and a fetched bundle
reaches the fetch buffers of its group.
Where it rests on the model's own reading: log entry 12. -/
def Obligations.WalksAndCompletions : Prop :=
  ∀ s : State,
    (∀ u w s0, s.ctx.walks = [w] → w.unit = u → s0 = { s with ctx := { s.ctx with walks := [] } } →
      (w.held = true → exec (.rangeWalkComplete u) s = .next s) ∧
      (∀ e, w.held = false → s.tableWalk w.ctag w.va = some e → ∃ t, exec (.rangeWalkComplete u) s = .next t ∧
        (tabGet [] t.ctx.caches u).head? = some ⟨w.ctag, e.1, e.2⟩ ∧
        (∀ k, k ≠ u → tabGet [] t.ctx.caches k = tabGet [] s.ctx.caches k) ∧
        t = { s with ctx := { s.ctx with walks := [], caches := t.ctx.caches } }) ∧
      (w.held = false → s.tableWalk w.ctag w.va = none →
        (w.step = none → exec (.rangeWalkComplete u) s = .next s0) ∧
        (∀ q i, w.step = some (q, i) → w.unit ≠ dispUnit ∨ w.agentKind ≠ 9 → exec (.rangeWalkComplete u) s =
          .next (s0.faultStep q i 1 w.access 0 0xFFFFFFFF w.va w.agentKind w.agent)) ∧
        (∀ q i, w.step = some (q, i) → w.unit = dispUnit → w.agentKind = 9 → exec (.rangeWalkComplete u) s =
          .next (s0.descFault q i 1 0 0xFFFFFFFF w.va)))) ∧
    (∀ p k g st x, s.host.atsAsked.contains (p, k, g) = true → ∃ t : State,
      exec (.atsTranslationCompletion p k g st x) s = .next (t.translated k) ∧
      t.host.atsAsked = s.host.atsAsked.filter (fun e => !(e == (p, k, g))) ∧
      (st = 0 → t.host.atc.head? = some ⟨p, k, g, x⟩ ∧ (t.host.atc.filter fun e => e.port == p).length ≤ 4096 ∧
        (∀ e, e.port ≠ p → (e ∈ t.host.atc ↔ e ∈ s.host.atc)) ∧ t.host.atsRefused = s.host.atsRefused) ∧
      (st ≠ 0 → t.host.atc = s.host.atc ∧ t.host.atsRefused = s.host.atsRefused ++ [((p, k, g), st)]) ∧
      t = { s with host := { s.host with atsAsked := t.host.atsAsked, atc := t.host.atc, atsRefused := t.host.atsRefused } }) ∧
    (∀ p k g n h, (s.port p).up = true → (∀ e, e ∈ s.host.atsInval → e ≠ p) → h = { s.host with
        atc := s.host.atc.filter fun e => !(e.port == p && e.pasid == k && decide (g ≤ e.page ∧ e.page < g + n)) } →
      (s.atsBusy p = false → exec (.atsInvalidationRequest p k g n) s = .next { s with host := h, out := .atsDone p :: s.out }) ∧
      (s.atsBusy p = true →
        exec (.atsInvalidationRequest p k g n) s = .next { s with host := { h with atsInval := s.host.atsInval ++ [p] } })) ∧
    (∀ (id : Nat) (r : HostRead) (s0 s1 : State), s.outstanding id = some r →
      s0 = { s with host := { s.host with reads := s.host.reads.filter fun x => !r.sameAccess x } } →
      (∀ b, b.length = r.length → s1 = { s with host := { s.host with
          reads := s.host.reads.map fun x => if x.id = r.id then { x with data := some b } else x } } →
        (∀ n k, r.purpose = .load n ∨ r.purpose = .fetch n k →
          exec (.hostReadCompletion id 0 false b) s = .next (s1.atsSettle r.port)) ∧
        (∀ d i, r.purpose = .engine d i → exec (.hostReadCompletion id 0 false b) s = .next (s1.atsSettle r.port)) ∧
        (∀ q, r.purpose = .descriptor q → s.supervisorRuns = true →
          (readsData (s1.host.reads.filter r.sameAccess) = none →
            exec (.hostReadCompletion id 0 false b) s = .next (s1.atsSettle r.port)) ∧
          (∀ a, readsData (s1.host.reads.filter r.sameAccess) = some a →
            exec (.hostReadCompletion id 0 false b) s = .next ((s1.descDone q (.ok a)).atsSettle r.port))) ∧
        (∀ m k, r.purpose = .shard m k → s.supervisorRuns = true →
          exec (.hostReadCompletion id 0 false b) s = .next ((s0.shardRead m k b).atsSettle r.port))) ∧
      (∀ st po b k e, (po = true ∧ k = 3 ∧ e = st) ∨ (po = false ∧ st = 1 ∧ k = 1 ∧ e = 1) ∨ (po = false ∧ st = 4 ∧ k = 2 ∧ e = 4) →
        (∀ n, r.purpose = .load n → (s.core n).step = none →
          exec (.hostReadCompletion id st po b) s = .next (s0.atsSettle r.port)) ∧
        (∀ n q i, r.purpose = .load n → (s.core n).step = some (q, i) → exec (.hostReadCompletion id st po b) s =
          .next ((s0.failAccess q i 3 1 (hostDetail k e r.port) r.ri r.va 1 n).atsSettle r.port)) ∧
        (∀ q, r.purpose = .descriptor q → s.supervisorRuns = true → exec (.hostReadCompletion id st po b) s =
          .next ((s0.descFault q (s.queue q).consumed 3 (hostDetail k e r.port) r.ri r.va).atsSettle r.port))) ∧
      (∀ n q i, r.purpose = .load n → (s.core n).step = some (q, i) → 500000 ≤ s.aon.clock - r.issued →
        exec (.hostCompletionTimeout id) s =
          .next ((s0.failAccess q i 3 1 (hostDetail 4 0 r.port) r.ri r.va 1 n).atsSettle r.port)) ∧
      (s.aon.clock - r.issued < 500000 → exec (.hostCompletionTimeout id) s = .next s) ∧
      (∀ q st po b, r.purpose = .descriptor q → s.supervisorRuns = false → exec (.hostReadCompletion id st po b) s = .next s ∧
        exec (.hostCompletionTimeout id) s = .next s)) ∧
    (∀ f r rest, (s.fn f).held = r :: rest → (s.fltReady f = false → exec (.heldRecordFlush f) s = .next s) ∧
      (s.fltReady f = true → ∃ t, exec (.heldRecordFlush f) s = .next t ∧
        ((s.fn f).beyond = [] → (t.fn f).held = rest ∧ (t.fn f).beyond = []) ∧
        (∀ b l, (s.fn f).beyond = b :: l →
          (t.fn f).held = rest ++ [{ b with flags := b.flags / 16 * 16 + 8 + b.flags % 8 }] ∧ (t.fn f).beyond = l) ∧
        (t.fn f).fltProducer = ((s.fn f).fltProducer + 1) % 2 ^ 32 ∧
        Output.hostWrite ((s.fnPort f).getD 0) f none ((s.fn f).fltBase + (s.fn f).fltProducer % 2 ^ (s.fn f).fltLog2 * 64)
          (faultBytes { r with sequence := (s.fn f).fltProducer }) 0 ∈ t.out ∧
        (∀ g, g ≠ f → t.fn g = s.fn g) ∧ t = { s with host := t.host, out := t.out })) ∧
    (∀ n pc t a, s.mayIssue n = true → (s.core n).fetchMiss = some pc → s.coreStep? n = some t →
      a = s.readVa (quadUnit n) t.ctag (((s.programOf t).map (·.codeVa)).getD 0 + 32 * pc) 32 3 (.fetch n pc) (some (t.queue, t.index)) 1
        n →
      (∀ u b, a = .bytes u b → u.fleet = s.fleet → ∃ v, exec (.fetchComplete n) s = .next v ∧
        (∀ m, m ∈ s.fetchers n → tabGet? (v.core m).fetchBuf pc = some (leNat b) ∧ (v.core m).regs = (s.core m).regs ∧
          (v.core m).pc = (s.core m).pc) ∧
        (v.core n).fetchMiss = none ∧ (∀ m, m ∉ s.fetchers n → v.core m = s.core m) ∧
        v = { u with
          host := { u.host with reads := u.host.reads.filter fun r => !(r.purpose == ReadPurpose.fetch n pc) }, fleet := v.fleet }) ∧
      (∀ u, a = .stall u → exec (.fetchComplete n) s = .next u) ∧
      (∀ k d r va, a = .fault k d r va → exec (.fetchComplete n) s =
        .next ((s.dropReads (.fetch n pc)).failAccess t.queue t.index k 3 d r va 1 n)) ∧
      (∀ pa, a = .poison pa → exec (.fetchComplete n) s =
        .next ((s.cometF3 4 n n pa (t.queue, t.index)).endStep t.queue t.index ST_ECC)))

/-! ## The control slot of a core -/

/-- R246, R249, R250. ALU, LI, CMP and RDID: the results of the thirteen functions, a register written and nothing else, and of RDID
the value that its field names; a shift by 64 or more, to which the spec gives no result, writes a free value (log entry 17). -/
def Obligations.ControlArithmetic : Prop :=
  (∀ (a b : Nat), a < 2 ^ 64 → b < 2 ^ 64 →
    aluValue 0 a b = some (BitVec.ofNat 64 a + BitVec.ofNat 64 b).toNat ∧ aluValue 1 a b = some (BitVec.ofNat 64 a - BitVec.ofNat 64 b).toNat ∧
    aluValue 2 a b = some (BitVec.ofNat 64 a &&& BitVec.ofNat 64 b).toNat ∧ aluValue 3 a b = some (BitVec.ofNat 64 a ||| BitVec.ofNat 64 b).toNat ∧
    aluValue 4 a b = some (BitVec.ofNat 64 a ^^^ BitVec.ofNat 64 b).toNat ∧
    (b < 64 → aluValue 5 a b = some (BitVec.ofNat 64 a <<< b).toNat ∧ aluValue 6 a b = some (BitVec.ofNat 64 a >>> b).toNat ∧
      aluValue 7 a b = some ((BitVec.ofNat 64 a).sshiftRight b).toNat) ∧
    aluValue 8 a b = some (BitVec.ofNat 64 a * BitVec.ofNat 64 b).toNat ∧
    aluValue 9 a b = some (if (BitVec.ofNat 64 a).toInt ≤ (BitVec.ofNat 64 b).toInt then a else b) ∧
    aluValue 10 a b = some (if (BitVec.ofNat 64 a).toInt ≤ (BitVec.ofNat 64 b).toInt then b else a) ∧
    aluValue 11 a b = some (min a b) ∧ aluValue 12 a b = some (max a b)) ∧
  ∀ (s : State) (c : SlotCtx) (b : Nat),
    (∀ fn dst x y u imm v, s.slotReady c (aluKey fn dst x y u imm) b →
      aluValue fn ((s.srcOf c.core).x? x) (operand (s.srcOf c.core) y u (ofSigned 64 imm)) = some v →
      ∃ t, exec (.alu c fn dst x y u imm) s = .next t ∧ s.slotX t c.core dst v) ∧
    (∀ fn dst x y u imm, s.slotReady c (aluKey fn dst x y u imm) b →
      aluValue fn ((s.srcOf c.core).x? x) (operand (s.srcOf c.core) y u (ofSigned 64 imm)) = none →
      ∃ t, exec (.alu c fn dst x y u imm) s = .next t ∧ { s with drawn := s.drawn + 1 }.slotX t c.core dst (Config.freeValue s.drawn)) ∧
    (∀ dst p k imm, s.slotReady c (liKey dst p k imm) b → p < 4 → imm < 65536 → ∃ t w, exec (.li c dst p k imm) s = .next t ∧
      s.slotX t c.core dst w ∧ bits w (16 * p) 16 = imm ∧
      (∀ q, q < 4 → q ≠ p → bits w (16 * q) 16 = if k = true then bits ((s.srcOf c.core).x? dst) (16 * q) 16 else 0) ∧ w < 2 ^ 64) ∧
    (∀ pd cond x y u imm, s.slotReady c (cmpKey pd cond x y u imm) b → ∃ t, exec (.cmp c pd cond x y u imm) s = .next t ∧
      s.coreOnly t c.core ∧ (s.core c.core).sameButRegs (t.core c.core) ∧
      (pd ≠ 0 → (t.core c.core).regs.p? pd = cmpHolds cond ((s.srcOf c.core).x? x) (operand (s.srcOf c.core) y u imm)) ∧
      (∀ j, j ≠ pd ∨ j = 0 → (t.core c.core).regs.p? j = (s.core c.core).regs.p? j) ∧
      (t.core c.core).regs.x = (s.core c.core).regs.x ∧ (t.core c.core).regs.v = (s.core c.core).regs.v) ∧
    (∀ dst w k u, s.slotReady c (rdidKey dst w k) b → s.coreStep? c.core = some u → ∃ t v, exec (.rdid c dst w k) s = .next t ∧
      s.slotX t c.core dst v ∧ (w = 0 → v = c.core) ∧ (w = 1 → v = (s.core c.core).group) ∧ (w = 2 → v = (s.core c.core).rel) ∧
      (w = 3 → v = c.core / 64) ∧ (w = 4 → v = s.fab.device) ∧ (w = 5 → v = u.ctag) ∧ (w = 6 → v = u.index) ∧ (w = 7 → v = s.aon.timebase) ∧
      (w = 8 → v = fieldAt u.inlineArgs (8 * k) 8) ∧ (w = 9 → v = u.argsVa) ∧ (w = 10 → v = u.saveVa))

/-- R49, R195, R234, R249, R274, R275. BR, LOOP, END and SAFEPT: the next bundle is the branch target, the loop's first bundle again or
the one after. An ended part has flushed its gather buffer, and under a stop order its step settles; a safe point clears the faults of its
step, and there a core halts in DRAIN and saves its state under a stop order.
Where it rests on the model's own reading: log entry 58. -/
def Obligations.ControlFlow : Prop :=
  ∀ (s : State) (c : SlotCtx) (b : Nat),
    (∀ l x i o, s.slotReady c (brKey l x i o) b → ∃ t, exec (.br c l x i o) s = .next t ∧ s.slotX t c.core l ((s.core c.core).pc + 1) ∧
      (t.core c.core).pc = (if i = true then (s.srcOf c.core).x? x else ofSigned 64 (((s.core c.core).pc : Int) + o)) ∧
      (t.core c.core).loops = (s.core c.core).loops) ∧
    (∀ l x u e k, s.slotReady c (loopKey l x u e k) b → (s.core c.core).loops = [] → (s.core c.core).branch = none → 1 ≤ e →
      ∃ t, exec (.loop c l x u e k) s = .next t ∧ s.coreOnly t c.core ∧ (s.core c.core).sameButRegs (t.core c.core) ∧
        (t.core c.core).regs = (s.core c.core).regs ∧
        (operand (s.srcOf c.core) x u k = 0 → (t.core c.core).pc = (s.core c.core).pc + e + 1 ∧ (t.core c.core).loops = []) ∧
        (operand (s.srcOf c.core) x u k ≠ 0 → (t.core c.core).pc = (s.core c.core).pc + 1 ∧
          (t.core c.core).loops = [(l, ⟨(s.core c.core).pc + 1, (s.core c.core).pc + e, operand (s.srcOf c.core) x u k⟩)])) ∧
    (∀ (x : CoreSt) k l, x.loops = [(k, l)] → x.branch = none → l.stop = x.pc →
      (1 < l.left → x.endBundle.pc = l.start ∧ x.endBundle.loops = [(k, { l with left := l.left - 1 })]) ∧
      (l.left ≤ 1 → x.endBundle.pc = x.pc + 1 ∧ x.endBundle.loops = [])) ∧
    (∀ u, s.slotReady c endPartKey b → s.coreStep? c.core = some u → ∃ t : State,
      exec (.endPart c) s = .next (if (s.core c.core).stopOrdered = true then t.settleStep u.queue u.index else t) ∧
      ({ s.core c.core with ended := true, gather := [] } : CoreSt).sameButRegs (t.core c.core) ∧
      (t.core c.core).regs = (s.core c.core).regs ∧ (∀ m, m ≠ c.core → t.core m = s.core m) ∧
      t = { s with mem := (s.flushGather c.core).mem, fleet := { s.fleet with cores := t.fleet.cores } }) ∧
    (∀ l u, s.slotReady c (safeptKey l) b → s.coreStep? c.core = some u → ∃ t : State,
      exec (.safept c l) s = .next (if s.pp.state = .drain then t.setCore c.core fun y => { y with halted := true }
        else if (s.core c.core).stopOrdered = true then (t.saveCore u.queue u.index c.core).settleStep u.queue u.index else t) ∧
      ({ s.core c.core with lastSafept := some l } : CoreSt).sameButRegs (t.core c.core) ∧
      (t.core c.core).regs = (s.core c.core).regs ∧ t.step? u.queue u.index = some { u with faults := [] } ∧
      (∀ k j, k ≠ u.queue ∨ j ≠ u.index → t.step? k j = s.step? k j) ∧ (∀ m, m ≠ c.core → t.core m = s.core m) ∧
      t = { s with fleet := { s.fleet with cores := t.fleet.cores }, dq := { s.dq with steps := t.dq.steps } })

/-! ## Sync objects and barriers -/

/-- R244, R246, R257, R261, R262, R265, R271. The sync operations of the control slot, and what holds a slot back. WAIT takes from an own
object, SETC sets one of an own counter, SIGNAL and ARRIVE empty the gather buffers and send a signal or an arrival with its sender, and
ENQ puts a descriptor from the own scratchpad into the queue of its engine against a credit. An operation whose predicate is false has no
effect, and a bundle is held back at a WAIT that is not satisfied and at an ENQ without a credit.
Where it rests on the model's own reading: log entries 16 and 52. -/
def Obligations.SyncSlots : Prop :=
  ∀ (s : State) (c : SlotCtx) (b : Nat),
    ((s.core c.core).src.goes c.pred c.pneg = false →
      (∀ d p k i, s.slotIssues c (liKey d p k i) b →
        exec (.li c d p k i) s = .next ((s.inIssue c.core).retireSlot c.core 3 c.more)) ∧
      (∀ x r sp z o, s.slotIssues c (stsKey x r sp z o) b →
        exec (.sts c x r sp z o) s = .next ((s.inIssue c.core).retireSlot c.core 0 c.more)) ∧
      (∀ a n, s.slotIssues c (mzeroKey a n) b → exec (.mzero c a n) s = .next ((s.inIssue c.core).retireSlot c.core 1 c.more)) ∧
      (∀ d v, s.slotIssues c (vmovKey d v) b → exec (.vmov c d v) s = .next ((s.inIssue c.core).retireSlot c.core 2 c.more))) ∧
    (∀ h m x u i, s.slotTurn c (waitKey h m x u i) b → (s.core c.core).issue = none → s.matrixHolds c.core b = false →
      (s.core c.core).regs.goes c.pred c.pneg = true → i < 2 ^ 32 → s.waitMet c.core h m (operand (s.core c.core).regs x u i) = false →
      exec (.wait c h m x u i) s = .next (s.setCore c.core fun y => { y with waiting := true })) ∧
    (∀ e i x l, s.slotTurn c (enqKey e i x l) b → (s.core c.core).issue = none → s.matrixHolds c.core b = false →
      (s.core c.core).regs.goes c.pred c.pneg = true → 4 ≤ tabGet 0 (s.core c.core).credits (creditKey e i) →
      exec (.enq c e i x l) s = .next (s.setCore c.core fun y => { y with waiting := false })) ∧
    (∀ h m x u i, s.slotReady c (waitKey h m x u i) b → ∃ t, exec (.wait c h m x u i) s = .next t ∧ s.coreOnly t c.core ∧
      ({ s.core c.core with sync := (t.core c.core).sync } : CoreSt).sameButRegs (t.core c.core) ∧
      (t.core c.core).regs = (s.core c.core).regs ∧ (t.core c.core).waiting = false ∧
      (m ≠ 1 → (t.core c.core).sync = (s.core c.core).sync) ∧
      (m = 1 → t.syncObj c.core (s.objOf c.core h) = { s.syncObj c.core (s.objOf c.core h) with
          count := ((s.syncObj c.core (s.objOf c.core h)).count + 2 ^ 32 - operand (s.srcOf c.core) x u i % 2 ^ 32) % 2 ^ 32 } ∧
        ∀ o, o ≠ s.objOf c.core h → t.syncObj c.core o = s.syncObj c.core o)) ∧
    (∀ h x u i o, s.slotReady c (setcKey h x u i) b → o = s.syncObj c.core (s.objOf c.core h) → ∃ t,
      exec (.setc c h x u i) s = .next t ∧ s.coreOnly t c.core ∧
      ({ s.core c.core with sync := (t.core c.core).sync } : CoreSt).sameButRegs (t.core c.core) ∧
      (t.core c.core).regs = (s.core c.core).regs ∧
      (o.owner.isSome = true → o.barrier = false →
        t.syncObj c.core (s.objOf c.core h) = { o with count := operand (s.srcOf c.core) x u i % 2 ^ 32 }) ∧
      (o.owner = none ∨ o.barrier = true → (t.core c.core).sync = (s.core c.core).sync) ∧
      (∀ k, k ≠ s.objOf c.core h → t.syncObj c.core k = s.syncObj c.core k)) ∧
    (∀ h k w x v u o m, s.slotReady c (signalKey h k w x v) b → s.coreStep? c.core = some u →
      o = (if w = 0 then podObject s.fab.device c.core (16 * ((u.bank + k) % 2) + h)
        else if w = 1 then podObject s.fab.device ((s.srcOf c.core).x? x) (16 * ((u.bank + k) % 2) + h)
        else podObject ((s.srcOf c.core).x? x / 512) ((s.srcOf c.core).x? x % 512) (16 * ((u.bank + k) % 2) + h)) →
      m = ⟨s.fab.device, u.fn, u.ctag, u.queue, u.index, c.core, o, v⟩ → ∃ t : State,
        exec (.signal c h k w x v) s = .next (if o / 16384 = s.fab.device ∨ 2 ^ 20 ≤ o
          then { t with fleet := { t.fleet with signals := s.fleet.signals ++ [m] } } else t.send (o / 16384) 2 (.signal m)) ∧
        (∀ j, (t.core j).gather = []) ∧ (t.core c.core).regs = (s.core c.core).regs ∧ (t.core c.core).sync = (s.core c.core).sync ∧
        (∀ j, j ≠ c.core → t.core j = { s.core j with gather := [] }) ∧
        t = { s with mem := (s.flushGather c.core).settleWrites.mem, fleet := { s.fleet with cores := t.fleet.cores } }) ∧
    (∀ h u o y t, s.slotReady c (arriveKey h) b → s.coreStep? c.core = some u → o = s.objOf c.core h → y = s.syncObj c.core o →
      t = ((s.inIssue c.core).flushGather c.core).settleWrites →
      (y.barrier = false → exec (.arrive c h) s = .next (t.retireSlot c.core 3 c.more)) ∧
      (y.barrier = true → y.arrived = true → exec (.arrive c h) s =
        .next ((t.cometF0 4 c.core (podObject s.fab.device c.core o) 0).retireSlot c.core 3 c.more)) ∧
      (∀ r, y.barrier = true → y.arrived = false → s.barrierOf u h = some r → ∃ v, exec (.arrive c h) s = .next v ∧
        v.syncObj c.core o = { y with arrived := true, recSense := y.sense } ∧
        (∀ k, k ≠ o → v.syncObj c.core k = s.syncObj c.core k) ∧ (v.core c.core).regs = (s.core c.core).regs ∧
        (∀ j, (v.core j).gather = []) ∧ (∀ j, j ≠ c.core → v.core j = { s.core j with gather := [] }) ∧
        v = { s with
          mem := (s.flushGather c.core).settleWrites.mem
          fleet := { s.fleet with
            cores := v.fleet.cores
            arrivals := s.fleet.arrivals ++ [⟨u.fn, u.ctag, if r.scope = 3 then u.argWord r.keyWord else 0, r.barrier, b2n y.sense, 0,
              c.core / 64, c.core⟩] } })) ∧
    (∀ e i x l u g, s.slotReady c (enqKey e i x l) b → s.coreStep? c.core = some u → (s.die (c.core / 64)).retired = false →
      g = s.engine (c.core / 64) (engineIndex e i) → g.retired = false → ∃ t d, exec (.enq c e i x l) s = .next t ∧
        d.engine = engineIndex e i ∧ d.core = c.core ∧ d.queue = u.queue ∧ d.step = u.index ∧ d.ctag = u.ctag ∧ d.bank = u.bank ∧
        d.bytes.length = (if l = 0 then 64 else 128) ∧
        ((s.srcOf c.core).x? x % 64 = 0 → d.bytes = s.ownRead c.core ((s.srcOf c.core).x? x) (if l = 0 then 64 else 128)) ∧
        (g.inHand = none → (t.engine (c.core / 64) (engineIndex e i)).queue =
          g.queue.filter (fun y => decide (d.bank ≤ y.bank)) ++ [d] ++ g.queue.filter fun y => decide (y.bank < d.bank)) ∧
        (∀ w r, g.inHand = some w → g.queue = w :: r → (t.engine (c.core / 64) (engineIndex e i)).queue =
          w :: r.filter (fun y => decide (d.bank ≤ y.bank)) ++ [d] ++ r.filter fun y => decide (y.bank < d.bank)) ∧
        (∀ k j, k ≠ c.core / 64 ∨ j ≠ engineIndex e i → t.engine k j = s.engine k j) ∧
        (∀ k, k ≠ c.core / 64 → t.die k = s.die k) ∧
        tabGet 0 (t.core c.core).credits (creditKey e i) = tabGet 0 (s.core c.core).credits (creditKey e i) + 1 ∧
        (t.core c.core).outstanding = (s.core c.core).outstanding + 1 ∧ (t.core c.core).regs = (s.core c.core).regs ∧
        (∀ m, m ≠ c.core → t.core m = s.core m) ∧
        t = { s with drawn := t.drawn, aon := t.aon, fleet := { s.fleet with cores := t.fleet.cores, dies := t.fleet.dies } })

/-- R21, R256, R261, R263, R265–R267. In flight. A signal adds to an object allocated to its sender's context and is blocked elsewhere, and
two of one sender to one core keep their order. The last arrival of a die releases a die's barrier or is reported to the root die, that of
the last die releases the device or is reported to the pod root, which releases every member; the others are counted. A release inverts
the senses of its participants on its die, and a gather entry is written to its bank.
Where it rests on the model's own reading: log entry 18. -/
def Obligations.SignalsAndBarriers : Prop :=
  ∀ s : State,
    (∀ m n o x, s.fleet.signals = [m] → n = m.object % 16384 / 32 → o = m.object % 32 → m.object < 2 ^ 20 →
      tabGet? s.ctx.ctxs m.ctag = some x → x.owner = m.function → (s.syncObj n o).owner = some m.ctag →
      ∃ t, exec (.signalApply 0) s = .next t ∧
        t.syncObj n o = { s.syncObj n o with count := ((s.syncObj n o).count + m.value) % 2 ^ 32 } ∧
        (∀ k, k ≠ o → t.syncObj n k = s.syncObj n k) ∧ t.core n = { s.core n with sync := (t.core n).sync } ∧
        (∀ k, k ≠ n → t.core k = s.core k) ∧
        t = { s with fleet := { s.fleet with signals := [], cores := t.fleet.cores } }) ∧
    (∀ m n o w t, s.fleet.signals = [m] → n = m.object % 16384 / 32 → o = s.syncObj n (m.object % 32) → m.object < 2 ^ 20 →
      o.owner ≠ some m.ctag ∨ (tabGet? s.ctx.ctxs m.ctag).map (·.owner) ≠ some m.function →
      w = ((o.owner.bind (tabGet? s.ctx.ctxs)).map (·.owner)).getD 0xFFFF →
      t = (({ s with fleet := { s.fleet with signals := [] } }.setDie (n / 64) fun d => { d with blocked := d.blocked + 1 }).cometF1 4 n
        (some m.ctag) m.object m.function w) →
      (m.device = s.fab.device → exec (.signalApply 0) s = .next (t.takeBlocked m.function m.ctag m.queue m.step
        (signalAgent m.sender).1 (signalAgent m.sender).2 m.object)) ∧
      (m.device ≠ s.fab.device → exec (.signalApply 0) s = .next (t.send m.device 0 (.blocked m.function m.ctag m.queue m.step
        (signalAgent m.sender).1 (signalAgent m.sender).2 m.object)))) ∧
    (∀ a m, s.fleet.signals = [a, m] → sameSignalWay a m = true → exec (.signalApply 1) s = .next s) ∧
    (∀ m e u y, s.fleet.arrivals = [m] → s.combinerStep e = some u → s.combinerBarrier e = some y →
      (m.level = 0 → s.matchEntry m.die m = some e → ∃ t : State, t.matchEntry m.die m = some { e with cores := e.cores + 1 } ∧
        (∀ d, d ≠ m.die → t.die d = s.die d) ∧
        t = { s with fleet := { s.fleet with arrivals := [], dies := t.fleet.dies } } ∧
        (e.cores + 1 < u.coresOn m.die → exec (.barrierArrival 0) s = .next t) ∧
        (e.cores + 1 = u.coresOn m.die → y.scope = 1 → exec (.barrierArrival 0) s =
          .next { t with fleet := { t.fleet with releases := s.fleet.releases ++ [(m.die, m)] } }) ∧
        (e.cores + 1 = u.coresOn m.die → y.scope ≠ 1 → exec (.barrierArrival 0) s =
          .next { t with fleet := { t.fleet with arrivals := [{ m with level := 1, die := rootDie u, source := m.die }] } })) ∧
      (m.level = 1 → s.matchEntry m.die m = some e → ∃ t : State, t.matchEntry m.die m = some { e with dies := e.dies + 1 } ∧
        (∀ d, d ≠ m.die → t.die d = s.die d) ∧
        t = { s with fleet := { s.fleet with arrivals := [], dies := t.fleet.dies } } ∧
        (e.dies + 1 < (coreDies u.cores).length → exec (.barrierArrival 0) s = .next t) ∧
        (e.dies + 1 = (coreDies u.cores).length → y.scope ≠ 3 → exec (.barrierArrival 0) s = .next { t with
          fleet := { t.fleet with releases := s.fleet.releases ++ (coreDies u.cores).map fun d => (d, m) } }) ∧
        (e.dies + 1 = (coreDies u.cores).length → y.scope = 3 → ∀ r, (maskMembers y.mask).headD s.fab.device = r →
          (r = s.fab.device → exec (.barrierArrival 0) s = .next { t with
            fleet := { t.fleet with arrivals := [{ m with level := 2, source := r, die := rootDie u }] } }) ∧
          (r ≠ s.fab.device → exec (.barrierArrival 0) s =
            .next (t.send r 2 (.barrierArrival { m with level := 2, source := s.fab.device }))))) ∧
      (m.level = 2 → s.podDie m = some m.die → s.matchEntry m.die m = some e → ∃ t : State,
        t.matchEntry m.die m = some { e with devices := e.devices + 1 } ∧ (∀ d, d ≠ m.die → t.die d = s.die d) ∧
        t = { s with fleet := { s.fleet with arrivals := [], dies := t.fleet.dies } } ∧
        (e.devices + 1 < popCount 64 y.mask → exec (.barrierArrival 0) s = .next t) ∧
        (e.devices + 1 = popCount 64 y.mask → exec (.barrierArrival 0) s = .next (forEach (maskMembers y.mask) t fun t d =>
          if d = t.fab.device then t.release m (coreDies u.cores) else t.send d 2 (.barrierRelease m))))) ∧
    (∀ m, s.fleet.arrivals = [m] → m.level = 2 → s.podDie m = none → s.matchEntry 8 m = none → s.fleet.heldArrivals.length < 16 →
      exec (.barrierArrival 0) s =
        .next { s with fleet := { s.fleet with arrivals := [], heldArrivals := s.fleet.heldArrivals ++ [m] } }) ∧
    (∀ d m e u y, s.fleet.releases = [(d, m)] → s.matchEntry d m = some e → s.combinerStep e = some u → s.combinerBarrier e = some y →
      u.cores.Nodup → ∃ t, exec (.barrierReleaseReceive d m) s = .next t ∧
        (∀ n, n ∈ u.cores → n / 64 = d → t.syncObj n (16 * u.bank + y.handle) = { s.syncObj n (16 * u.bank + y.handle) with
            sense := !(s.syncObj n (16 * u.bank + y.handle)).sense, arrived := false } ∧
          (∀ o, o ≠ 16 * u.bank + y.handle → t.syncObj n o = s.syncObj n o) ∧ t.core n = { s.core n with sync := (t.core n).sync }) ∧
        (∀ n, n ∉ u.cores ∨ n / 64 ≠ d → t.core n = s.core n) ∧
        ({ e with phase := 1 - e.phase, cores := 0, dies := 0, devices := 0 } ∈ (t.die d).combiners) ∧
        (∀ k, k ≠ d → t.die k = s.die k) ∧
        t = { s with fleet := { s.fleet with releases := [], cores := t.fleet.cores, dies := t.fleet.dies } }) ∧
    (∀ n e, (s.core n).gather = [e] → ∃ t, exec (.gatherBufferWriteback n e.line) s = .next t ∧
      t.core n = { s.core n with gather := [] } ∧ (∀ k, k ≠ n → t.core k = s.core k) ∧
      (s.mem.wf = true → ∀ i v, e.bytes = [(i, v)] → t.mem.read (scratchPa n (e.line * 64 + i)) = v ∧
        ∀ a, a ≠ scratchPa n (e.line * 64 + i) → t.mem.read a = s.mem.read a) ∧
      t = { s with
        mem := e.bytes.foldl (fun m b => m.write (scratchPa n (e.line * 64 + b.1)) b.2) s.mem
        fleet := { s.fleet with cores := t.fleet.cores } })

/-! ## The memory slot of a core -/

/-- R247, R248, R252–R255, R259. Loads. LDS brings the bytes of its address, extended with zeros or with their sign, LDV 256 bytes and
LDVS its strided elements, BF16 and FP16 widened. Space 0 is the own scratchpad as the core sees it, space 1 that of a core of the quad,
which must serve the same context, and space 2 the step's memory through its ranges, where a load waits, faults, meets a poisoned unit or
brings its bytes. A load whose address is not aligned brings free values (log entry 16), and a schedule check notes a load of bytes that
a slot wrote within 16 bundles (log entry 14). -/
def Obligations.CoreLoads : Prop :=
  ∀ (s : State) (c : SlotCtx) (b : Nat) (u : StepRec) (n : Nat), s.coreStep? c.core = some u → n = c.core →
    (∀ o l, s.checksSchedule n = false → s.noteRead n o l = s) ∧
    (∀ o l e, s.checksSchedule n = true → e ∈ (s.core n).recent → e.1 < (s.core n).bundles → e.2.1 < o % mib2 + l →
      o % mib2 < e.2.1 + e.2.2 → s.noteRead n o l = (if (s.core n).recSched = true then s
        else (s.cometF7 4 n [(s.core n).pc, o % mib2]).setCore n fun y => { y with recSched := true })) ∧
    (∀ d r sp z x o a, s.slotReady c (ldsKey d r sp z x o) b → a = addrOf (s.srcOf n) r o →
      (∀ p : List Byte → Nat, (∀ w, p w = if x = true then ofSigned 64 (toSigned (8 * w.length) (leNat w)) else leNat w) →
        (sp = 0 → ∃ t, exec (.lds c d r sp z x o) s = .next t ∧
          (s.noteRead n a (2 ^ z)).loadedX t n d (a % 2 ^ z = 0) (p (s.ownRead n a (2 ^ z)))) ∧
        (sp = 1 → n / 4 * 4 + bits a 21 2 = n → ∃ t, exec (.lds c d r sp z x o) s = .next t ∧
          (s.noteRead n (bits a 0 21) (2 ^ z)).loadedX t n d (a % 2 ^ z = 0) (p (s.ownRead n (bits a 0 21) (2 ^ z)))) ∧
        (∀ m, sp = 1 → m = n / 4 * 4 + bits a 21 2 → m ≠ n → (s.core m).tag = some u.ctag →
          ∃ t, exec (.lds c d r sp z x o) s = .next t ∧ (s.wakeAt (scratchPa m 0)).loadedX t n d (a % 2 ^ z = 0)
            (p ((List.range (2 ^ z)).map fun k => s.mem.read (scratchPa m (bits a 0 21 + k))))) ∧
        (∀ v w, sp = 2 → (s.inIssue n).readVa (quadUnit n) u.ctag a (2 ^ z) 1 (.load n) (some (u.queue, u.index)) 1 n = .bytes v w →
          ∃ t, exec (.lds c d r sp z x o) s = .next t ∧ (v.dropReads (.load n)).loadedX t n d (a % 2 ^ z = 0) (p w))) ∧
      (∀ m, sp = 1 → m = n / 4 * 4 + bits a 21 2 → m ≠ n → (s.core m).tag ≠ some u.ctag →
        exec (.lds c d r sp z x o) s = .next ((s.inIssue n).isolateCore u n m a)) ∧
      (∀ g, sp = 2 →
        g = (s.inIssue n).readVa (quadUnit n) u.ctag a (2 ^ z) 1 (.load n) (some (u.queue, u.index)) 1 n →
        (∀ v, g = .stall v → exec (.lds c d r sp z x o) s = .next v) ∧
        (∀ k e i va, g = .fault k e i va → exec (.lds c d r sp z x o) s =
          .next (((s.inIssue n).dropReads (.load n)).failAccess u.queue u.index k 1 e i va 1 n)) ∧
        (∀ pa, g = .poison pa → exec (.lds c d r sp z x o) s = .next ((s.inIssue n).eccEnd u n pa)))) ∧
    (∀ d r sp o a, s.slotReady c (ldvKey d r sp o) b → a = addrOf (s.srcOf n) r o →
      (sp = 0 → ∃ t, exec (.ldv c d r sp o) s = .next t ∧
        (s.noteRead n a 256).loadedV t n d (a % 64 = 0) (lanesOf (s.ownRead n a 256))) ∧
      (sp = 1 → n / 4 * 4 + bits a 21 2 = n → ∃ t, exec (.ldv c d r sp o) s = .next t ∧
        (s.noteRead n (bits a 0 21) 256).loadedV t n d (a % 64 = 0) (lanesOf (s.ownRead n (bits a 0 21) 256))) ∧
      (∀ m, sp = 1 → m = n / 4 * 4 + bits a 21 2 → m ≠ n → (s.core m).tag = some u.ctag →
        ∃ t, exec (.ldv c d r sp o) s = .next t ∧ (s.wakeAt (scratchPa m 0)).loadedV t n d (a % 64 = 0)
          (lanesOf ((List.range 256).map fun k => s.mem.read (scratchPa m (bits a 0 21 + k))))) ∧
      (∀ v w, sp = 2 → (s.inIssue n).readVa (quadUnit n) u.ctag a 256 1 (.load n) (some (u.queue, u.index)) 1 n = .bytes v w →
        ∃ t, exec (.ldv c d r sp o) s = .next t ∧ (v.dropReads (.load n)).loadedV t n d (a % 64 = 0) (lanesOf w)) ∧
      (∀ m, sp = 1 → m = n / 4 * 4 + bits a 21 2 → m ≠ n → (s.core m).tag ≠ some u.ctag →
        exec (.ldv c d r sp o) s = .next ((s.inIssue n).isolateCore u n m a)) ∧
      (∀ k e i va, sp = 2 → (s.inIssue n).readVa (quadUnit n) u.ctag a 256 1 (.load n) (some (u.queue, u.index)) 1 n = .fault k e i va →
        exec (.ldv c d r sp o) s = .next (((s.inIssue n).dropReads (.load n)).failAccess u.queue u.index k 1 e i va 1 n))) ∧
    (∀ d r z st o, s.slotReady c (ldvsKey d r z st o) b → ∃ t, exec (.ldvs c d r z st o) s = .next t ∧
      (forEach (List.range 64) s fun s i => s.noteRead n (((s.srcOf n).x? r + o + i * st * (if z = 2 then 4 else 2)) % mib2)
        (if z = 2 then 4 else 2)).slotV t n d ((List.range 64).map fun i =>
          if z = 2 then BitVec.ofNat 32 (leNat (s.ownRead n (((s.srcOf n).x? r + o + i * st * 4) % mib2) 4))
          else widen z (leNat (s.ownRead n (((s.srcOf n).x? r + o + i * st * 2) % mib2) 2))))

/-- R248, R253, R255–R257. Stores. An STS or STV to the own scratchpad changes the bytes of its address, as the core sees them, and no
others; one to a core of the quad reaches its scratchpad if that core serves the same context, and one to the step's memory waits, faults
or writes through its ranges. One whose address is not aligned writes free values to the two aligned units that it meets (log entry 16).
LDT writes the transpose of a block that its destination does not meet, FLUSH and FENCE empty the gather buffers into their banks, and
TOUCH changes a range cache or starts a walk.
Where it rests on the model's own reading: log entry 52. -/
def Obligations.CoreStores : Prop :=
  ∀ (s : State) (c : SlotCtx) (b : Nat) (u : StepRec) (n : Nat), s.coreStep? c.core = some u → n = c.core →
    (∀ x r sp z o a w, s.slotReady c (stsKey x r sp z o) b → a = addrOf (s.srcOf n) r o → w = 2 ^ z →
      (sp = 0 → (s.core n).gather = [] → z < 4 → ∃ t, exec (.sts c x r sp z o) s = .next t ∧
        (a % w = 0 → (∀ i, i < w → t.ownByte n (a + i) = (leBytes w ((s.srcOf n).x? x)).getD i 0) ∧
          ∀ k, k < mib2 → k < a % mib2 ∨ a % mib2 + w ≤ k → t.ownByte n k = s.ownByte n k) ∧
        (a % w ≠ 0 → ∀ k, k < mib2 → (∀ i, i < 2 * w → k ≠ (a - a % w + i) % mib2) → t.ownByte n k = s.ownByte n k) ∧
        (t.core n).regs = (s.core n).regs ∧ s.coreAndMem t n) ∧
      (∀ bs v, (a % w = 0 → bs = leBytes w ((s.srcOf n).x? x) ∧ v = s.inIssue n) →
        (a % w ≠ 0 → (bs, v) = freeBytes (2 * w) (s.inIssue n)) →
        (sp = 0 → exec (.sts c x r sp z o) s =
          .next (((v.noteWrite n (a - a % w) bs.length).scratchWrite n (a - a % w) bs).retireSlot n 0 c.more)) ∧
        (sp = 1 → n / 4 * 4 + bits (a - a % w) 21 2 = n → exec (.sts c x r sp z o) s =
          .next (((v.noteWrite n (bits (a - a % w) 0 21) bs.length).scratchWrite n (bits (a - a % w) 0 21) bs).retireSlot n 0 c.more)) ∧
        (∀ m, sp = 1 → m = n / 4 * 4 + bits (a - a % w) 21 2 → m ≠ n →
          ((s.core m).tag = some u.ctag → exec (.sts c x r sp z o) s =
            .next (((v.wakeAt (scratchPa m 0)).scratchWrite m (bits (a - a % w) 0 21) bs).retireSlot n 0 c.more)) ∧
          ((s.core m).tag ≠ some u.ctag → exec (.sts c x r sp z o) s = .next (v.isolateCore u n m (a - a % w)))) ∧
        (∀ g, sp = 2 → g = v.stage (quadUnit n) u.ctag (a - a % w) bs.length 2 (some (u.queue, u.index)) 1 n →
          (∀ y, g = .stall y → exec (.sts c x r sp z o) s = .next y) ∧
          (∀ k e i va, g = .fault k e i va → exec (.sts c x r sp z o) s = .next (v.failAccess u.queue u.index k 2 e i va 1 n)) ∧
          (∀ y ps, g = .ok y ps → y.resetHit ps = false → exec (.sts c x r sp z o) s =
            .next ((y.storeParts ⟨u.ctag, some (u.queue, u.index), 1, n⟩ ps bs).retireSlot n 0 c.more)) ∧
          (∀ y ps, g = .ok y ps → y.resetHit ps = true → exec (.sts c x r sp z o) s =
            .next ((y.storeParts ⟨u.ctag, some (u.queue, u.index), 1, n⟩ ps bs).endStep u.queue u.index ST_DIERESET))))) ∧
    (∀ x r sp o a, s.slotReady c (stvKey x r sp o) b → a = addrOf (s.srcOf n) r o →
      (sp = 0 → s.mem.wf = true → ((s.srcOf n).v? x).length = 64 → ∃ t, exec (.stv c x r sp o) s = .next t ∧
        (a % 64 = 0 → (∀ i, i < 256 → t.mem.read (scratchPa n (a + i)) = (bytesOfLanes ((s.srcOf n).v? x)).getD i 0) ∧
          ∀ k, (∀ i, i < 256 → k ≠ scratchPa n (a + i)) → t.mem.read k = s.mem.read k) ∧
        (a % 64 ≠ 0 → ∀ k, (∀ i, i < 320 → k ≠ scratchPa n (a - a % 64 + i)) → t.mem.read k = s.mem.read k) ∧
        (t.core n).gather = (s.core n).gather ∧ (t.core n).regs = (s.core n).regs ∧ s.coreAndMem t n) ∧
      (∀ bs v, (a % 64 = 0 → bs = bytesOfLanes ((s.srcOf n).v? x) ∧ v = s.inIssue n) →
        (a % 64 ≠ 0 → (bs, v) = freeBytes 320 (s.inIssue n)) →
        (∀ m, sp = 1 → m = n / 4 * 4 + bits (a - a % 64) 21 2 → m ≠ n →
          ((s.core m).tag = some u.ctag → exec (.stv c x r sp o) s =
            .next (((v.wakeAt (scratchPa m 0)).scratchWrite m (bits (a - a % 64) 0 21) bs).retireSlot n 0 c.more)) ∧
          ((s.core m).tag ≠ some u.ctag → exec (.stv c x r sp o) s = .next (v.isolateCore u n m (a - a % 64)))) ∧
        (∀ g, sp = 2 → g = v.stage (quadUnit n) u.ctag (a - a % 64) bs.length 2 (some (u.queue, u.index)) 1 n →
          (∀ k e i va, g = .fault k e i va → exec (.stv c x r sp o) s = .next (v.failAccess u.queue u.index k 2 e i va 1 n)) ∧
          (∀ y ps, g = .ok y ps → y.resetHit ps = false → exec (.stv c x r sp o) s =
            .next ((y.storeParts ⟨u.ctag, some (u.queue, u.index), 1, n⟩ ps bs).retireSlot n 0 c.more))))) ∧
    (∀ d x z sp dp e k a to_ from_, s.slotReady c (ldtKey d x z sp dp) b → e = (if z = 0 then 2 else 1) → k = 64 / e →
      a = (s.srcOf n).x? d → from_ = ldtRows ((s.srcOf n).x? x) sp k → to_ = ldtRows (a - a % 64) dp k → s.mem.wf = true →
      ∃ t, exec (.ldt c d x z sp dp) s = .next t ∧ (t.core n).regs = (s.core n).regs ∧ (t.core n).gather = (s.core n).gather ∧
        ((s.srcOf n).x? x % 64 = 0 → a % 64 = 0 → rowsMeet from_ to_ = false → dp % 64 = 0 → to_.Nodup →
          ∀ j i l, j < k → i < k → l < e → t.mem.read (scratchPa n (to_.getD j 0 + i * e + l)) =
            s.ownByte n (from_.getD i 0 + j * e + l)) ∧
        (∀ h, (∀ o, o ∈ to_ → ∀ i, i < 64 → h ≠ scratchPa n (o + i)) → t.mem.read h = s.mem.read h) ∧ s.coreAndMem t n) ∧
    (s.slotReady c flushKey b → ∃ t, exec (.flush c) s = .next t ∧
      ({ s.core n with gather := [] } : CoreSt).sameButRegs (t.core n) ∧ (t.core n).regs = (s.core n).regs ∧
      t.mem = (s.flushGather n).mem ∧ s.coreAndMem t n ∧ t.aon = s.aon ∧ t.drawn = s.drawn) ∧
    (s.slotReady c fenceKey b → ∃ t, exec (.fence c) s = .next t ∧
      ({ s.core n with gather := [] } : CoreSt).sameButRegs (t.core n) ∧ (t.core n).regs = (s.core n).regs ∧
      (∀ m, m ≠ n → t.core m = { s.core m with gather := [] }) ∧
      t = { s with mem := (s.flushGather n).settleWrites.mem, fleet := { s.fleet with cores := t.fleet.cores } }) ∧
    (∀ r o a, s.slotReady c (touchKey r o) b → a = addrOf (s.srcOf n) r o → ∃ t, exec (.touch c r o) s = .next t ∧
      (s.core n).sameButRegs (t.core n) ∧ (t.core n).regs = (s.core n).regs ∧ (∀ m, m ≠ n → t.core m = s.core m) ∧
      (∀ k, k ≠ quadUnit n → tabGet [] t.ctx.caches k = tabGet [] s.ctx.caches k) ∧
      (∀ e, s.cacheLook (quadUnit n) u.ctag a = some e → t.ctx.walks = s.ctx.walks) ∧
      (s.cacheLook (quadUnit n) u.ctag a = none → (∀ w, w ∈ s.ctx.walks → w.unit ≠ quadUnit n) →
        t.ctx.walks = s.ctx.walks ++ [⟨quadUnit n, u.ctag, a, 1, none, 1, n, s.ctx.invalidating.contains u.ctag⟩]) ∧
      (∀ w, w ∈ s.ctx.walks → w.unit = quadUnit n → s.cacheLook (quadUnit n) u.ctag a = none → t.ctx = s.ctx) ∧
      t = { s with
        ctx := { s.ctx with caches := t.ctx.caches, walks := t.ctx.walks }, fleet := { s.fleet with cores := t.fleet.cores } })

/-! ## The matrix slot and the vector slot of a core -/

/-- R289–R291, R297–R302, R309. MLDW, MMUL, MST and MZERO. A tile fills an empty shadow buffer; a multiply takes the shadow tile where it
swaps, and leaves in each accumulator row that it names its sum with the products, or NaN where the tile is missing or of another depth;
rows are stored, and zeroed. Rows and bytes that are not named stay. A bundle waits with an MLDW while the shadow buffer is full and with
an MMUL that swaps while it is empty. Bytes of an operand whose base is not aligned are free values (log entry 16).
Where it rests on the model's own reading: log entry 58. -/
def Obligations.MatrixSlot : Prop :=
  ∀ (s : State) (c : SlotCtx) (b n : Nat), n = c.core →
    (∀ x y f g tr k p w v T, s.slotReady c (mldwKey x y f g tr k p w v) b → (s.core n).shadow = none →
      T = ((s.inIssue n).readTile n ((s.srcOf n).x? x) ((s.srcOf n).x? y) f g tr (128 * 2 ^ k) p w v).1 →
      ∃ t, exec (.mldw c x y f g tr k p w v) s = .next t ∧
        ({ s.core n with shadow := some T, recSched := (t.core n).recSched } : CoreSt).sameButRegs (t.core n) ∧
        T.fmt = f ∧ T.scaled = g ∧ T.kc = 128 * 2 ^ k ∧ T.ncols = w ∧ T.kvalid = v ∧
        (tr = false → (s.srcOf n).x? x % 64 = 0 → T.cols = (List.range w).map fun i =>
          elemsOf f (s.ownRead n ((s.srcOf n).x? x + i * (p * 64)) (128 * 2 ^ k * fmtWidth f / 8))) ∧
        (tr = true → (s.srcOf n).x? x % 64 = 0 → T.cols = (List.range w).map fun i => (List.range (128 * 2 ^ k)).map fun j =>
          (elemsOf f (s.ownRead n ((s.srcOf n).x? x + j * (p * 64)) (w * fmtWidth f / 8))).getD i 0) ∧
        (g = true → (s.srcOf n).x? y % 64 = 0 → T.scales = (List.range w).map fun i =>
          (s.ownRead n ((s.srcOf n).x? y + i * (128 * 2 ^ k / 32)) (128 * 2 ^ k / 32)).map (·.toNat)) ∧
        (t.core n).regs = (s.core n).regs ∧ t.mem = s.mem ∧ s.coreAndMem t n) ∧
    (∀ x y f g tr k p w v, s.slotTurn c (mldwKey x y f g tr k p w v) b → (s.core n).issue = none →
      (s.core n).regs.goes c.pred c.pneg = true → (s.core n).shadow.isSome = true →
      exec (.mldw c x y f g tr k p w v) s = .next (s.setCore n fun y => { y with waiting := false })) ∧
    (∀ x y f g z p a r, s.slotTurn c (mmulKey x y f g true z p a r) b → (s.core n).issue = none →
      (s.core n).regs.goes c.pred c.pneg = true → (s.core n).shadow = none →
      exec (.mmul c x y f g true z p a r) s = .next (s.setCore n fun y => { y with waiting := false })) ∧
    (∀ x y f g sw z p a r h, s.slotReady c (mmulKey x y f g sw z p a r) b → r ≤ 1024 → (sw = true → (s.core n).shadow.isSome = true) →
      h = (if sw = true then (s.core n).shadow else (s.core n).active) →
      ∃ t, exec (.mmul c x y f g sw z p a r) s = .next t ∧
        ({ s.core n with
          active := h, shadow := if sw = true then none else (s.core n).shadow, spent := (s.core n).spent + r, acc := (t.core n).acc
          recSched := (t.core n).recSched, recTile := (t.core n).recTile } : CoreSt).sameButRegs (t.core n) ∧
        (∀ k, (∀ i, i < r → k % 1024 ≠ ((s.srcOf n).x? a + i) % 1024) → (t.core n).accRow k = (s.core n).accRow k) ∧
        (∀ T, h = some T → T.kc = depthOf f T.fmt → (t.core n).recTile = (s.core n).recTile ∧
          ((s.srcOf n).x? x % 64 = 0 → (g = true → (s.srcOf n).x? y % 64 = 0) → ∀ i, i < r →
            (t.core n).accRow ((s.srcOf n).x? a + i) = accRowAfter T (depthOf f T.fmt) f z ((s.core n).accRow ((s.srcOf n).x? a + i))
              (elemsOf f (s.ownRead n ((s.srcOf n).x? x + i * (p * 64)) (depthOf f T.fmt * fmtWidth f / 8)))
              (if g = true then some ((s.ownRead n ((s.srcOf n).x? y + i * (depthOf f T.fmt / 32)) (depthOf f T.fmt / 32)).map (·.toNat))
                else none))) ∧
        (∀ w, (h = none ∧ w = 64) ∨ (∃ T, h = some T ∧ T.kc ≠ depthOf f T.fmt ∧ w = T.ncols) → (t.core n).recTile = true ∧
          ∀ i, i < r → (t.core n).accRow ((s.srcOf n).x? a + i) = ((s.core n).accRow ((s.srcOf n).x? a + i)).mapIdx fun j v =>
            if j < w then enc32 .nan else v) ∧
        (t.core n).regs = (s.core n).regs ∧ t.mem = s.mem ∧ s.coreAndMem t n) ∧
    (∀ d a f cl p r m (q : Nat → List Byte), s.slotReady c (mstKey d a f cl p r) b → r ≤ 1024 → m = (s.srcOf n).x? d →
      (∀ i, q i = bytesOfElems f (((s.core n).accRow ((s.srcOf n).x? a + i)).map (narrow f))) → s.mem.wf = true →
      ∃ t, exec (.mst c d a f cl p r) s = .next t ∧
        (∀ x, (∀ i k, i < r → k < (q i).length → x ≠ scratchPa n (m - m % 64 + i * (p * 64) + k)) → t.mem.read x = s.mem.read x) ∧
        (m % 64 = 0 → ∀ i k, i < r → k < (q i).length → (q i).length ≤ mib2 →
          (∀ j l, i < j → j < r → l < (q j).length → scratchPa n (m + j * (p * 64) + l) ≠ scratchPa n (m + i * (p * 64) + k)) →
          t.mem.read (scratchPa n (m + i * (p * 64) + k)) = (q i).getD k 0) ∧
        (cl = true → (∀ i, i < r → (t.core n).accRow ((s.srcOf n).x? a + i) = List.replicate 64 0) ∧
          ∀ k, (∀ i, i < r → k % 1024 ≠ ((s.srcOf n).x? a + i) % 1024) → (t.core n).accRow k = (s.core n).accRow k) ∧
        (cl = false → (t.core n).acc = (s.core n).acc) ∧
        ({ s.core n with acc := (t.core n).acc } : CoreSt).sameButRegs (t.core n) ∧ (t.core n).regs = (s.core n).regs ∧
        s.coreAndMem t n) ∧
    (∀ a r, s.slotReady c (mzeroKey a r) b → ∃ t, exec (.mzero c a r) s = .next t ∧
      (∀ i, i < r → (t.core n).accRow ((s.srcOf n).x? a + i) = List.replicate 64 0) ∧
      (∀ k, (∀ i, i < r → k % 1024 ≠ ((s.srcOf n).x? a + i) % 1024) → (t.core n).accRow k = (s.core n).accRow k) ∧
      ({ s.core n with acc := (t.core n).acc } : CoreSt).sameButRegs (t.core n) ∧ s.coreOnly t n ∧
      (t.core n).regs = (s.core n).regs)

/-- R288, R305, R306. The vector slot: each operation writes its destination register from its sources as at the bundle's issue, and
nothing else; VCVTMX writes the elements and the scale bytes, and VACC moves and adds accumulator rows, or reads one.
Where it rests on the model's own reading: log entry 58. -/
def Obligations.VectorSlot : Prop :=
  ∀ (s : State) (c : SlotCtx) (b : Nat),
    (∀ d x y f, s.slotReady c (varithKey d x y f) b → ∃ t, exec (.varith c d x y f) s = .next t ∧ s.slotV t c.core d
      ((((s.srcOf c.core).v? x).zip ((s.srcOf c.core).v? y)).map fun p => if f = 0 then fadd p.1 p.2 else if f = 1 then fsub p.1 p.2
        else if f = 2 then fmul p.1 p.2 else if f = 3 then fmin p.1 p.2 else if f = 4 then fmax p.1 p.2
        else if f = 5 then enc32 (dec32 p.1).abs else if f = 6 then enc32 (dec32 p.1).negate else enc32 (dec32 p.1))) ∧
    (∀ d x y z f, s.slotReady c (vfmaKey d x y z f) b → ∃ t, exec (.vfma c d x y z f) s = .next t ∧ s.slotV t c.core d
      ((((s.srcOf c.core).v? x).zip (((s.srcOf c.core).v? y).zip ((s.srcOf c.core).v? z))).map fun p =>
        ffma (bit f 0) (bit f 1) p.1 p.2.1 p.2.2)) ∧
    (∀ d x y f, s.slotReady c (vcmpKey d x y f) b → ∃ t, exec (.vcmp c d x y f) s = .next t ∧ s.slotV t c.core d
      ((((s.srcOf c.core).v? x).zip ((s.srcOf c.core).v? y)).map fun p =>
        if vcmpHolds f (dec32 p.1) (dec32 p.2) = true then 0xFFFFFFFF else 0)) ∧
    (∀ d x y z, s.slotReady c (vselKey d x y z) b → ∃ t, exec (.vsel c d x y z) s = .next t ∧ s.slotV t c.core d
      ((((s.srcOf c.core).v? x).zip (((s.srcOf c.core).v? y).zip ((s.srcOf c.core).v? z))).map fun p =>
        if p.2.2 = 0 then p.2.1 else p.1)) ∧
    (∀ d x f, s.slotReady c (vredKey d x f) b → ∃ t, exec (.vred c d x f) s = .next t ∧ s.slotV t c.core d
      ((if f = 0 then treeSum 6 ((s.srcOf c.core).v? x) else (treeOf (if f = 1 then fmax else fmin) 6 ((s.srcOf c.core).v? x)).headD 0) ::
        List.replicate 63 0)) ∧
    (∀ d x f h, s.slotReady c (vcvtKey d x f h) b → ∃ t, exec (.vcvt c d x f h) s = .next t ∧
      s.slotV t c.core d (vcvtLanes f h ((s.srcOf c.core).v? d) ((s.srcOf c.core).v? x))) ∧
    (∀ d x y z f g e k, s.slotReady c (vcvtmxKey d x y z f) b → g = 2 + f % 4 →
      e = ((List.range (if g = 4 then 8 else 4)).flatMap fun i => (s.srcOf c.core).v? (x + i)) →
      k = (chunks 32 e.length e).map (mxBlock g (if bit f 2 = true then some ((((s.srcOf c.core).v? y).headD 0).toNat % 256) else none)) →
      ∃ t, exec (.vcvtmx c d x y z f) s = .next t ∧
        s.coreOnly t c.core ∧ (s.core c.core).sameButRegs (t.core c.core) ∧ (t.core c.core).regs.x = (s.core c.core).regs.x ∧
        (t.core c.core).regs.p = (s.core c.core).regs.p ∧
        (∀ j, j % 32 ≠ d % 32 → j % 32 ≠ z % 32 → (t.core c.core).regs.v? j = (s.core c.core).regs.v? j) ∧
        (d % 32 ≠ z % 32 → (t.core c.core).regs.v? d = lanesOf (bytesOfElems g (k.flatMap (·.2)))) ∧
        (t.core c.core).regs.v? z = lanesOf ((k.map fun w => BitVec.ofNat 8 w.1) ++ List.replicate (256 - k.length) 0)) ∧
    (∀ d f x, s.slotReady c (vaccKey d f x) b → ∃ t, exec (.vacc c d f x) s = .next t ∧
      (f = 0 → s.slotV t c.core d ((s.core c.core).accRow ((s.srcOf c.core).x? x))) ∧
      (f = 1 → s.coreOnly t c.core ∧ (t.core c.core).regs = (s.core c.core).regs ∧
        ({ s.core c.core with acc := (t.core c.core).acc } : CoreSt).sameButRegs (t.core c.core) ∧
        (t.core c.core).accRow ((s.srcOf c.core).x? x) = (s.srcOf c.core).v? d) ∧
      (1 < f → s.coreOnly t c.core ∧ (t.core c.core).regs = (s.core c.core).regs ∧
        ({ s.core c.core with acc := (t.core c.core).acc } : CoreSt).sameButRegs (t.core c.core) ∧ (t.core c.core).accRow ((s.srcOf c.core).x? x) =
        (((s.core c.core).accRow ((s.srcOf c.core).x? x)).zip ((s.srcOf c.core).v? d)).map (fun p => fadd p.1 p.2)) ∧
      (1 ≤ f → ∀ r, r % 1024 ≠ (s.srcOf c.core).x? x % 1024 → (t.core c.core).accRow r = (s.core c.core).accRow r)) ∧
    (∀ d v, s.slotReady c (vmovKey d v) b → ∃ t, exec (.vmov c d v) s = .next t ∧ s.slotV t c.core d (List.replicate 64 v))

/-! ## Engines and Function Units -/

/-- R229, R271–R273, R365. A descriptor that has done its work leaves its engine's queue, its core's credit returns and one fewer is
outstanding, and its signal goes to its object with the increment, after every gather buffer has reached its bank; without a signal
nothing else of the fleet or of memory changes. One that cannot be read waits, faults or ends its step with ST_ECC, one whose header or
fields break their rules is refused with ST_MALFORMED. -/
def Obligations.DescriptorsComplete : Prop :=
  ∀ (s : State) (e : Eng) (d : QDesc) (rest : List QDesc) (t : StepRec), (s.engine e.die e.idx).queue = d :: rest →
    s.step? d.queue d.step = some t →
    (∀ f o m, s.stopHolds t = false → f = s.finishDesc e d →
      o = (if d.field 8 4 = 0xFFFFFFFF then podObject s.fab.device d.core (16 * ((d.bank + b2n (bit (d.field 4 2) 4)) % 2) + d.field 4 2 % 16)
        else podObject (d.field 8 4 / 512) (d.field 8 4 % 512) (16 * ((d.bank + b2n (bit (d.field 4 2) 4)) % 2) + d.field 4 2 % 16)) →
      m = ⟨s.fab.device, t.fn, d.ctag, d.queue, d.step, 1024 + e.agent, o, d.field 6 2⟩ →
      (f.engine e.die e.idx).queue = rest ∧ (f.engine e.die e.idx).inHand = none ∧ (f.engine e.die e.idx).items = [] ∧
      (∀ k j, k ≠ e.die ∨ j ≠ e.idx → f.engine k j = s.engine k j) ∧
      ((s.core d.core).step = some (d.queue, d.step) →
        tabGet 0 (f.core d.core).credits (creditKey (engineKind d.engine) (engineInst d.engine)) =
          tabGet 0 (s.core d.core).credits (creditKey (engineKind d.engine) (engineInst d.engine)) - 1 ∧
        (f.core d.core).outstanding = (s.core d.core).outstanding - 1) ∧
      (∀ n, n ≠ d.core ∨ (s.core d.core).step ≠ some (d.queue, d.step) →
        f.core n = { s.core n with gather := if d.field 6 2 = 0 then (s.core n).gather else [] }) ∧
      (∀ n, (f.core n).regs = (s.core n).regs ∧ (f.core n).sync = (s.core n).sync) ∧
      f.mem = (if d.field 6 2 = 0 then s.mem else s.settleWrites.mem) ∧
      (d.field 6 2 = 0 → f.fleet.signals = s.fleet.signals ∧ f.fab = s.fab ∧ f.out = s.out) ∧
      (d.field 6 2 ≠ 0 → o / 16384 = s.fab.device ∨ 2 ^ 20 ≤ o →
        f.fleet.signals = s.fleet.signals ++ [m] ∧ f.fab = s.fab ∧ f.out = s.out) ∧
      (d.field 6 2 ≠ 0 → o / 16384 ≠ s.fab.device → o < 2 ^ 20 → f.fleet.signals = s.fleet.signals ∧
        f.fab = (s.send (o / 16384) 2 (.signal m)).fab ∧ f.out = (s.send (o / 16384) 2 (.signal m)).out) ∧
      f = { s with host := { s.host with reads := f.host.reads }, fleet := f.fleet, mem := f.mem, fab := f.fab, out := f.out }) ∧
    (∀ i x, i < 8 → e = ⟨e.die, i⟩ → x = fuDesc d → s.engineReady e d rest t → d.format = 1 →
      (fuOk d x = false → exec (.fuElementwise e.die i) s = .next (s.refuseDesc e d)) ∧
      (∀ f g, fuOk d x = true → fnSource (s.bank t.libBank) x.fn (s.context t.ctag).compat = some f →
        (s.engine e.die e.idx).badBanks.contains t.libBank = false →
        g = s.readVa e.unit t.ctag x.src (x.count * elemBytes x.inFmt) 1 (.engine e.die e.idx) (some (t.queue, t.index)) e.agentKind
          e.agent →
        (∀ u, g = .stall u → exec (.fuElementwise e.die i) s = .next u) ∧
        (∀ k c r va, g = .fault k c r va → exec (.fuElementwise e.die i) s =
          .next ((s.letHand e d).failAccess d.queue d.step k 1 c r va e.agentKind e.agent)) ∧
        (∀ pa, g = .poison pa → exec (.fuElementwise e.die i) s = .next ((s.noteBad e d pa).endStep d.queue d.step ST_ECC)) ∧
        (∀ u b ps v, g = .bytes u b → u.stage e.unit t.ctag x.dst (x.count * elemBytes x.outFmt) 2 (some (t.queue, t.index)) e.agentKind
            e.agent = .ok v ps → v.resetHit ps = true →
          exec (.fuElementwise e.die i) s = .next ((v.countHits ps).endStep d.queue d.step ST_DIERESET)) ∧
        (∀ u b k c r va, g = .bytes u b → u.stage e.unit t.ctag x.dst (x.count * elemBytes x.outFmt) 2 (some (t.queue, t.index))
            e.agentKind e.agent = .fault k c r va → exec (.fuElementwise e.die i) s =
          .next ((s.letHand e d).failAccess d.queue d.step k 2 c r va e.agentKind e.agent))))

/-- R312–R317, R325–R329, R335, R339. Function Units. Format 1 applies a function element by element, format 2 multiplies the gate's value
by the up input with one rounding, and each leaves free values where its destination meets an input other than in place; a function that
the bank does not hold, and a format of neither command, are refused, and a bank under repair makes a descriptor wait. Each step of a
micro-program writes one register of its lane from the registers and pages it reads, and a bank is rewritten with a record.
Where it rests on the model's own reading: log entries 24 and 84. -/
def Obligations.FunctionUnits : Prop :=
  ∀ s : State,
    (∀ bs, s.orFree false bs = (bs, s) ∧ (s.orFree true bs).1.length = bs.length) ∧
    (∀ e d rest t x, e.idx < 8 → s.engineReady e d rest t → x = fuDesc d →
      (d.format = 1 → fnSource (s.bank t.libBank) x.fn (s.context t.ctag).compat = none →
        exec (.fuElementwise e.die e.idx) s = .next (s.refuseDesc e d)) ∧
      (d.format = 2 → gateFn (s.bank t.libBank) x.fn = 0 ∨
          fnSource (s.bank t.libBank) (gateFn (s.bank t.libBank) x.fn) (s.context t.ctag).compat = none →
        exec (.fuFusedGate e.die e.idx) s = .next (s.refuseDesc e d)) ∧
      (d.format ≠ 1 → d.format ≠ 2 → exec (.fuElementwise e.die e.idx) s = .next (s.refuseDesc e d) ∧
        exec (.fuFusedGate e.die e.idx) s = .next (s.refuseDesc e d)) ∧
      (∀ f, fuOk d x = true → (s.engine e.die e.idx).badBanks.contains t.libBank = true →
        (d.format = 1 → fnSource (s.bank t.libBank) x.fn (s.context t.ctag).compat = some f →
          exec (.fuElementwise e.die e.idx) s = .next s)) ∧
      (∀ f b s1 s2 p rs ib ob, d.format = 1 → fuOk d x = true → ib = x.count * elemBytes x.inFmt → ob = x.count * elemBytes x.outFmt →
        fnSource (s.bank t.libBank) x.fn (s.context t.ctag).compat = some f →
        (s.engine e.die e.idx).badBanks.contains t.libBank = false →
        readsTo e t [(x.src, ib)] s s1 [b] → destsTo e t [(x.dst, ob)] s1 s2 [p] →
        rs = (laneElems x.inFmt b).map (fun v => f.run v 0 x.p0 x.p1) →
        ∀ o s3, (o, s3) = s2.orFree (overlap x.src ib x.dst ob && !(x.src == x.dst && ib == ob))
          (bytesOfElems x.outFmt (rs.map fun r => narrow x.outFmt r.2)) →
        exec (.fuElementwise e.die e.idx) s = .next (((s3.keepLanes e t.libBank f rs).engWrite e t p o).finishDesc e d)) ∧
      (∀ f bs s1 s2 p rs gs us ib ob ins, d.format = 2 → fuOk d x = true → ib = x.count * elemBytes x.inFmt →
        ob = x.count * elemBytes x.outFmt → gateFn (s.bank t.libBank) x.fn ≠ 0 →
        fnSource (s.bank t.libBank) (gateFn (s.bank t.libBank) x.fn) (s.context t.ctag).compat = some f →
        (s.engine e.die e.idx).badBanks.contains t.libBank = false →
        ins = (if x.layout = 0 then [(x.src, ib), (x.src2, ib)] else [(x.src, 2 * ib)]) →
        readsTo e t ins s s1 bs → destsTo e t [(x.dst, ob)] s1 s2 [p] → (gs, us) = gatePairs x bs →
        rs = (gs.zip us).map (fun v => f.run v.1 v.2 x.p0 x.p1) →
        ∀ o s3, (o, s3) = s2.orFree ((ins.any fun i => overlap i.1 i.2 x.dst ob) &&
            !(x.layout == 0 && x.src == x.dst && ib == ob && !overlap x.src2 ib x.dst ob))
          (bytesOfElems x.outFmt ((rs.zip us).map fun v => roundTo x.outFmt ((dec32 v.1.2).mul (dec32 v.2)))) →
        exec (.fuFusedGate e.die e.idx) s = .next (((s3.keepLanes e t.libBank f rs).engWrite e t p o).finishDesc e d))) ∧
    (∀ (x : FuDesc) (a b : List Byte), x.layout = 0 → gatePairs x [a, b] = (laneElems x.inFmt a, laneElems x.inFmt b)) ∧
    (∀ (u : FuLane) (Z : LaneRegs), u.die < 8 → u.inst < 8 → u.lane < 64 → s.engineRuns ⟨u.die, u.inst⟩ = true →
      Z = tabGet (List.replicate 8 0) (s.engine u.die u.inst).lanes u.lane →
      (∀ d a b c np na no, exec (.fma u d a b c np na no) s = .next (s.setEngine u.die u.inst fun x => { x with
        lanes := tabSet x.lanes u.lane (zSet Z d (enc32
          (if no = true then (if np = true then ((dec32 (zGet Z a)).mul (dec32 (zGet Z b))).negate else (dec32 (zGet Z a)).mul (dec32 (zGet Z b)))
           else (if np = true then ((dec32 (zGet Z a)).mul (dec32 (zGet Z b))).negate else (dec32 (zGet Z a)).mul (dec32 (zGet Z b))).add
             (if na = true then (dec32 (zGet Z c)).negate else dec32 (zGet Z c))))) })) ∧
      (∀ d a b fn sh, exec (.fld u d a b fn sh) s = .next (s.setEngine u.die u.inst fun x => { x with
        lanes := tabSet x.lanes u.lane (zSet Z d (fldValue (zGet Z a) (zGet Z b) fn sh)) })) ∧
      (∀ a, exec (.microEnd u a) s = .next (s.setEngine u.die u.inst fun x => { x with result := tabSet x.result u.lane (zGet Z a) })) ∧
      (∀ d i, s.lanePages u = none → exec (.ldc u d i) s = .next s) ∧
      (∀ f l, (s.engine u.die u.inst).func = some f → s.bank (s.engine u.die u.inst).funcBank = some l →
        s.lanePages u = some (libPages l f)) ∧
      (∀ p, s.lanePages u = some p →
        (∀ d i, exec (.ldc u d i) s = .next (s.setEngine u.die u.inst fun x => { x with
          lanes := tabSet x.lanes u.lane (zSet Z d (p.k.getD i 0)) })) ∧
        (∀ d a c i, exec (.rred u d a c i) s = .next (s.setEngine u.die u.inst fun x => { x with
          lanes := tabSet x.lanes u.lane (stepRred p.k Z d a c i) })) ∧
        (∀ d a n sh w q, p.tables.getD n none = some q → exec (.tlu u d a n sh w) s = .next (s.setEngine u.die u.inst fun x => { x with
          lanes := tabSet x.lanes u.lane (zSet Z d (q.getD ((zGet Z a).toNat / 2 ^ sh % 2 ^ w) 0)) })) ∧
        (∀ d a n sh w, p.tables.getD n none = none → exec (.tlu u d a n sh w) s = .next (s.setEngine u.die u.inst fun x => { x with
          lanes := tabSet x.lanes u.lane (zSet Z d (BitVec.ofNat 32 (Config.freeValue ((zGet Z a).toNat / 2 ^ sh % 2 ^ w)))) })) ∧
        (∀ d a n i, exec (.horn u d a n i) s = .next (s.setEngine u.die u.inst fun x => { x with
          lanes := tabSet x.lanes u.lane (zSet Z d (hornTerms p.k (zGet Z a) i n (p.k.getD i 0))) })) ∧
        (∀ d a b c bc cond i, exec (.csel u d a b c bc cond i) s = .next (s.setEngine u.die u.inst fun x => { x with
          lanes := tabSet x.lanes u.lane (if cselHolds cond (dec32 (zGet Z a)) (dec32 (if bc = true then p.k.getD i 0 else zGet Z b)) = true
            then zSet Z d (zGet Z c) else Z) })))) ∧
    (∀ (Z : LaneRegs) d v j, d < 8 → j < 8 → zGet (zSet Z d v) j = if j = d then v else zGet Z j) ∧
    (∀ die i k, i < 8 → (s.engine die i).badBanks.contains k = true → s.supervisorRuns = true →
      exec (.libraryBankRewrite die i k) s = .next ((s.setEngine die i fun x => { x with
        badBanks := x.badBanks.filter (· != k) }).cometF7 4 (0x800 + die * 32 + i) [k]))

/-! ## Row Statistics Units and the Sampling Engine -/

/-- R340, R343–R355. The five formats of a Row Statistics Unit: each row's record and outputs are those of its update, normalisation, merge,
moments or application, written to their destinations as the descriptor leaves. A record of another kind than the descriptor's leaves one
Comet record in its step; outputs that meet an input other than in place, and a merge of two records of a kind that R343 does not name,
are free values; a descriptor whose fields break R345 is refused.
Where it rests on the model's own reading: log entry 25. -/
def Obligations.RowStatistics : Prop :=
  ∀ (s : State) (die i : Nat) (e : Eng) (d : QDesc) (rest : List QDesc) (t : StepRec) (x : RsuDesc), i < 4 → e = ⟨die, 8 + i⟩ →
    s.engineReady e d rest t → x = rsuDesc d →
    (rsuOk d x = false → (d.format = 1 → exec (.rowUpdate die i) s = .next (s.refuseDesc e d)) ∧
      (d.format = 2 → exec (.rowNormalise die i) s = .next (s.refuseDesc e d)) ∧
      (d.format = 3 → exec (.rowMerge die i) s = .next (s.refuseDesc e d)) ∧
      (d.format = 4 → exec (.moments die i) s = .next (s.refuseDesc e d)) ∧
      (d.format = 5 → exec (.normApply die i) s = .next (s.refuseDesc e d))) ∧
    (∀ (v : State) b, v.noteKind e t false = v ∧ (t.kindNoted = true → v.noteKind e t b = v) ∧ (t.kindNoted = false → v.noteKind e t true =
      (v.modStep t.queue t.index fun u => { u with kindNoted := true }).cometF7 4 e.inst ([t.queue] ++ words2 t.index))) ∧
    (∀ v l, (∀ r, r ∈ l → r.1.1.kind ≠ r.1.2.kind ∨ r.1.1.kind = 1 ∨ r.1.1.kind = 2 ∨ r.1.1.kind = 3) →
      rsuMergeRows (s.rsuFns t) l v = (l.map fun r => rowMerge (s.rsuFns t) r.1.1 r.1.2 r.2.1 r.2.2, v)) ∧
    (∀ s1 s2 bs ps recs rs o s3, rsuOk d x = true → d.format = 1 →
      readsTo e t (x.recIn :: (x.limit, if x.limit = 0 then 0 else x.rows * 4) :: rowsAt x.src x.srcPitch x.rows x.inRow) s s1 bs →
      destsTo e t ((x.stats, x.rows * 16) :: (x.aux, if x.aux = 0 then 0 else x.rows * 4) ::
        rowsAt x.dst x.dstPitch x.rows (if x.dst = 0 then 0 else x.outRow)) s1 s2 ps →
      recs = x.recs 1 (bs.getD 0 []) →
      rs = (numbered (recs.zip (bs.drop 2))).map (fun r =>
        rowUpdate (s.rsuFns t) r.2.1 (laneElems x.inFmt r.2.2) (x.masked (lanesOf (bs.getD 1 [])) r.1) x.alpha) →
      (o, s3) = s2.orFree (rsuClash x) (rs.map fun r => if x.dst = 0 then [] else bytesOfElems x.outFmt (r.2.1.map (narrow x.outFmt))).flatten →
      exec (.rowUpdate die i) s = .next (((s3.noteKind e t (recs.any fun r => r.kind != 1)).engWrites e t ps
        (rs.flatMap (fun r => recBytes r.1) :: (if x.aux = 0 then [] else bytesOfLanes (rs.map fun r => r.2.2)) ::
          chunks x.outRow x.rows o)).finishDesc e d)) ∧
    (∀ s1 s2 bs ps recs o s3, rsuOk d x = true → d.format = 2 →
      readsTo e t ((x.stats, x.rows * 16) :: (x.limit, if x.limit = 0 then 0 else x.rows * 4) ::
        rowsAt x.src x.srcPitch x.rows x.inRow) s s1 bs →
      destsTo e t (rowsAt x.dst x.dstPitch x.rows x.outRow) s1 s2 ps → recs = (chunks 16 x.rows (bs.getD 0 [])).map recOf →
      (o, s3) = s2.orFree (rsuClash x) ((numbered (recs.zip (bs.drop 2))).flatMap fun r =>
        bytesOfElems x.outFmt ((rowNormalise (s.rsuFns t) r.2.1 (laneElems x.inFmt r.2.2) (x.masked (lanesOf (bs.getD 1 [])) r.1) x.alpha
          x.mode).map (narrow x.outFmt))) →
      exec (.rowNormalise die i) s = .next ((s3.engWrites e t ps (chunks x.outRow x.rows o)).finishDesc e d)) ∧
    (∀ s1 s2 s3 s4 bs ps row as bs' rs o, rsuOk d x = true → d.format = 3 → row = (if x.dst = 0 then 0 else x.inRow) →
      readsTo e t ((x.stats, x.rows * 16) :: (x.aux, x.rows * 16) :: rowsAt x.dst x.dstPitch x.rows row ++
        rowsAt x.aux2 x.srcPitch x.rows row) s s1 bs →
      destsTo e t ((x.stats, x.rows * 16) :: rowsAt x.dst x.dstPitch x.rows row) s1 s2 ps →
      as = (chunks 16 x.rows (bs.getD 0 [])).map recOf → bs' = (chunks 16 x.rows (bs.getD 1 [])).map recOf →
      (rs, s3) = rsuMergeRows (s.rsuFns t)
        ((as.zip bs').zip ((((bs.drop 2).take x.rows).map lanesOf).zip ((bs.drop (2 + x.rows)).map lanesOf))) s2 →
      (o, s4) = s3.orFree (overlap x.aux2 ((x.rows - 1) * x.srcPitch + row) x.dst ((x.rows - 1) * x.dstPitch + row))
        (rs.flatMap fun r => bytesOfLanes r.2) →
      exec (.rowMerge die i) s = .next (((s4.noteKind e t ((as.zip bs').any fun p => p.1.kind != p.2.kind)).engWrites e t ps
        (rs.flatMap (fun r => recBytes r.1) :: chunks row x.rows o)).finishDesc e d)) ∧
    (∀ s1 s2 bs p recs, rsuOk d x = true → d.format = 4 → readsTo e t (x.recIn :: rowsAt x.src x.srcPitch x.rows x.inRow) s s1 bs →
      destsTo e t [(x.stats, x.rows * 16)] s1 s2 [p] → recs = x.recs x.mode (bs.getD 0 []) →
      exec (.moments die i) s = .next (((s2.noteKind e t (recs.any fun r => r.kind != x.mode)).engWrite e t p
        ((recs.zip (bs.drop 1)).flatMap fun r => recBytes (rowMoments (s.rsuFns t) x.mode r.1 (laneElems x.inFmt r.2)))).finishDesc e d)) ∧
    (∀ s1 s2 bs ps o s3, rsuOk d x = true → d.format = 5 →
      readsTo e t ((x.stats, x.rows * 16) :: (x.aux, if x.aux = 0 then 0 else x.inRow) ::
        (x.aux2, if x.aux2 = 0 then 0 else x.inRow) :: rowsAt x.src x.srcPitch x.rows x.inRow) s s1 bs →
      destsTo e t (rowsAt x.dst x.dstPitch x.rows x.outRow) s1 s2 ps →
      (o, s3) = s2.orFree (rsuClash x) ((((chunks 16 x.rows (bs.getD 0 [])).map recOf).zip (bs.drop 3)).flatMap fun r =>
          bytesOfElems x.outFmt ((normApply (s.rsuFns t) x.mode r.1 (laneElems x.inFmt r.2)
            (if x.aux = 0 then none else some (laneElems x.inFmt (bs.getD 1 [])))
            (if x.aux2 = 0 then none else some (laneElems x.inFmt (bs.getD 2 []))) x.alpha).map (narrow x.outFmt))) →
      exec (.normApply die i) s = .next ((s3.engWrites e t ps (chunks x.outRow x.rows o)).finishDesc e d))

/-- R391–R410. The Sampling Engine: a row's record is written to its slot with its alternatives, and a sequence's slots hold the drafts
that were verified, the token that replaced the first rejected one or the bonus token, and records of status 4 after it; slots that meet
an input get free values, and a descriptor whose fields break R393 is refused.
Where it rests on the model's own reading: log entry 27. -/
def Obligations.SamplingEngine : Prop :=
  ∀ (s : State) (die : Nat) (e : Eng) (d : QDesc) (rest : List QDesc) (t : StepRec) (x : SamDesc), e = ⟨die, 14⟩ →
    s.engineReady e d rest t → x = samDesc d →
    (samOk d x = false → (d.format = 1 → exec (.sampleRows die) s = .next (s.refuseDesc e d)) ∧
      (d.format = 2 → exec (.verifyDrafts die) s = .next (s.refuseDesc e d))) ∧
    (∀ s1 s2 s3 s4 s5 pb lb zb pr pa lists ins r slots outs c, samOk d x = true →
      slots = x.slots d.format → lists = ((chunks 64 x.rows pb).map samParams).flatMap (samLists x) →
      readsTo e t [(x.params, 64 * x.rows)] s s1 [pb] → readsTo e t lists s1 s2 lb →
      outs = (slots.map fun i => (x.result + 64 * i, 64)) ++ (if x.alt = 0 then [] else slots.map fun i => (x.alt + 320 * i, 320)) →
      destsTo e t (slots.map fun i => (x.result + 64 * i, 64)) s3 s4 pr →
      destsTo e t (if x.alt = 0 then [] else slots.map fun i => (x.alt + 320 * i, 320)) s4 s5 pa →
      (d.format = 1 ∧ c = .sampleRows die ∧ readsTo e t (rowsAt x.logits x.pitch x.rows (x.vocab * elemBytes x.inFmt)) s2 s3 zb ∧
          ins = (x.params, 64 * x.rows) :: lists ++ rowsAt x.logits x.pitch x.rows (x.vocab * elemBytes x.inFmt) ∧
          r = samRows (samFns (s.bank t.libBank)) t ((samInputs x ((chunks 64 x.rows pb).map samParams) lb).zip
            (zb.map (laneElems x.inFmt))) s5 ∨
        (∃ u v db xb, d.format = 2 ∧ c = .verifyDrafts die ∧
          readsTo e t (rowsAt x.logits x.pitch (x.rows * (x.drafts + 1)) (x.vocab * elemBytes x.inFmt)) s2 u zb ∧
          readsTo e t (rowsAt x.draft x.pitch (x.rows * x.drafts) (x.vocab * elemBytes x.inFmt)) u v db ∧
          readsTo e t (rowsAt x.tokens 64 x.rows (4 * x.drafts)) v s3 xb ∧
          ins = (x.params, 64 * x.rows) :: lists ++ rowsAt x.logits x.pitch (x.rows * (x.drafts + 1)) (x.vocab * elemBytes x.inFmt) ++
            rowsAt x.draft x.pitch (x.rows * x.drafts) (x.vocab * elemBytes x.inFmt) ++ rowsAt x.tokens 64 x.rows (4 * x.drafts) ∧
          r = samSequences (samFns (s.bank t.libBank)) t x.vocab ((samInputs x ((chunks 64 x.rows pb).map samParams) lb).zip
            ((chunks (x.drafts + 1) x.rows (zb.map (laneElems x.inFmt))).zip ((chunks x.drafts x.rows (db.map (laneElems x.inFmt))).zip
              (xb.map fun b => (chunks 4 x.drafts b).map leNat)))) s5)) →
      ((∀ o, o ∈ outs → ∀ i, i ∈ ins → overlap i.1 i.2 o.1 o.2 = false) → exec c s =
        .next (((r.2.engWrites e t pr (r.1.map (·.record))).engWrites e t pa (r.1.map (·.alts))).finishDesc e d)) ∧
      (∀ o i rb ab u v, o ∈ outs → i ∈ ins → overlap i.1 i.2 o.1 o.2 = true → (rb, u) = freeBytes (64 * slots.length) r.2 →
        (ab, v) = freeBytes (320 * (if x.alt = 0 then 0 else slots.length)) u → exec c s =
        .next (((v.engWrites e t pr (chunks 64 slots.length rb)).engWrites e t pa (chunks 320 slots.length ab)).finishDesc e d)))

/-! ## Expert routing -/

/-- R414, R420, R421, R424–R428, R430–R432. The Scatter Engine. QUEUE_OPEN leaves an open entry and grants its sub-step to every member,
or waits in the side table for one. SCATTER waits there for its grants, then routes its rows or takes up its spill list, places each
choice in order here or as a slot write to another member, writes its route records and spill list, and reports its lane to every member
once its slot writes are acknowledged; a choice that is blocked ends its step. QUEUE_RELEASE opens the next sub-step or closes the entry
with its counter records, and is refused where the spill says otherwise. RETURN writes the rows of this member's homes and sends the
others. What waits in the side table goes first once it may.
Where it rests on the model's own reading: log entries 40 and 41. -/
def Obligations.ScatterDescriptors : Prop :=
  ∀ (s : State) (die i : Nat) (e : Eng) (d : QDesc) (rest : List QDesc) (t : StepRec), i < 2 → e = ⟨die, 12 + i⟩ →
    (∀ (g : EngineSt) p, s.engine die (12 + i) = { g with queue := [], side := [d], inHand := none } → s.engineRuns e = true →
      s.step? d.queue d.step = some t → s.seTable t = some p → d.format = 1 →
      s.granted p (seMatch p t (scatterDesc d).key (scatterDesc d).layer) (scatterDesc d).sub = true →
      exec (.scatter die i) s = exec (.scatter die i) (s.setEngine die (12 + i) fun x => { x with side := [], queue := [d] })) ∧
    (s.engineReady e d rest t → (s.engine die (12 + i)).side = [] →
      (s.seTable t = none → (d.format = 1 → exec (.scatter die i) s = .next (s.refuseDesc e d)) ∧
        (d.format = 2 → exec (.queueOpen die i) s = .next (s.refuseDesc e d)) ∧
        (d.format = 4 → exec (.returnRows die i) s = .next (s.refuseDesc e d))) ∧
      (∀ p m, s.seTable t = some p → d.format = 2 → m = seMatch p t (d.field 0x28 4) (d.field 0x2C 2) →
        (openOk d p = false ∨ s.maskReached p = false → exec (.queueOpen die i) s = .next (s.refuseDesc e d)) ∧
        (openOk d p = true → s.maskReached p = true → 256 ≤ s.wt.entries.length ∨ (s.entryOf m).isSome = true →
          exec (.queueOpen die i) s = .next (s.toSide e d)) ∧
        (∀ s1 q c k, openOk d p = true → s.maskReached p = true → s.wt.entries.length < 256 → s.entryOf m = none →
          destsTo e t [(d.field 0x10 8, 64 + (p.layer (d.field 0x2C 2)).count s.fab.device * p.queueBytes),
            (d.field 0x18 8, if d.field 0x18 8 = 0 then 0 else 16 * d.field 0x30 4 * d.field 0x34 4),
            (d.field 0x20 8, 32 * (p.layer (d.field 0x2C 2)).experts.length)] s s1 [q, c, k] →
          ∀ x : OpenEntry, x = {
              m := m, core := d.core, agent := e.agent, bank := d.bank, queue := t.queue, step := t.index
              model := t.model.getD 0, queueParts := q, combineParts := c, counterParts := k, readySync := d.field 0x2E 1
              returnSync := d.field 0x2F 1, outRowBytes := d.field 0x30 4, homeRows := d.field 0x34 4, subStep := 0, ready := false
              reports := [], fill := [], counts := [] } →
          exec (.queueOpen die i) s =
            .next ((({ s1 with wt := { s1.wt with entries := s1.wt.entries ++ [x] } }).sendGrants m 0 p.mask).finishDesc e d))) ∧
      (∀ p x m, s.seTable t = some p → d.format = 1 → x = scatterDesc d → m = seMatch p t x.key x.layer →
        (s.itemsOf e d = [] → scatterOk d x p = false ∨ s.maskReached p = false →
          exec (.scatter die i) s = .next (s.refuseDesc e d)) ∧
        (s.itemsOf e d = [] → scatterOk d x p = true → s.maskReached p = true → s.granted p m x.sub = false →
          exec (.scatter die i) s = .next (s.toSide e d)) ∧
        (∀ s1 s2 s3 rs cs rows pr po a v, s.itemsOf e d = [] → scatterOk d x p = true → s.maskReached p = true →
          s.granted p m x.sub = true →
          (x.scoring = true → ∃ bs, readsTo e t (rowsAt x.scores x.scorePitch x.count ((x.experts p).length * elemBytes x.fmt)) s s1 bs ∧
            rs = bs.map (fun b =>
              routeRow (rsuFns (s1.bank t.libBank) false) ((elemsOf x.fmt b).map (widen x.fmt)) x.tau x.kMin x.kMax x.gate) ∧
            cs = routedChoices s1.fab.device x.base rs) →
          (x.scoring = false → ∃ u h b, readsTo e t [(x.spillIn, 64)] s u [h] ∧
            readsTo e t [(x.spillIn + 64, 32 * fieldAt h 0 4)] u s1 [b] ∧ rs = [] ∧
            cs = (chunks 32 (fieldAt h 0 4) b).map spillChoice) →
          readsTo e t (cs.map fun c => (x.rows + c.row * x.rowPitch, p.rowBytes)) s1 s2 rows →
          destsTo e t [(x.route, if x.scoring = true then 128 * x.count else 0),
            (x.spillOut, 64 + 32 * (if x.scoring = true then x.kMax * x.count else cs.length))] s2 s3 [pr, po] →
          a = placeAll e p m x (cs.zip rows) ⟨s3, [], [], none⟩ →
          v = (forEach a.out a.s fun s w => s.send w.1 5 (.slotWrite w.2)).engWrites e t [pr, po]
            [rs.flatMap routeRecord, spillList a.spill] →
          (∀ y, a.blocked = some y →
            exec (.scatter die i) s = .next (a.s.takeBlocked t.fn t.ctag t.queue t.index e.agentKind e.agent y)) ∧
          (a.blocked = none → a.out ≠ [] → exec (.scatter die i) s =
            .next ((v.takeHand e d (List.range a.out.length)).setEngine die (12 + i) fun y => { y with spill := a.spill.length })) ∧
          (a.blocked = none → a.out = [] →
            exec (.scatter die i) s = .next (s.settleDesc e d (scatterReport e d t p m x.sub a.spill.length v)))) ∧
        (∀ y r, s.itemsOf e d = y :: r →
          (∀ z w, z ∈ y :: r → z.answer = some w → w.status ≠ ST_OK →
            (∀ z' w', z' ∈ y :: r → z'.answer = some w' → w'.status ≠ ST_OK → w'.detail = w.detail) →
            exec (.scatter die i) s = .next (s.takeBlocked t.fn t.ctag t.queue t.index e.agentKind e.agent w.detail)) ∧
          ((∀ z w, z ∈ y :: r → z.answer = some w → w.status = ST_OK) → (∃ z, z ∈ y :: r ∧ z.answer = none) →
            exec (.scatter die i) s = .next s) ∧
          ((∀ z, z ∈ y :: r → ∃ w, z.answer = some w ∧ w.status = ST_OK) →
            (reportRow ≤ y.row → exec (.scatter die i) s = .next (s.finishDesc e d)) ∧
            (y.row < reportRow → exec (.scatter die i) s =
              .next (s.settleDesc e d (scatterReport e d t p m x.sub (s.engine die (12 + i)).spill s))))) ∧
        (∀ n k v u far, far = (bitList 64 p.mask).filter (· != v.fab.device) → u = forEach far (v.settleWrites.laneDone m n e.lane)
            (fun s o => s.send o 5 (.laneReport ⟨m, v.fab.device, e.lane, n, k, s.itemTag e (reportRow + o)⟩)) →
          (∀ w, u.takeReport ⟨m, v.fab.device, e.lane, n, k, 0⟩ = some w →
            (far = [] → s.settleDesc e d (scatterReport e d t p m n k v) = w.finishDesc e d) ∧
            (far ≠ [] → s.settleDesc e d (scatterReport e d t p m n k v) = w.takeHand e d (far.map (reportRow + ·)))) ∧
          (u.takeReport ⟨m, v.fab.device, e.lane, n, k, 0⟩ = none → s.settleDesc e d (scatterReport e d t p m n k v) =
            (u.seBlock m 0).takeBlocked t.fn t.ctag t.queue t.index e.agentKind e.agent (seDetail 0 u.fab.device)))) ∧
      (∀ p, s.seTable t = some p → d.format = 3 →
        (∀ c, c = .queueReleaseNext die i ∧ d.field 0x16 1 ≠ 2 ∨ c = .queueReleaseClose die i ∧ d.field 0x16 1 = 2 →
          (s.entryOf (seMatch p t (d.field 0x10 4) (d.field 0x14 2)) = none → exec c s = .next (s.refuseDesc e d)) ∧
          (∀ x, s.entryOf (seMatch p t (d.field 0x10 4) (d.field 0x14 2)) = some x →
            x.ready = false ∨ x.queue ≠ t.queue ∨ x.step ≠ t.index ∨ (d.field 0x16 1 = 1 ∧ x.spillTotal = 0) ∨
              (d.field 0x16 1 = 2 ∧ 0 < x.spillTotal) → exec c s = .next (s.refuseDesc e d))) ∧
        (∀ x, s.entryOf (seMatch p t (d.field 0x10 4) (d.field 0x14 2)) = some x → x.queue = t.queue → x.step = t.index →
          d.bytes.length = 64 → zeroAt d.bytes 0x17 41 = true → x.ready = true →
          (d.field 0x16 1 = 1 → 0 < x.spillTotal → exec (.queueReleaseNext die i) s = .next (((s.modEntry x.m fun y => { y with
            fill := [], subStep := y.subStep + 1, ready := false, reports := [] }).sendGrants x.m (x.subStep + 1) p.mask).finishDesc e d)) ∧
          (d.field 0x16 1 = 2 → x.spillTotal = 0 → ∀ s1, s1 = s.entryWrite x x.counterParts 0
              ((List.range (p.layer x.m.layer).experts.length).flatMap (counterRecord x)) →
            exec (.queueReleaseClose die i) s = .next ({ s1 with wt := { s1.wt with
              entries := s1.wt.entries.filter fun y => y.m != x.m } }.finishDesc e d)))) ∧
      (∀ p x m s1 s2 hs rows its far, s.seTable t = some p → d.format = 4 → s.itemsOf e d = [] → d.bytes.length = 64 →
        zeroAt d.bytes 0x32 14 = true → 1 ≤ d.field 0x20 4 → d.field 0x20 4 ≤ 65536 → d.field 0x28 4 % 8 = 0 →
        d.field 0x30 2 < p.layers.length → s.maskReached p = true → m = seMatch p t (d.field 0x2C 4) (d.field 0x30 2) →
        s.entryOf m = some x →
        readsTo e t (rowsAt (d.field 0x18 8) (d.field 0x28 4) (d.field 0x20 4) 8) s s1 hs →
        readsTo e t (rowsAt (d.field 0x10 8) (d.field 0x24 4) (d.field 0x20 4) x.outRowBytes) s1 s2 rows →
        its = (hs.map leNat).zip rows → far = (numbered its).filter (fun y => y.2.1 / 2 ^ 58 % 64 != s2.fab.device) →
        (∀ y, y ∈ far → bit p.mask (y.2.1 / 2 ^ 58 % 64) = true) →
        (∀ s3, returnHere m s2.fab.device its s2 = (s3, none) →
          (far = [] → exec (.returnRows die i) s = .next (s3.finishDesc e d)) ∧
          (far ≠ [] → exec (.returnRows die i) s = .next ((forEach far s3 fun s y => s.send (y.2.1 / 2 ^ 58 % 64) 5
            (.returnRow ⟨m, s2.fab.device, 0, y.2.1, y.2.2, s.itemTag e y.1⟩)).takeHand e d (far.map (·.1))))) ∧
        (∀ s3 y, returnHere m s2.fab.device its s2 = (s3, some y) → exec (.returnRows die i) s =
          .next (s3.takeBlocked t.fn t.ctag t.queue t.index e.agentKind e.agent y))))

/-- R421, R423, R425, R430, R432. What a member receives. A grant is recorded for its match and sub-step, or kept at its granter while the
table is full and sent again while its entry is open in that sub-step. A slot write, a report and a returned row reach the open entry of
their match with their acknowledgement, and are blocked where there is none; the last report of a sub-step makes its queues ready.
Where it rests on the model's own reading: log entries 33 and 41. -/
def Obligations.RoutingItems : Prop :=
  ∀ s : State, s.pp.state = .service →
    (∀ g : GrantMsg, g.dest = s.fab.device → g.granter < 64 →
      (s.grantOf g.m g.subStep = none → s.wt.grants.length < 1024 → ∃ t, exec (.grantReceive g) s = .next t ∧
        t.grantOf g.m g.subStep = some ⟨g.m, g.subStep, 2 ^ g.granter, [], 0⟩ ∧
        t = { s with wt := { s.wt with grants := s.wt.grants ++ [⟨g.m, g.subStep, 2 ^ g.granter, [], 0⟩] } }) ∧
      (s.grantOf g.m g.subStep = none → 1024 ≤ s.wt.grants.length →
        (g.granter = s.fab.device →
          exec (.grantReceive g) s = .next { s with wt := { s.wt with keptGrants := s.wt.keptGrants ++ [g] } }) ∧
        (g.granter ≠ s.fab.device → exec (.grantReceive g) s = .next (s.send g.granter 0 (.grantFull g)))) ∧
      (∀ r, s.grantOf g.m g.subStep = some r → ∃ t, exec (.grantReceive g) s = .next t ∧
        t.grantOf g.m g.subStep = some { r with mask := setBit r.mask g.granter } ∧
        t = { s with wt := { s.wt with grants := t.wt.grants } })) ∧
    (∀ g x s0, s.wt.keptGrants = [g] → s0 = { s with wt := { s.wt with keptGrants := [] } } →
      (s.entryOf g.m = some x → x.subStep = g.subStep →
        (g.dest ≠ s.fab.device → exec (.grantResend 0) s = .next (s0.send g.dest 5 (.grant g))) ∧
        (g.dest = s.fab.device → g.granter < 64 → exec (.grantResend 0) s = exec (.grantReceive g) s0)) ∧
      (s.entryOf g.m = some x → x.subStep ≠ g.subStep → exec (.grantResend 0) s = .next s0) ∧
      (s.entryOf g.m = none → exec (.grantResend 0) s = .next s0)) ∧
    (∀ w x p s1, s.entryFor w.m (some w.sub) = some x → p = s.entryTable x →
      s1 = s.entryWrite x x.queueParts (64 + w.local_ * p.queueBytes + 0x440 + w.slot * (p.rowBytes + 64)) w.bytes →
      (bit p.mask w.source = true → w.lane < 16 → (p.share w.source w.lane).1 ≤ w.slot →
        w.slot < (p.share w.source w.lane).1 + (p.share w.source w.lane).2 → w.local_ < (p.layer x.m.layer).count s.fab.device →
        w.bytes.length = p.rowBytes + 64 → ∃ t : State,
          exec (.slotWriteReceive w) s = .next (t.send w.source 5 (.scatterAck w.tag (kvNo ST_OK 0))) ∧
          t.entryOf w.m = some { x.count w.expert (fun c => { c with received := c.received + 1, bytes := c.bytes + w.bytes.length }) with
            fill := tabMod 0 x.fill (w.local_ * 1024 + w.source * 16 + w.lane) (· + 1) } ∧
          (∀ m, m ≠ w.m → t.entryOf m = s.entryOf m) ∧ t = { s1 with wt := { s.wt with entries := t.wt.entries } }) ∧
      (bit p.mask w.source = false ∨ 16 ≤ w.lane ∨ w.slot < (p.share w.source w.lane).1 ∨
        (p.share w.source w.lane).1 + (p.share w.source w.lane).2 ≤ w.slot ∨ (p.layer x.m.layer).count s.fab.device ≤ w.local_ ∨
        w.bytes.length ≠ p.rowBytes + 64 → exec (.slotWriteReceive w) s = .next ((s.seBlock w.m w.expert).send w.source 5
          (.scatterAck w.tag (kvNo ST_ISOLATION (seDetail w.expert s.fab.device)))))) ∧
    (∀ w, s.entryFor w.m (some w.sub) = none → exec (.slotWriteReceive w) s = .next ((s.seBlock w.m w.expert).send w.source 5
      (.scatterAck w.tag (kvNo ST_ISOLATION (seDetail w.expert s.fab.device))))) ∧
    (∀ r x y s1, s.entryFor r.m (some r.sub) = some x → bit (s.entryTable x).mask r.source = true → r.lane < 16 →
      y = { x with reports := tabSet x.reports (r.source * 16 + r.lane) r.spill } →
      s1 = s.modEntry r.m (fun z => { z with reports := tabSet z.reports (r.source * 16 + r.lane) r.spill }) →
      s1.entryOf r.m = some y ∧
      (y.reports.length ≠ 16 * (s.entryTable x).members →
        exec (.reportReceive r) s = .next (s1.send r.source 5 (.scatterAck r.tag (kvNo ST_OK 0)))) ∧
      (y.reports.length = 16 * (s.entryTable x).members → ∃ t : State,
        exec (.reportReceive r) s = .next ((t.entrySignal y y.readySync).send r.source 5 (.scatterAck r.tag (kvNo ST_OK 0))) ∧
        t.entryOf r.m = some { y with ready := true } ∧
        t.mem = ((forEach (((s.entryTable x).layer x.m.layer).locals s.fab.device) s1 fun s l =>
          s.entryWrite y y.queueParts (64 + l.1 * (s.entryTable y).queueBytes) (y.queueHead l.1 l.2)).entryWrite y y.queueParts 0
            y.openRecord).mem)) ∧
    (∀ r, s.entryFor r.m (some r.sub) = none → exec (.reportReceive r) s = .next ((s.seBlock r.m 0).send r.source 5
      (.scatterAck r.tag (kvNo ST_ISOLATION (seDetail 0 s.fab.device))))) ∧
    (∀ r, s.entryFor r.m none = none → exec (.returnRowReceive r) s = .next ((s.seBlock r.m r.expert).send r.source 5
      (.scatterAck r.tag (kvNo ST_ISOLATION (seDetail r.expert s.fab.device))))) ∧
    (∀ r x s1, s.entryFor r.m none = some x → bits r.handle 0 32 < x.homeRows → x.combineParts.isEmpty = false →
      r.bytes.length = x.outRowBytes → r.handle / 2 ^ 58 = s.fab.device →
      s1 = s.entryWrite x x.combineParts ((bits r.handle 0 32 * 16 + bits r.handle 48 4) * x.outRowBytes) r.bytes →
      exec (.returnRowReceive r) s = .next ((s1.settleWrites.sendSignal ⟨s1.fab.device, x.m.function, x.m.ctag, x.queue, x.step,
        1024 + x.agent, podObject s1.fab.device x.core (16 * ((x.bank + b2n (bit x.returnSync 4)) % 2) + x.returnSync % 16), 1⟩).send
        r.source 5 (.scatterAck r.tag (kvNo ST_OK 0))))

/-! ## Movers, KV blocks and weights -/

/-- R366–R378. Blocks from steps: ALLOC takes the lowest free records of its pool and writes their handles with result 0, or the result 1
where the pool cannot supply them; FREE and SHARE change the counts of their handles in list order, or nothing where one of them fails;
GATHER writes each row from its block or zeros, asks other members for theirs and writes what they answer; PUT writes the blocks. A failed
check is refused with a record of kind 6, ST_KVREFUSED and its reason. A member answers another's request with the data, or with
the reason why it does not.
Where it rests on the model's own reading: log entries 31 and 34. -/
def Obligations.KvOperations : Prop :=
  ∀ s : State,
    (∀ die i e d rest t x, i < 8 → e = ⟨die, 16 + i⟩ → s.engineReady e d rest t → d.format = 0x12 → x = kvDesc d →
      (kvOk d x = false → (x.action ≠ 2 → x.action ≠ 3 → exec (.alloc die i) s = .next (s.refuseDesc e d)) ∧
        (x.action = 2 → exec (.free die i) s = .next (s.refuseDesc e d)) ∧
        (x.action = 3 → exec (.share die i) s = .next (s.refuseDesc e d))) ∧
      (∀ s1 l r, kvOk d x = true → x.action = 1 → destsTo e t [(x.list, 4 * x.count), (x.result, 8)] s s1 [l, r] →
        (s1.pool? x.pool = none → exec (.alloc die i) s =
          .next (s.settleDesc e d (s1.kvRefuse e t 1 3 s1.fab.device (x.pool * 2 ^ 26) x.list 0xFFFF))) ∧
        (∀ p, s1.pool? x.pool = some p →
          (∀ is q, p.alloc (s1.newRec t.ctag x.seq x.hint) x.count = some (is, q) → exec (.alloc die i) s =
            .next (((s1.modPool x.pool fun _ => q).engWrites e t [l, r]
              [is.flatMap fun i => leBytes 4 (x.pool * 2 ^ 26 + i), leBytes 8 0]).finishDesc e d)) ∧
          (p.alloc (s1.newRec t.ctag x.seq x.hint) x.count = none → exec (.alloc die i) s =
            .next ((s1.engWrite e t r (leBytes 8 1)).finishDesc e d)))) ∧
      (∀ c s1 b, kvOk d x = true → c = .free die i ∧ x.action = 2 ∨ c = .share die i ∧ x.action = 3 →
        readsTo e t [(x.list, 4 * x.count)] s s1 [b] →
        (∀ s2, State.kvList t x.action x.amount 0 ((chunks 4 x.count b).map leNat) s1 = .inr s2 →
          exec c s = .next (s2.finishDesc e d)) ∧
        (∀ n h reason owner, State.kvList t x.action x.amount 0 ((chunks 4 x.count b).map leNat) s1 = .inl (n, h, reason, owner) →
          exec c s = .next (s.settleDesc e d (s1.kvRefuse e t x.action reason s1.fab.device h (x.list + 4 * n) owner))))) ∧
    (∀ (p : Pool) k n, ((p.freeRecs n).length < n ∨ p.zeroed.length < n → p.alloc k n = none) ∧
      (n ≤ (p.freeRecs n).length → n ≤ p.zeroed.length → ∃ q, p.alloc k n = some (p.freeRecs n, q) ∧
        q.frames = (p.takeFrames n).2.frames ∧ (∀ i, i ∉ p.freeRecs n → q.record i = p.record i) ∧
        (∀ i f, (i, f) ∈ (p.freeRecs n).zip (p.takeFrames n).1 → q.record i = { k with framePa := p.framePa f }))) ∧
    (∀ t a k n h r, (∀ reason owner, s.holdFault t.fn t.ctag h true = some (reason, owner) →
        State.kvList t a k n (h :: r) s = .inl (n, h, reason, owner)) ∧
      (s.holdFault t.fn t.ctag h true = none → a = 3 → 65535 < (s.kvRec h).count + k →
        State.kvList t a k n (h :: r) s = .inl (n, h, 4, 0xFFFF)) ∧
      (s.holdFault t.fn t.ctag h true = none → a ≠ 3 ∨ (s.kvRec h).count + k ≤ 65535 →
        State.kvList t a k n (h :: r) s = State.kvList t a k (n + 1) r (s.kvOne a k h))) ∧
    (∀ h p k, s.pool? (handlePool h) = some p →
      ((s.kvOne 3 k h).kvRec h = { s.kvRec h with count := (s.kvRec h).count + k } ∧ s.kvOne 3 k h = { s with kv := (s.kvOne 3 k h).kv }) ∧
      (1 < (s.kvRec h).count → (s.kvOne 2 k h).kvRec h = { s.kvRec h with count := (s.kvRec h).count - 1 } ∧
        s.kvOne 2 k h = { s with kv := (s.kvOne 2 k h).kv }) ∧
      ((s.kvRec h).count ≤ 1 → (s.kvOne 2 k h).kvRec h = freshKv ∧ s.kvOne 2 k h = { s with kv := (s.kvOne 2 k h).kv })) ∧
    (∀ die i e d rest t x, i < 8 → e = ⟨die, 16 + i⟩ → s.engineReady e d rest t → d.format = 0x10 → x = copyDesc d →
      (copyOk d x = false → exec (.gather die i) s = .next (s.refuseDesc e d)) ∧
      (copyOk d x = true → (∃ y, y ∈ s.itemsOf e d ∧ y.answer = none) → exec (.gather die i) s = .next s) ∧
      (∀ s1 s2 b ps xs its, copyOk d x = true → its = s.itemsOf e d → (∀ y, y ∈ its → y.answer ≠ none) →
        readsTo e t [(x.table + 8 * x.first, 8 * x.count)] s s1 [b] → destsTo e t (rowsAt x.data x.pitch x.count x.span) s1 s2 ps →
        xs = tableEntries x.count b →
        (its ≠ [] → exec (.gather die i) s = .next (s.settleDesc e d (gatherEnd e t x xs its ps s2)) ∧
          ((∀ y w, y ∈ its → y.answer = some w → w.status = ST_OK) → exec (.gather die i) s =
            .next ((forEach its s2 fun s y => s.engWrite e t (ps.getD y.row []) ((y.answer.map (·.bytes)).getD [])).finishDesc e d))) ∧
        (its = [] → (∀ n y reason owner, firstFault (s2.gatherFault t x) xs = some (n, y, reason, owner) → exec (.gather die i) s =
            .next (s.settleDesc e d (s2.kvRefuse e t 4 reason (if y.remote = true then y.device else s2.fab.device) y.handle
              (x.table + 8 * (x.first + n)) owner))) ∧
          (∀ s3 far, firstFault (s2.gatherFault t x) xs = none →
            far = xs.filter (fun y => y.2.handle != 0 && s2.elsewhere y.2) →
            (∀ pa, gatherRows e t x ((xs.map (·.2)).zip ps) s2 = (s3, some pa) →
              exec (.gather die i) s = .next ((s3.noteBad e d pa).endStep d.queue d.step ST_ECC)) ∧
            (gatherRows e t x ((xs.map (·.2)).zip ps) s2 = (s3, none) →
              (far = [] → exec (.gather die i) s = .next (s3.finishDesc e d)) ∧
              (far ≠ [] → exec (.gather die i) s = .next ((s3.askRows e t x far).takeHand e d (far.map (·.1))))))))) ∧
    (∀ die i e d rest t x, i < 8 → e = ⟨die, 16 + i⟩ → s.engineReady e d rest t → d.format = 0x11 → x = copyDesc d →
      (copyOk d x = false → exec (.put die i) s = .next (s.refuseDesc e d)) ∧
      (∀ s1 s2 b bs used, copyOk d x = true → readsTo e t [(x.table + 8 * x.first, 8 * x.count)] s s1 [b] →
        used = (tableEntries x.count b).filter (fun e => e.2.handle != 0) →
        readsTo e t (used.map fun e => (x.data + e.1 * x.pitch, x.span)) s1 s2 bs →
        (firstFault (s2.putFault t x) (tableEntries x.count b) = none →
          exec (.put die i) s = .next ((putRows x ((used.map (·.2)).zip bs) s2).finishDesc e d)) ∧
        (∀ n y reason owner, firstFault (s2.putFault t x) (tableEntries x.count b) = some (n, y, reason, owner) →
          exec (.put die i) s = .next (s.settleDesc e d (s2.kvRefuse e t 5 reason
            (if y.remote = true then y.device else s2.fab.device) y.handle (x.table + 8 * (x.first + n)) owner))))) ∧
    (∀ (e : Eng) (d : QDesc) t op reason dev h va owner, ∃ v : State,
      s.settleDesc e d (s.kvRefuse e t op reason dev h va owner) = v.endStep d.queue d.step ST_KVREFUSED ∧
      v = { s with host := v.host, aon := v.aon, out := v.out }) ∧
    (∀ r : GatherReq,
      ((tabGet? s.ctx.ctxs r.ctag).any (fun c => c.owner == r.function) = false → ∃ t : State,
        exec (.remoteGatherRequest r) s = .next (t.send r.requester 6 (.kvAck r.tag (kvNo ST_KVREFUSED 1))) ∧ t = { s with aon := t.aon }) ∧
      ((tabGet? s.ctx.ctxs r.ctag).any (fun c => c.owner == r.function) = true →
        (∀ reason owner, s.entryFault r.function r.ctag r.handle r.offset r.span true = some (reason, owner) → ∃ t : State,
          exec (.remoteGatherRequest r) s = .next (t.send r.requester 6 (.kvAck r.tag (kvNo ST_KVREFUSED reason))) ∧
          t = { s with aon := t.aon }) ∧
        (s.entryFault r.function r.ctag r.handle r.offset r.span true = none →
          (s.blockGood r.handle r.offset r.span = true → exec (.remoteGatherRequest r) s =
            .next ((s.modRec r.handle fun k => { k with lastGather := s.aon.clock }).send r.requester 6
              (.gatherData r.tag (s.blockRead r.handle r.offset r.span)))) ∧
          (s.blockGood r.handle r.offset r.span = false → ∃ t : State,
            exec (.remoteGatherRequest r) s = .next (t.send r.requester 6 (.kvAck r.tag (kvNo ST_ECC 0))) ∧
            t = { s with aon := t.aon, rel := t.rel }))))

/-- R445–R449, R488, R492–R495. GATE raises its core's mark, or waits in the gate table while its layer is not committed. WLOAD copies rows
of a tensor from this member's store or from an adapter, and ends its step with a record where a check fails. A SEND writes this member's
own memory or Reducer, or waits for the member that it was sent to. What another member sends is written or queued only for a context that
its function owns here, and acknowledged. REDUCE waits for every contributor's stream and sums the contributions in ascending order of
their members.
Where it rests on the model's own reading: log entries 33 and 39. -/
def Obligations.WeightsAndStreams : Prop :=
  ∀ s : State,
    (∀ die i e d rest t l, i < 8 → e = ⟨die, 16 + i⟩ → s.engineReady e d rest t → d.format = 0x13 → l = d.field 0x10 2 →
      (d.bytes.length ≠ 64 ∨ zeroAt d.bytes 0x12 46 = false ∨ s.layerCount t ≤ l ∨ l < (s.core d.core).mark →
        exec (.gate die i) s = .next (s.refuseDesc e d)) ∧
      (d.bytes.length = 64 → zeroAt d.bytes 0x12 46 = true → l < s.layerCount t → (s.core d.core).mark ≤ l →
        (s.boundNew t = false ∨ l < s.frontierOf t →
          exec (.gate die i) s = .next ((s.setCore d.core fun c => { c with mark := l }).finishDesc e d)) ∧
        (s.boundNew t = true → s.frontierOf t ≤ l →
          ((s.die die).gates.length < 512 → exec (.gate die i) s =
            .next (((s.setDie die fun x => { x with gates := x.gates ++ [d] }).mirrorOut d.queue).popDesc e d)) ∧
          (512 ≤ (s.die die).gates.length → exec (.gate die i) s = .next s)))) ∧
    (∀ die i e d rest t x, i < 8 → e = ⟨die, 16 + i⟩ → s.engineReady e d rest t → d.format = 0x14 → x = wloadDesc d →
      (wloadOk d x t = false → exec (.wload die i) s = .next (s.settleDesc e d (s.wloadRefuse e t x ST_MALFORMED))) ∧
      (∀ s1 rb offs refused, wloadOk d x t = true → readsTo e t [(x.rows, 4 * x.count)] s s1 [rb] →
        offs = (if x.rows = 0 then [x.off] else (chunks 4 x.count rb).map fun b => x.off + leNat b * x.len) →
        refused = s.settleDesc e d (s1.wloadRefuse e t x ST_EPOCH) →
        (x.source = 0 →
          (s1.boundImage t = none → exec (.wload die i) s = .next refused) ∧
          (∀ img, s1.boundImage t = some img →
            (img.tensors[x.tensor]? = none → exec (.wload die i) s = .next refused) ∧
            (∀ r, img.tensors[x.tensor]? = some r →
              (img.shards[r.shard]? = none → exec (.wload die i) s = .next refused) ∧
              (∀ h m, img.shards[r.shard]? = some h → m = s1.model (t.model.getD 0) →
                (bit h.mask s1.fab.device = false ∨ (∃ o, o ∈ offs ∧ r.expandedLen < o + x.len) ∨ h.layer < (s1.core d.core).mark ∨
                  (s1.boundNew t = true ∧ s1.frontierOf t ≤ h.layer) → exec (.wload die i) s = .next refused) ∧
                (bit h.mask s1.fab.device = true → (∀ o, o ∈ offs → o + x.len ≤ r.expandedLen) → (s1.core d.core).mark ≤ h.layer →
                  (s1.boundNew t = false ∨ h.layer < s1.frontierOf t) →
                  (∀ bs s2 ps, s1.storeReads m img h r x.len offs = .inr bs →
                    destsTo e t (rowsAt x.dst x.pitch offs.length x.len) s1 s2 ps →
                    exec (.wload die i) s = .next ((s2.engWrites e t ps bs).finishDesc e d)) ∧
                  (∀ pa, s1.storeReads m img h r x.len offs = .inl (.poison pa) →
                    exec (.wload die i) s = .next ((s.noteBad e d pa).endStep d.queue d.step ST_ECC)) ∧
                  (∀ fs, s1.storeReads m img h r x.len offs = .inl (.frames fs) → exec (.wload die i) s =
                    .next (((forEach fs s1 fun s j => s.restoreFrame (t.model.getD 0) r.shard j h).cometF3 8 (t.model.getD 0 * 16 + die) e.agent
                      (h.storePa + 4096 * fs.headD 0) (t.queue, t.index)).endStep d.queue d.step ST_ECC))))))) ∧
        (x.source ≠ 0 →
          (s1.boundAdapter t = none → exec (.wload die i) s = .next refused) ∧
          (∀ a, s1.boundAdapter t = some a →
            (a.tensors[x.tensor]? = none → exec (.wload die i) s = .next refused) ∧
            (∀ r p, a.tensors[x.tensor]? = some r → p = a.part r x.source →
              ((∃ o, o ∈ offs ∧ p.2 < o + x.len) → exec (.wload die i) s = .next refused) ∧
              (∀ s2 s3 bs ps, (∀ o, o ∈ offs → o + x.len ≤ p.2) → readsTo e t (offs.map fun o => (p.1 + o, x.len)) s1 s2 bs →
                destsTo e t (rowsAt x.dst x.pitch offs.length x.len) s2 s3 ps →
                exec (.wload die i) s = .next ((s3.engWrites e t ps bs).finishDesc e d))))))) ∧
    (∀ die i e d rest t x c, i < 8 → e = ⟨die, 16 + i⟩ → s.engineReady e d rest t → d.format = 0x15 → x = sendDesc d →
      c = .sendRemoteWrite die i ∧ x.mode ≠ 2 ∨ c = .sendReduceStream die i ∧ x.mode = 2 →
      (sendOk d x = false ∨ (s.itemsOf e d = [] ∧ s.reaches x.device = false) → exec c s = .next (s.refuseDesc e d)) ∧
      (∀ y r, sendOk d x = true → s.itemsOf e d = y :: r → (y.answer = none → exec c s = .next s) ∧
        (∀ a, y.answer = some a → (a.status = ST_OK → exec c s = .next (s.finishDesc e d)) ∧
          (a.status = ST_ISOLATION → exec c s = .next (s.takeBlocked t.fn t.ctag t.queue t.index e.agentKind e.agent a.detail)) ∧
          (a.status ≠ ST_OK → a.status ≠ ST_ISOLATION → exec c s = .next ((s.letHand e d).faultStepAt x.device t.queue t.index
            a.kind a.access a.detail a.ri a.va e.agentKind e.agent)))) ∧
      (∀ s1 b, sendOk d x = true → s.itemsOf e d = [] → s.reaches x.device = true → readsTo e t [(x.src, x.len)] s s1 [b] →
        (x.mode ≠ 2 →
          (∀ s2 p, x.device = s1.fab.device → destsTo e t [(x.dst, x.len)] s1 s2 [p] →
            exec c s = .next ((s2.engWrite e t p b).finishDesc e d)) ∧
          (x.device ≠ s1.fab.device → exec c s = .next ((s1.send x.device 6 (.remoteWrite
            ⟨s1.fab.device, t.fn, t.ctag, x.dst, b, s1.itemTag e 0⟩)).takeHand e d [0]))) ∧
        (x.mode = 2 → ∀ k : ReduceChunk, k = ⟨s1.fab.device, t.fn, t.ctag, x.key, x.die, x.inst, b, true, s1.itemTag e 0⟩ →
          (x.device = s1.fab.device → exec c s = .next ((s1.takeChunk k).finishDesc e d)) ∧
          (x.device ≠ s1.fab.device → exec c s = .next ((s1.send x.device 4 (.reduceChunk k)).takeHand e d [0]))))) ∧
    (∀ w : RemoteWrite, s.pp.state = .service → ∀ c, c = s.context w.ctag →
      (s.ownsCtag w.function w.ctag = false → exec (.remoteWriteReceive w) s =
        .next ((s.blockItem w.source w.function w.ctag).send w.source 6 (.kvAck w.tag (kvNo ST_ISOLATION s.fab.device)))) ∧
      (s.ownsCtag w.function w.ctag = true →
        (∀ va, s.xlateNow (relayUnit 0) w.ctag w.dstVa w.bytes.length 2 = .miss va → exec (.remoteWriteReceive w) s =
          .next (s.send w.source 6 (.kvAck w.tag (faultAns 1 0 0xFFFFFFFF va)))) ∧
        (∀ det ri va, s.xlateNow (relayUnit 0) w.ctag w.dstVa w.bytes.length 2 = .fault 5 det ri va → exec (.remoteWriteReceive w) s =
          .next ((s.blockItem w.source w.function w.ctag).send w.source 6 (.kvAck w.tag (kvNo ST_ISOLATION s.fab.device)))) ∧
        (∀ k det ri va, k ≠ 5 → s.xlateNow (relayUnit 0) w.ctag w.dstVa w.bytes.length 2 = .fault k det ri va →
          exec (.remoteWriteReceive w) s = .next (s.send w.source 6 (.kvAck w.tag (faultAns k det ri va)))) ∧
        (∀ ps, s.xlateNow (relayUnit 0) w.ctag w.dstVa w.bytes.length 2 = .ok ps →
          (s.canWrite c ps = true → exec (.remoteWriteReceive w) s =
            .next (((s.storeParts ⟨w.ctag, none, 10, 0⟩ ps w.bytes).settleWrites).send w.source 6 (.kvAck w.tag (kvNo ST_OK 0)))) ∧
          (s.canWrite c ps = false → exec (.remoteWriteReceive w) s = .next (s.send w.source 6
            (.kvAck w.tag (faultAns 3 (hostDetail 6 0 c.homePort) (firstHost ps).1 (firstHost ps).2))))))) ∧
    (∀ c : ReduceChunk, s.pp.state = .service →
      (s.ownsCtag c.function c.ctag = true →
        exec (.reduceChunkReceive c) s = .next ((s.takeChunk c).send c.source 4 (.streamAck c.tag (kvNo ST_OK 0)))) ∧
      (s.ownsCtag c.function c.ctag = false → exec (.reduceChunkReceive c) s =
        .next ((s.blockItem c.source c.function c.ctag).send c.source 4 (.streamAck c.tag (kvNo ST_ISOLATION s.fab.device))))) ∧
    (∀ c : ReduceChunk, (s.die c.die).retired = false → (s.engine c.die (24 + c.inst)).retired = false →
      s.takeChunk c = s.setEngine c.die (24 + c.inst) fun y => { y with ingress := y.ingress ++ [c] }) ∧
    (∀ source f c, s.blockItem source f c = { s with aon := (s.blockItem source f c).aon }) ∧
    (∀ die i e d rest t x mine left far n, i < 2 → e = ⟨die, 24 + i⟩ → s.engineReady e d rest t → d.format = 1 → x = reduceDesc d →
      (mine, left) = takeStreams t.ctag x.key [] (s.engine die (24 + i)).ingress →
      far = (bitList 64 x.mask).filter (· != s.fab.device) → n = x.count * reduceElem x.inFmt →
      (reduceOk d x s.fab.device = false → exec (.reduce die i) s = .next (s.refuseDesc e d)) ∧
      (reduceOk d x s.fab.device = true →
        ((∃ m, m ∈ far ∧ (n < (streamOf mine m).1.length ∨ ((streamOf mine m).2 = true ∧ (streamOf mine m).1.length ≠ n))) →
          ((s.engine die (24 + i)).inHand = none → exec (.reduce die i) s =
            .next ((s.setEngine die (24 + i) fun y => { y with ingress := left }).endStep d.queue d.step ST_MALFORMED)) ∧
          ((s.engine die (24 + i)).inHand = some d → exec (.reduce die i) s = .next (s.endStep d.queue d.step ST_MALFORMED))) ∧
        (∀ s1 s2 ob ps, (∀ m, m ∈ far → (streamOf mine m).1.length ≤ n ∧ ((streamOf mine m).2 = true → (streamOf mine m).1.length = n)) →
          readsTo e t [(x.own, if bit x.mask s.fab.device = true then n else 0)] s s1 [ob] →
          destsTo e t [(x.dst, x.count * reduceElem x.outFmt)] s1 s2 [ps] →
          ((∃ m, m ∈ far ∧ (streamOf mine m).2 = false) →
            ((s2.engine die (24 + i)).inHand = some d → exec (.reduce die i) s = .next s2) ∧
            ((s2.engine die (24 + i)).inHand = none → exec (.reduce die i) s = .next (s2.takeHand e d []))) ∧
          ((∀ m, m ∈ far → (streamOf mine m).2 = true) → exec (.reduce die i) s =
            .next (((s2.engWrite e t ps (bytesOfElems x.outFmt ((sumRows x.count ((bitList 64 x.mask).map fun m =>
              (elemsOf x.inFmt (if m = s2.fab.device then ob else (streamOf mine m).1)).map (widen x.inFmt))).map (narrow x.outFmt)))).setEngine
                die (24 + i) fun y => { y with ingress := left }).finishDesc e d)))))

/-- R363, R365, R367, R369, R382–R385. Upkeep: the lowest frame that awaits scrub is zeroed; a move reserves a zeroed frame of the partner pool
for a block that the policy moves, and commits where the block was not written meanwhile, is made again where it was, and is abandoned
after its third failure, outside SERVICE, or where the block is lost, which is recorded; stale records are freed and their frames sent
to scrub; the patrol goes on from unit to unit and zeroes a half that re-formed.
Where it rests on the model's own reading: log entries 29 and 30. -/
def Obligations.PoolUpkeep : Prop :=
  ∀ s : State,
    (∀ n, s.pool? n = none → exec (.frameScrub n) s = .next s ∧ exec (.staleSweep n) s = .next s ∧
      (∀ r, exec (.tierMoveBegin n r) s = .next s ∧ exec (.tierMoveCommit n r) s = .next s)) ∧
    (∀ n p f, s.pool? n = some p → f = ((List.range p.total).drop p.tableFrames).find? (fun f => (tabGet .scrub p.frames f) == .scrub) →
      (f = none → exec (.frameScrub n) s = .next s) ∧
      (∀ k, f = some k → ∃ t, exec (.frameScrub n) s = .next t ∧ t.pool? n = some { p with frames := tabSet p.frames k .zeroed } ∧
        t.mem = s.mem.devWrite (some p.key) (p.framePa k) (zeros p.block) ∧ (∀ m, m ≠ n → t.pool? m = s.pool? m) ∧
        t = { s with mem := t.mem, kv := { s.kv with pools := t.kv.pools } })) ∧
    (∀ n r p q f k, s.pool? n = some p → k = p.record r → s.pp.state = .service → s.supervisorRuns = true → k.state = .held →
      s.recLive k = true → k.moving = false → s.policyMoves n r k = true → s.pool? (partnerOf (homeOf n k)) = some q →
      q.moveTarget (halfOf k.framePa / 4) = some f → ∃ t, exec (.tierMoveBegin n r) s = .next t ∧
        (∃ p', t.pool? n = some p' ∧ p'.record r = { k with moving := true, moveFrame := f } ∧ p'.moves = p.moves ++ [(r, k.putGen, 0)] ∧
          (∀ i, i ≠ r → p'.record i = p.record i)) ∧
        (∃ q', t.pool? (partnerOf (homeOf n k)) = some q' ∧ tabGet .scrub q'.frames f = .reserved ∧
          (∀ g, g ≠ f → tabGet .scrub q'.frames g = tabGet .scrub q.frames g)) ∧
        (∀ m, m ≠ n → m ≠ partnerOf n → t.pool? m = s.pool? m) ∧ t = { s with kv := { s.kv with pools := t.kv.pools } }) ∧
    (∀ n r p k, s.pool? n = some p → k = p.record r →
      s.pp.state ≠ .service ∨ s.supervisorRuns = false ∨ k.state ≠ .held ∨ s.recLive k = false ∨ k.moving = true ∨
        s.policyMoves n r k = false → exec (.tierMoveBegin n r) s = .next s) ∧
    (∀ n r p gen fails k, s.pool? n = some p → p.moves = [(r, gen, fails)] → k = p.record r →
      (s.pp.state ≠ .service → exec (.tierMoveCommit n r) s = .next (s.abandonMove n r)) ∧
      (s.pp.state = .service → s.poisonAt k.framePa p.block = true → ∃ v : State,
        exec (.tierMoveCommit n r) s = .next ((v.abandonMove n r).modPool n fun p => p.setRec r fun k => { k with state := .lost }) ∧
        v = { s with aon := v.aon, rel := v.rel }) ∧
      (s.pp.state = .service → s.poisonAt k.framePa p.block = false → k.putGen ≠ gen →
        (2 ≤ fails → exec (.tierMoveCommit n r) s = .next (s.abandonMove n r)) ∧
        (fails < 2 → ∃ t, exec (.tierMoveCommit n r) s = .next t ∧ t.pool? n = some { p with moves := [(r, k.putGen, fails + 1)] } ∧
          (∀ m, m ≠ n → t.pool? m = s.pool? m) ∧ t = { s with kv := { s.kv with pools := t.kv.pools } })) ∧
      (∀ a b, s.pp.state = .service → s.poisonAt k.framePa p.block = false → k.putGen = gen → s.pool? (homeOf n k) = some a →
        s.pool? (partnerOf (homeOf n k)) = some b → ∃ t, exec (.tierMoveCommit n r) s = .next t ∧
          t.mem = s.mem.devWrite (some b.key) (b.framePa k.moveFrame) (s.mem.devRead (some a.key) k.framePa a.block) ∧
          (∃ p', t.pool? n = some p' ∧ p'.moves = [] ∧ (∀ i, i ≠ r → p'.record i = p.record i) ∧
            p'.record r = { k with framePa := b.framePa k.moveFrame, inPartner := !k.inPartner, moving := false, moveFrame := 0 }) ∧
          (∃ a', t.pool? (homeOf n k) = some a' ∧ a'.frames = (a.toScrub (a.frameOf k.framePa)).frames) ∧
          t = { s with mem := t.mem, kv := { s.kv with pools := t.kv.pools } })) ∧
    (∀ n r p k, s.pool? n = some p → k = p.record r →
      (k.moving = false → s.abandonMove n r = s) ∧
      (k.moving = true → ∃ p', (s.abandonMove n r).pool? n = some p' ∧
        p'.record r = { k with moving := false, moveFrame := 0 } ∧ (∀ m, m ∈ p'.moves → m.1 ≠ r) ∧
        s.abandonMove n r = { s with kv := { s.kv with pools := (s.abandonMove n r).kv.pools } })) ∧
    (∀ n p, s.pool? n = some p → ∃ t, exec (.staleSweep n) s = .next t ∧
      (∀ p', t.pool? n = some p' → ∀ r, s.recStale (p'.record r) = false) ∧
      (∀ r, (∀ x, x ∈ p.recs → x.1 = r → s.recStale x.2 = false) → (t.pool? n).map (·.record r) = some (p.record r)) ∧
      t = { s with kv := { s.kv with pools := t.kv.pools } }) ∧
    (∀ n p r k, s.pool? n = some p → p.recs = [(r, k)] → s.recStale k = true → k.moving = false → k.inPartner = false →
      exec (.staleSweep n) s = .next (s.modPool n fun q => { q.toScrub (p.frameOf k.framePa) with recs := tabDel q.recs r })) ∧
    (∀ u, (∀ h o, locate (u * 64) ≠ .tier h o) → exec (.patrolScrub u) s = .next s) ∧
    (∀ u h o, locate (u * 64) = .tier h o →
      (s.halfBytes h ≤ o → exec (.patrolScrub u) s = .next s) ∧
      (o < s.halfBytes h → (s.half h).lost = false ∨ s.supervisorRuns = false →
        exec (.patrolScrub u) s = .next { s with tiers := { s.tiers with patrol := u + 1 } }) ∧
      (o < s.halfBytes h → (s.half h).lost = true → s.supervisorRuns = true → ∃ t, exec (.patrolScrub u) s = .next t ∧
        t.half h = { s.half h with lost := false } ∧ (∀ g, g ≠ h → t.half g = s.half g) ∧ t.tiers.patrol = u + 1 ∧
        t.mem.cells = (s.mem.zero (halfBase h) (2 ^ 36)).cells ∧ t = { s with mem := t.mem, tiers := t.tiers }))

/-! ## Reset, registers, the message form and the whole machine -/

/-- Log entries 3 and 4, the model's choice where the spec gives no value. The module after the widest reset is unpowered and OFF: nothing waits,
no memory is listed and every byte reads zero, every channel and every function is fresh, and no context, step, plan, pool or model
exists. -/
def Obligations.ResetState : Prop :=
  State.reset.pending = [] ∧ State.reset.pp.state = .off ∧ State.reset.pp.aonPowered = false ∧ State.reset.pp.hold = false ∧
    State.reset.mem.wf = true ∧ (∀ a, State.reset.mem.read a = 0) ∧ State.reset.mem.poison = [] ∧
    (∀ c, State.reset.chan c = freshChannel) ∧ (∀ f, State.reset.fn f = freshFn) ∧ (∀ q, State.reset.group q = none) ∧
    (∀ n, State.reset.core n = freshCore) ∧
    State.reset.ctx.ctxs = [] ∧ State.reset.dq.steps = [] ∧ State.reset.aon.ring = [] ∧ State.reset.aon.boot = 0 ∧
    State.reset.fab.plan = none ∧ State.reset.fab.members = 1 ∧ State.reset.kv.pools = [] ∧ State.reset.wt.models = [] ∧
    State.reset.pwr.cap = 3600 ∧ State.reset.pwr.matched = false ∧ State.reset.cfg.runtime = [] ∧ State.reset.cfg.siteKey = none ∧
    State.reset.out = []

/-- R56. A change of VAUX alone, in either direction and by any voltage, changes no module state and interrupts no step: nothing but the
power path's own account of VAUX and the log, whose record a change of its goodness leaves. -/
def Obligations.VauxChangesNoModuleState : Prop :=
  ∀ (s : State) (mv : Nat),
    (∃ t, exec (.vauxCeasesGood mv) s = .next t ∧
      t = { s with aon := t.aon, pp := { s.pp with vauxGood := t.pp.vauxGood, vauxMv := t.pp.vauxMv, vauxCeasedAt := t.pp.vauxCeasedAt } } ∧
      (s.pp.aonPowered = true → s.pp.vauxGood = true → mv < 10800 ∨ 13200 < mv → t =
        { s with pp := { s.pp with vauxGood := false, vauxMv := mv, vauxCeasedAt := s.aon.clock } }.comet 0x0107 2 s.aon.lead none [mv])) ∧
    (∃ t, exec (.vauxGoodAgain mv) s = .next t ∧
      t = { s with aon := t.aon, pp := { s.pp with vauxGood := t.pp.vauxGood, vauxMv := t.pp.vauxMv } } ∧
      (s.pp.aonPowered = true → s.pp.vauxGood = false → 10800 ≤ mv → mv ≤ 13200 → t =
        { s with pp := { s.pp with vauxGood := true, vauxMv := mv } }.comet 0x0108 1 s.aon.lead none [mv]))

/-- R149, R151, R154 and R157, for every Phoger command of a sender whose messages are taken. Behind one of its channel that has not
committed it waits, journalled. Otherwise, in this order: a command that fails a check of its header or sender is refused with
that check's status, one for another member is forwarded, one that the state does not admit is refused with ST_STATE, and a deferred
command, here or forwarded, of a sender with 16 outstanding is refused with ST_BUSY, the refusal leaving everything but the journal and
the answers as it was; with fewer than 16 outstanding it is accepted and becomes one more, so that they are at most 16. -/
def Obligations.CommandsAreCheckedAndLimited : Prop :=
  ∀ (i : Instr) (s : State) (h : CmdHdr) (c : Command), i.phoger = some (h, c) → s.takes h.sender (cmdAny c) = true →
    h.sender ≠ .gone →
    (s.channelWaits h.sender = true → exec i s = .next (s.holdCmd h c) ∧ (s.holdCmd h c).sameButCx s ∧
      (s.holdCmd h c).cx.held = s.cx.held ++ [Deferred.mk s.cx.nextId h c]) ∧
    (s.channelWaits h.sender = false →
      (∀ st, s.checkSender h c = some st → exec i s = .next (s.refuseCmd h c st)) ∧
      (s.checkSender h c = none → s.isSelf h.target = false →
        (deferredOps.contains (cmdOpcode c) = true → 16 ≤ s.deferredOf h.sender → exec i s = .next (s.refuseCmd h c ST_BUSY)) ∧
        (deferredOps.contains (cmdOpcode c) = false ∨ s.deferredOf h.sender < 16 → ∃ t v : State, exec i s = .next t ∧
          v = (s.journal h (cmdOpcode c) (some c) true ST_ACCEPTED []).send h.target 3 (.command (relayFn h.sender) (cmdMessage h c)) ∧
          t = { v with fab := { v.fab with
            forwardedCmds := s.fab.forwardedCmds ++ [⟨h.target, relayFn h.sender, h, cmdOpcode c, false⟩] } } ∧
          (deferredOps.contains (cmdOpcode c) = true → t.deferredOf h.sender = s.deferredOf h.sender + 1))) ∧
      (s.checkSender h c = none → s.isSelf h.target = true → s.checkState c = false → exec i s = .next (s.refuseCmd h c ST_STATE)) ∧
      (∀ u, s.admits h c → cmdEffect h c s = .accept u →
        (16 ≤ s.deferredOf h.sender → exec i s = .next (s.refuseCmd h c ST_BUSY)) ∧
        (s.deferredOf h.sender < 16 →
          exec i s = .next (u.acceptCmd h c) ∧ (u.acceptCmd h c).deferredOf h.sender = s.deferredOf h.sender + 1)) ∧
      (∀ st, (s.refuseCmd h c st).sameButCx s ∧ (s.refuseCmd h c st).cx.deferred = s.cx.deferred ∧
        (s.refuseCmd h c st).cx.answers = s.cx.answers ++ [Answer.mk h.sender 2 (cmdOpcode c) h st []]))

/-- R12, R126, R129–R132, R137–R140, R572. What a function reads of the device's registers: all ones from a port that cannot accept the
request; its version, the serial number, itself and the time; a VF nothing of the other ID, TIME and power registers, and zero from reserved
space; the PF the rack position, the log's count, the power state, of other channels the status alone, and all ones from the pod window of
a device that is no member, or of any other where this one is not head; zero from the entry of a queue of no group; and of a narrower
read, the bytes that it addresses.
Where it rests on the model's own reading: log entry 79. -/
def Obligations.RegistersRead : Prop :=
  ∀ (s : State) (a : Access) (f : Nat), fnOf a.master = some f →
    ((s.port a.port).up = false ∨ (s.port a.port).cfgReady = false ∨ (s.port a.port).memOn f = false ∨ (s.port a.port).on f = false →
      ∀ bar off, s.readBar a bar off = 2 ^ 64 - 1) ∧
    (∀ bar off k, off % 8 = 0 → k < 8 → s.readBytes a bar (off + k) 1 = s.readBar a bar off / 2 ^ (8 * k) % 256) ∧
    (s.accepts a = true →
      s.readBar a 0 0 = 2 * 2 ^ 48 + 1 * 2 ^ 40 + (s.cfg.minor % 256) * 2 ^ 32 + (s.cfg.stepping % 65536) * 2 ^ 16 + 8 ∧
      (s.cfg.serial < 2 ^ 64 → s.readBar a 0 8 = s.cfg.serial) ∧
      (f < 256 → s.readBar a 0 0x28 = f * 65536 + masterOf f) ∧
      (s.aon.timebase < 2 ^ 64 → s.readBar a 0 0x1000 = s.aon.timebase) ∧
      (s.aon.boot < 2 ^ 32 → s.readBar a 0 0x1008 = s.aon.boot) ∧
      (1 ≤ f → (∀ o, o < 4096 → o ≠ 0 → o ≠ 8 → o ≠ 0x28 → s.readBar a 0 o = 0) ∧
        (∀ o, o < 4096 → o ≠ 0 → o ≠ 8 → s.readBar a 0 (0x1000 + o) = 0) ∧ (∀ o, 0xA000 ≤ o → s.readBar a 0 o = 0) ∧
        (∀ o, 0x5000 ≤ o → o < 0x8000 → s.readBar a 0 o = 0) ∧ (∀ o, s.readBar a 4 o = 0)) ∧
      (f = 0 → (s.aon.rackPos < 16 → s.readBar a 0 0x30 = s.aon.rackPos) ∧
        (s.aon.logCount < 2 ^ 64 → s.readBar a 0 0x3000 = s.aon.logCount) ∧ s.readBar a 0 0x2000 = s.pwrState ∧
        s.readBar a 0 0x5008 = s.fab.members % 2 ^ 64 ∧
        (∀ o, o / 2 ^ 22 ≠ s.fab.device → s.isHead = false ∨ bit s.fab.members (o / 2 ^ 22) = false → s.readBar a 4 o = 2 ^ 64 - 1) ∧
        (∀ c o, 2 ≤ c → c < 512 → o < 4096 → o ≠ 0x108 → s.readBar a 0 (0x100000 + c * 4096 + o) = 0) ∧
        (∀ c, c < 512 → s.readBar a 0 (0x100000 + c * 4096 + 0x108) = s.mbxStatus c 0x100)) ∧
      (∀ q o, o < 64 → s.group q = none → f = 0 → s.readBar a 2 (q * 64 + o) = 0))

/-- R144, R146, R168, R169. No bit of a command's message is dropped: for every well-formed Phoger command, the bytes of its message
spell its header and its command again, whoever sends it, wherever the message fits a channel.
Where it rests on the model's own reading: log entry 19. -/
def Obligations.CommandMessagesRoundTrip : Prop :=
  ∀ (i : Instr) (h : CmdHdr) (c : Command) (m : Nat), i.wellFormed = true → i.phoger = some (h, c) → h.major = 1 → h.minor ≤ m →
    h.target < 0x40 ∨ h.target = 0xFF → (cmdPayload c).length ≤ 240 → parseMessage h.sender m (cmdMessage h c) = .inr (h, c)

/-- R24. Every step keeps device memory in its canonical form, in every state, whatever command is in front: addresses strictly rise and no
byte is listed that an unlisted one reads as, so that equal memories are equal data.
Where it rests on the model's own reading: log entry 3. -/
def Obligations.StepsKeepMemoryCanonical : Prop :=
  ∀ s t : State, s.mem.wf = true → step s = .next t → t.mem.wf = true
end

