-- ==== Sys2Proof/Laws/Tab.lean ====
section
/-! SUPPORT. Laws of the sparse tables: what is read after a write. -/

namespace Sys2Proof.Machine

variable {α : Type}

@[simp] theorem tabGet?_nil (i : Nat) : tabGet? ([] : Tab α) i = none := rfl

@[simp] theorem tabGet_nil (d : α) (i : Nat) : tabGet d [] i = d := rfl

@[simp] theorem tabGet?_tabSet_self (t : Tab α) (i : Nat) (v : α) : tabGet? (tabSet t i v) i = some v := by
  induction t with
  | nil => simp [tabSet, tabGet?]
  | cons e r ih =>
    obtain ⟨k, w⟩ := e
    simp only [tabSet]
    split
    · simp [tabGet?]
    · split
      · simp [tabGet?]
      · next h => simp [tabGet?, Ne.symm h, ih]

theorem tabGet?_tabSet_of_ne (t : Tab α) (i j : Nat) (v : α) (h : j ≠ i) : tabGet? (tabSet t i v) j = tabGet? t j := by
  induction t with
  | nil => simp [tabSet, tabGet?, Ne.symm h]
  | cons e r ih =>
    obtain ⟨k, w⟩ := e
    simp only [tabSet]
    split
    · simp [tabGet?, Ne.symm h]
    · split
      · next hk => subst hk; simp [tabGet?, Ne.symm h]
      · simp [tabGet?, ih]

@[simp] theorem tabGet_tabSet_self (d : α) (t : Tab α) (i : Nat) (v : α) : tabGet d (tabSet t i v) i = v := by
  simp [tabGet]

theorem tabGet_tabSet_of_ne (d : α) (t : Tab α) (i j : Nat) (v : α) (h : j ≠ i) :
    tabGet d (tabSet t i v) j = tabGet d t j := by
  simp [tabGet, tabGet?_tabSet_of_ne t i j v h]

@[simp] theorem tabGet_tabMod_self (d : α) (t : Tab α) (i : Nat) (f : α → α) :
    tabGet d (tabMod d t i f) i = f (tabGet d t i) := by
  simp [tabMod]

theorem tabGet_tabMod_of_ne (d : α) (t : Tab α) (i j : Nat) (f : α → α) (h : j ≠ i) :
    tabGet d (tabMod d t i f) j = tabGet d t j := by
  simp [tabMod, tabGet_tabSet_of_ne d t i j _ h]

end Sys2Proof.Machine
end

