-- ==== Sys2Proof/Laws/State.lean ====
section
/-! SUPPORT. What each update of one entry of the state leaves as it was, field by field, and what reading the entry gives
afterwards. -/

namespace Sys2Proof.Machine

variable (s : State)

/-! ### setCore -/

@[simp] theorem State.setCore_pending (n : Nat) (f : CoreSt → CoreSt) : (s.setCore n f).pending = s.pending := rfl
@[simp] theorem State.setCore_pp (n : Nat) (f : CoreSt → CoreSt) : (s.setCore n f).pp = s.pp := rfl
@[simp] theorem State.setCore_aon (n : Nat) (f : CoreSt → CoreSt) : (s.setCore n f).aon = s.aon := rfl
@[simp] theorem State.setCore_cfg (n : Nat) (f : CoreSt → CoreSt) : (s.setCore n f).cfg = s.cfg := rfl
@[simp] theorem State.setCore_cx (n : Nat) (f : CoreSt → CoreSt) : (s.setCore n f).cx = s.cx := rfl
@[simp] theorem State.setCore_mbx (n : Nat) (f : CoreSt → CoreSt) : (s.setCore n f).mbx = s.mbx := rfl
@[simp] theorem State.setCore_host (n : Nat) (f : CoreSt → CoreSt) : (s.setCore n f).host = s.host := rfl
@[simp] theorem State.setCore_ctx (n : Nat) (f : CoreSt → CoreSt) : (s.setCore n f).ctx = s.ctx := rfl
@[simp] theorem State.setCore_dq (n : Nat) (f : CoreSt → CoreSt) : (s.setCore n f).dq = s.dq := rfl
@[simp] theorem State.setCore_mem (n : Nat) (f : CoreSt → CoreSt) : (s.setCore n f).mem = s.mem := rfl
@[simp] theorem State.setCore_tiers (n : Nat) (f : CoreSt → CoreSt) : (s.setCore n f).tiers = s.tiers := rfl
@[simp] theorem State.setCore_kv (n : Nat) (f : CoreSt → CoreSt) : (s.setCore n f).kv = s.kv := rfl
@[simp] theorem State.setCore_wt (n : Nat) (f : CoreSt → CoreSt) : (s.setCore n f).wt = s.wt := rfl
@[simp] theorem State.setCore_fab (n : Nat) (f : CoreSt → CoreSt) : (s.setCore n f).fab = s.fab := rfl
@[simp] theorem State.setCore_pwr (n : Nat) (f : CoreSt → CoreSt) : (s.setCore n f).pwr = s.pwr := rfl
@[simp] theorem State.setCore_rel (n : Nat) (f : CoreSt → CoreSt) : (s.setCore n f).rel = s.rel := rfl
@[simp] theorem State.setCore_out (n : Nat) (f : CoreSt → CoreSt) : (s.setCore n f).out = s.out := rfl
@[simp] theorem State.setCore_drawn (n : Nat) (f : CoreSt → CoreSt) : (s.setCore n f).drawn = s.drawn := rfl
@[simp] theorem State.setCore_mark (n : Nat) (f : CoreSt → CoreSt) : (s.setCore n f).mark = s.mark := rfl

/-! ### setDie -/

@[simp] theorem State.setDie_pending (d : Nat) (f : DieSt → DieSt) : (s.setDie d f).pending = s.pending := rfl
@[simp] theorem State.setDie_pp (d : Nat) (f : DieSt → DieSt) : (s.setDie d f).pp = s.pp := rfl
@[simp] theorem State.setDie_aon (d : Nat) (f : DieSt → DieSt) : (s.setDie d f).aon = s.aon := rfl
@[simp] theorem State.setDie_cfg (d : Nat) (f : DieSt → DieSt) : (s.setDie d f).cfg = s.cfg := rfl
@[simp] theorem State.setDie_cx (d : Nat) (f : DieSt → DieSt) : (s.setDie d f).cx = s.cx := rfl
@[simp] theorem State.setDie_mbx (d : Nat) (f : DieSt → DieSt) : (s.setDie d f).mbx = s.mbx := rfl
@[simp] theorem State.setDie_host (d : Nat) (f : DieSt → DieSt) : (s.setDie d f).host = s.host := rfl
@[simp] theorem State.setDie_ctx (d : Nat) (f : DieSt → DieSt) : (s.setDie d f).ctx = s.ctx := rfl
@[simp] theorem State.setDie_dq (d : Nat) (f : DieSt → DieSt) : (s.setDie d f).dq = s.dq := rfl
@[simp] theorem State.setDie_mem (d : Nat) (f : DieSt → DieSt) : (s.setDie d f).mem = s.mem := rfl
@[simp] theorem State.setDie_tiers (d : Nat) (f : DieSt → DieSt) : (s.setDie d f).tiers = s.tiers := rfl
@[simp] theorem State.setDie_kv (d : Nat) (f : DieSt → DieSt) : (s.setDie d f).kv = s.kv := rfl
@[simp] theorem State.setDie_wt (d : Nat) (f : DieSt → DieSt) : (s.setDie d f).wt = s.wt := rfl
@[simp] theorem State.setDie_fab (d : Nat) (f : DieSt → DieSt) : (s.setDie d f).fab = s.fab := rfl
@[simp] theorem State.setDie_pwr (d : Nat) (f : DieSt → DieSt) : (s.setDie d f).pwr = s.pwr := rfl
@[simp] theorem State.setDie_rel (d : Nat) (f : DieSt → DieSt) : (s.setDie d f).rel = s.rel := rfl
@[simp] theorem State.setDie_out (d : Nat) (f : DieSt → DieSt) : (s.setDie d f).out = s.out := rfl
@[simp] theorem State.setDie_drawn (d : Nat) (f : DieSt → DieSt) : (s.setDie d f).drawn = s.drawn := rfl
@[simp] theorem State.setDie_mark (d : Nat) (f : DieSt → DieSt) : (s.setDie d f).mark = s.mark := rfl

/-! ### setEngine -/

@[simp] theorem State.setEngine_pending (d i : Nat) (f : EngineSt → EngineSt) : (s.setEngine d i f).pending = s.pending := rfl
@[simp] theorem State.setEngine_pp (d i : Nat) (f : EngineSt → EngineSt) : (s.setEngine d i f).pp = s.pp := rfl
@[simp] theorem State.setEngine_aon (d i : Nat) (f : EngineSt → EngineSt) : (s.setEngine d i f).aon = s.aon := rfl
@[simp] theorem State.setEngine_cfg (d i : Nat) (f : EngineSt → EngineSt) : (s.setEngine d i f).cfg = s.cfg := rfl
@[simp] theorem State.setEngine_cx (d i : Nat) (f : EngineSt → EngineSt) : (s.setEngine d i f).cx = s.cx := rfl
@[simp] theorem State.setEngine_mbx (d i : Nat) (f : EngineSt → EngineSt) : (s.setEngine d i f).mbx = s.mbx := rfl
@[simp] theorem State.setEngine_host (d i : Nat) (f : EngineSt → EngineSt) : (s.setEngine d i f).host = s.host := rfl
@[simp] theorem State.setEngine_ctx (d i : Nat) (f : EngineSt → EngineSt) : (s.setEngine d i f).ctx = s.ctx := rfl
@[simp] theorem State.setEngine_dq (d i : Nat) (f : EngineSt → EngineSt) : (s.setEngine d i f).dq = s.dq := rfl
@[simp] theorem State.setEngine_mem (d i : Nat) (f : EngineSt → EngineSt) : (s.setEngine d i f).mem = s.mem := rfl
@[simp] theorem State.setEngine_tiers (d i : Nat) (f : EngineSt → EngineSt) : (s.setEngine d i f).tiers = s.tiers := rfl
@[simp] theorem State.setEngine_kv (d i : Nat) (f : EngineSt → EngineSt) : (s.setEngine d i f).kv = s.kv := rfl
@[simp] theorem State.setEngine_wt (d i : Nat) (f : EngineSt → EngineSt) : (s.setEngine d i f).wt = s.wt := rfl
@[simp] theorem State.setEngine_fab (d i : Nat) (f : EngineSt → EngineSt) : (s.setEngine d i f).fab = s.fab := rfl
@[simp] theorem State.setEngine_pwr (d i : Nat) (f : EngineSt → EngineSt) : (s.setEngine d i f).pwr = s.pwr := rfl
@[simp] theorem State.setEngine_rel (d i : Nat) (f : EngineSt → EngineSt) : (s.setEngine d i f).rel = s.rel := rfl
@[simp] theorem State.setEngine_out (d i : Nat) (f : EngineSt → EngineSt) : (s.setEngine d i f).out = s.out := rfl
@[simp] theorem State.setEngine_drawn (d i : Nat) (f : EngineSt → EngineSt) : (s.setEngine d i f).drawn = s.drawn := rfl
@[simp] theorem State.setEngine_mark (d i : Nat) (f : EngineSt → EngineSt) : (s.setEngine d i f).mark = s.mark := rfl

/-! ### setChan -/

@[simp] theorem State.setChan_pending (c : Nat) (f : Channel → Channel) : (s.setChan c f).pending = s.pending := rfl
@[simp] theorem State.setChan_pp (c : Nat) (f : Channel → Channel) : (s.setChan c f).pp = s.pp := rfl
@[simp] theorem State.setChan_aon (c : Nat) (f : Channel → Channel) : (s.setChan c f).aon = s.aon := rfl
@[simp] theorem State.setChan_cfg (c : Nat) (f : Channel → Channel) : (s.setChan c f).cfg = s.cfg := rfl
@[simp] theorem State.setChan_cx (c : Nat) (f : Channel → Channel) : (s.setChan c f).cx = s.cx := rfl
@[simp] theorem State.setChan_host (c : Nat) (f : Channel → Channel) : (s.setChan c f).host = s.host := rfl
@[simp] theorem State.setChan_ctx (c : Nat) (f : Channel → Channel) : (s.setChan c f).ctx = s.ctx := rfl
@[simp] theorem State.setChan_dq (c : Nat) (f : Channel → Channel) : (s.setChan c f).dq = s.dq := rfl
@[simp] theorem State.setChan_fleet (c : Nat) (f : Channel → Channel) : (s.setChan c f).fleet = s.fleet := rfl
@[simp] theorem State.setChan_mem (c : Nat) (f : Channel → Channel) : (s.setChan c f).mem = s.mem := rfl
@[simp] theorem State.setChan_tiers (c : Nat) (f : Channel → Channel) : (s.setChan c f).tiers = s.tiers := rfl
@[simp] theorem State.setChan_kv (c : Nat) (f : Channel → Channel) : (s.setChan c f).kv = s.kv := rfl
@[simp] theorem State.setChan_wt (c : Nat) (f : Channel → Channel) : (s.setChan c f).wt = s.wt := rfl
@[simp] theorem State.setChan_fab (c : Nat) (f : Channel → Channel) : (s.setChan c f).fab = s.fab := rfl
@[simp] theorem State.setChan_pwr (c : Nat) (f : Channel → Channel) : (s.setChan c f).pwr = s.pwr := rfl
@[simp] theorem State.setChan_rel (c : Nat) (f : Channel → Channel) : (s.setChan c f).rel = s.rel := rfl
@[simp] theorem State.setChan_out (c : Nat) (f : Channel → Channel) : (s.setChan c f).out = s.out := rfl
@[simp] theorem State.setChan_drawn (c : Nat) (f : Channel → Channel) : (s.setChan c f).drawn = s.drawn := rfl
@[simp] theorem State.setChan_mark (c : Nat) (f : Channel → Channel) : (s.setChan c f).mark = s.mark := rfl

/-! ### setFn -/

@[simp] theorem State.setFn_pending (n : Nat) (f : HostFn → HostFn) : (s.setFn n f).pending = s.pending := rfl
@[simp] theorem State.setFn_pp (n : Nat) (f : HostFn → HostFn) : (s.setFn n f).pp = s.pp := rfl
@[simp] theorem State.setFn_aon (n : Nat) (f : HostFn → HostFn) : (s.setFn n f).aon = s.aon := rfl
@[simp] theorem State.setFn_cfg (n : Nat) (f : HostFn → HostFn) : (s.setFn n f).cfg = s.cfg := rfl
@[simp] theorem State.setFn_cx (n : Nat) (f : HostFn → HostFn) : (s.setFn n f).cx = s.cx := rfl
@[simp] theorem State.setFn_mbx (n : Nat) (f : HostFn → HostFn) : (s.setFn n f).mbx = s.mbx := rfl
@[simp] theorem State.setFn_ctx (n : Nat) (f : HostFn → HostFn) : (s.setFn n f).ctx = s.ctx := rfl
@[simp] theorem State.setFn_dq (n : Nat) (f : HostFn → HostFn) : (s.setFn n f).dq = s.dq := rfl
@[simp] theorem State.setFn_fleet (n : Nat) (f : HostFn → HostFn) : (s.setFn n f).fleet = s.fleet := rfl
@[simp] theorem State.setFn_mem (n : Nat) (f : HostFn → HostFn) : (s.setFn n f).mem = s.mem := rfl
@[simp] theorem State.setFn_tiers (n : Nat) (f : HostFn → HostFn) : (s.setFn n f).tiers = s.tiers := rfl
@[simp] theorem State.setFn_kv (n : Nat) (f : HostFn → HostFn) : (s.setFn n f).kv = s.kv := rfl
@[simp] theorem State.setFn_wt (n : Nat) (f : HostFn → HostFn) : (s.setFn n f).wt = s.wt := rfl
@[simp] theorem State.setFn_fab (n : Nat) (f : HostFn → HostFn) : (s.setFn n f).fab = s.fab := rfl
@[simp] theorem State.setFn_pwr (n : Nat) (f : HostFn → HostFn) : (s.setFn n f).pwr = s.pwr := rfl
@[simp] theorem State.setFn_rel (n : Nat) (f : HostFn → HostFn) : (s.setFn n f).rel = s.rel := rfl
@[simp] theorem State.setFn_out (n : Nat) (f : HostFn → HostFn) : (s.setFn n f).out = s.out := rfl
@[simp] theorem State.setFn_drawn (n : Nat) (f : HostFn → HostFn) : (s.setFn n f).drawn = s.drawn := rfl
@[simp] theorem State.setFn_mark (n : Nat) (f : HostFn → HostFn) : (s.setFn n f).mark = s.mark := rfl

/-! ### setQueue -/

@[simp] theorem State.setQueue_pending (q : Nat) (f : Queue → Queue) : (s.setQueue q f).pending = s.pending := rfl
@[simp] theorem State.setQueue_pp (q : Nat) (f : Queue → Queue) : (s.setQueue q f).pp = s.pp := rfl
@[simp] theorem State.setQueue_aon (q : Nat) (f : Queue → Queue) : (s.setQueue q f).aon = s.aon := rfl
@[simp] theorem State.setQueue_cfg (q : Nat) (f : Queue → Queue) : (s.setQueue q f).cfg = s.cfg := rfl
@[simp] theorem State.setQueue_cx (q : Nat) (f : Queue → Queue) : (s.setQueue q f).cx = s.cx := rfl
@[simp] theorem State.setQueue_mbx (q : Nat) (f : Queue → Queue) : (s.setQueue q f).mbx = s.mbx := rfl
@[simp] theorem State.setQueue_host (q : Nat) (f : Queue → Queue) : (s.setQueue q f).host = s.host := rfl
@[simp] theorem State.setQueue_ctx (q : Nat) (f : Queue → Queue) : (s.setQueue q f).ctx = s.ctx := rfl
@[simp] theorem State.setQueue_fleet (q : Nat) (f : Queue → Queue) : (s.setQueue q f).fleet = s.fleet := rfl
@[simp] theorem State.setQueue_mem (q : Nat) (f : Queue → Queue) : (s.setQueue q f).mem = s.mem := rfl
@[simp] theorem State.setQueue_tiers (q : Nat) (f : Queue → Queue) : (s.setQueue q f).tiers = s.tiers := rfl
@[simp] theorem State.setQueue_kv (q : Nat) (f : Queue → Queue) : (s.setQueue q f).kv = s.kv := rfl
@[simp] theorem State.setQueue_wt (q : Nat) (f : Queue → Queue) : (s.setQueue q f).wt = s.wt := rfl
@[simp] theorem State.setQueue_fab (q : Nat) (f : Queue → Queue) : (s.setQueue q f).fab = s.fab := rfl
@[simp] theorem State.setQueue_pwr (q : Nat) (f : Queue → Queue) : (s.setQueue q f).pwr = s.pwr := rfl
@[simp] theorem State.setQueue_rel (q : Nat) (f : Queue → Queue) : (s.setQueue q f).rel = s.rel := rfl
@[simp] theorem State.setQueue_out (q : Nat) (f : Queue → Queue) : (s.setQueue q f).out = s.out := rfl
@[simp] theorem State.setQueue_drawn (q : Nat) (f : Queue → Queue) : (s.setQueue q f).drawn = s.drawn := rfl
@[simp] theorem State.setQueue_mark (q : Nat) (f : Queue → Queue) : (s.setQueue q f).mark = s.mark := rfl

/-! ### setHalf -/

@[simp] theorem State.setHalf_pending (h : Nat) (f : HalfSt → HalfSt) : (s.setHalf h f).pending = s.pending := rfl
@[simp] theorem State.setHalf_pp (h : Nat) (f : HalfSt → HalfSt) : (s.setHalf h f).pp = s.pp := rfl
@[simp] theorem State.setHalf_aon (h : Nat) (f : HalfSt → HalfSt) : (s.setHalf h f).aon = s.aon := rfl
@[simp] theorem State.setHalf_cfg (h : Nat) (f : HalfSt → HalfSt) : (s.setHalf h f).cfg = s.cfg := rfl
@[simp] theorem State.setHalf_cx (h : Nat) (f : HalfSt → HalfSt) : (s.setHalf h f).cx = s.cx := rfl
@[simp] theorem State.setHalf_mbx (h : Nat) (f : HalfSt → HalfSt) : (s.setHalf h f).mbx = s.mbx := rfl
@[simp] theorem State.setHalf_host (h : Nat) (f : HalfSt → HalfSt) : (s.setHalf h f).host = s.host := rfl
@[simp] theorem State.setHalf_ctx (h : Nat) (f : HalfSt → HalfSt) : (s.setHalf h f).ctx = s.ctx := rfl
@[simp] theorem State.setHalf_dq (h : Nat) (f : HalfSt → HalfSt) : (s.setHalf h f).dq = s.dq := rfl
@[simp] theorem State.setHalf_fleet (h : Nat) (f : HalfSt → HalfSt) : (s.setHalf h f).fleet = s.fleet := rfl
@[simp] theorem State.setHalf_mem (h : Nat) (f : HalfSt → HalfSt) : (s.setHalf h f).mem = s.mem := rfl
@[simp] theorem State.setHalf_kv (h : Nat) (f : HalfSt → HalfSt) : (s.setHalf h f).kv = s.kv := rfl
@[simp] theorem State.setHalf_wt (h : Nat) (f : HalfSt → HalfSt) : (s.setHalf h f).wt = s.wt := rfl
@[simp] theorem State.setHalf_fab (h : Nat) (f : HalfSt → HalfSt) : (s.setHalf h f).fab = s.fab := rfl
@[simp] theorem State.setHalf_pwr (h : Nat) (f : HalfSt → HalfSt) : (s.setHalf h f).pwr = s.pwr := rfl
@[simp] theorem State.setHalf_rel (h : Nat) (f : HalfSt → HalfSt) : (s.setHalf h f).rel = s.rel := rfl
@[simp] theorem State.setHalf_out (h : Nat) (f : HalfSt → HalfSt) : (s.setHalf h f).out = s.out := rfl
@[simp] theorem State.setHalf_drawn (h : Nat) (f : HalfSt → HalfSt) : (s.setHalf h f).drawn = s.drawn := rfl
@[simp] theorem State.setHalf_mark (h : Nat) (f : HalfSt → HalfSt) : (s.setHalf h f).mark = s.mark := rfl

/-! ### setLink -/

@[simp] theorem State.setLink_pending (l : Nat) (f : Link → Link) : (s.setLink l f).pending = s.pending := rfl
@[simp] theorem State.setLink_pp (l : Nat) (f : Link → Link) : (s.setLink l f).pp = s.pp := rfl
@[simp] theorem State.setLink_aon (l : Nat) (f : Link → Link) : (s.setLink l f).aon = s.aon := rfl
@[simp] theorem State.setLink_cfg (l : Nat) (f : Link → Link) : (s.setLink l f).cfg = s.cfg := rfl
@[simp] theorem State.setLink_cx (l : Nat) (f : Link → Link) : (s.setLink l f).cx = s.cx := rfl
@[simp] theorem State.setLink_mbx (l : Nat) (f : Link → Link) : (s.setLink l f).mbx = s.mbx := rfl
@[simp] theorem State.setLink_host (l : Nat) (f : Link → Link) : (s.setLink l f).host = s.host := rfl
@[simp] theorem State.setLink_ctx (l : Nat) (f : Link → Link) : (s.setLink l f).ctx = s.ctx := rfl
@[simp] theorem State.setLink_dq (l : Nat) (f : Link → Link) : (s.setLink l f).dq = s.dq := rfl
@[simp] theorem State.setLink_fleet (l : Nat) (f : Link → Link) : (s.setLink l f).fleet = s.fleet := rfl
@[simp] theorem State.setLink_mem (l : Nat) (f : Link → Link) : (s.setLink l f).mem = s.mem := rfl
@[simp] theorem State.setLink_tiers (l : Nat) (f : Link → Link) : (s.setLink l f).tiers = s.tiers := rfl
@[simp] theorem State.setLink_kv (l : Nat) (f : Link → Link) : (s.setLink l f).kv = s.kv := rfl
@[simp] theorem State.setLink_wt (l : Nat) (f : Link → Link) : (s.setLink l f).wt = s.wt := rfl
@[simp] theorem State.setLink_pwr (l : Nat) (f : Link → Link) : (s.setLink l f).pwr = s.pwr := rfl
@[simp] theorem State.setLink_rel (l : Nat) (f : Link → Link) : (s.setLink l f).rel = s.rel := rfl
@[simp] theorem State.setLink_out (l : Nat) (f : Link → Link) : (s.setLink l f).out = s.out := rfl
@[simp] theorem State.setLink_drawn (l : Nat) (f : Link → Link) : (s.setLink l f).drawn = s.drawn := rfl
@[simp] theorem State.setLink_mark (l : Nat) (f : Link → Link) : (s.setLink l f).mark = s.mark := rfl

/-! ### setModel -/

@[simp] theorem State.setModel_pending (m : Nat) (f : Model → Model) : (s.setModel m f).pending = s.pending := rfl
@[simp] theorem State.setModel_pp (m : Nat) (f : Model → Model) : (s.setModel m f).pp = s.pp := rfl
@[simp] theorem State.setModel_aon (m : Nat) (f : Model → Model) : (s.setModel m f).aon = s.aon := rfl
@[simp] theorem State.setModel_cfg (m : Nat) (f : Model → Model) : (s.setModel m f).cfg = s.cfg := rfl
@[simp] theorem State.setModel_cx (m : Nat) (f : Model → Model) : (s.setModel m f).cx = s.cx := rfl
@[simp] theorem State.setModel_mbx (m : Nat) (f : Model → Model) : (s.setModel m f).mbx = s.mbx := rfl
@[simp] theorem State.setModel_host (m : Nat) (f : Model → Model) : (s.setModel m f).host = s.host := rfl
@[simp] theorem State.setModel_ctx (m : Nat) (f : Model → Model) : (s.setModel m f).ctx = s.ctx := rfl
@[simp] theorem State.setModel_dq (m : Nat) (f : Model → Model) : (s.setModel m f).dq = s.dq := rfl
@[simp] theorem State.setModel_fleet (m : Nat) (f : Model → Model) : (s.setModel m f).fleet = s.fleet := rfl
@[simp] theorem State.setModel_mem (m : Nat) (f : Model → Model) : (s.setModel m f).mem = s.mem := rfl
@[simp] theorem State.setModel_tiers (m : Nat) (f : Model → Model) : (s.setModel m f).tiers = s.tiers := rfl
@[simp] theorem State.setModel_kv (m : Nat) (f : Model → Model) : (s.setModel m f).kv = s.kv := rfl
@[simp] theorem State.setModel_fab (m : Nat) (f : Model → Model) : (s.setModel m f).fab = s.fab := rfl
@[simp] theorem State.setModel_pwr (m : Nat) (f : Model → Model) : (s.setModel m f).pwr = s.pwr := rfl
@[simp] theorem State.setModel_rel (m : Nat) (f : Model → Model) : (s.setModel m f).rel = s.rel := rfl
@[simp] theorem State.setModel_out (m : Nat) (f : Model → Model) : (s.setModel m f).out = s.out := rfl
@[simp] theorem State.setModel_drawn (m : Nat) (f : Model → Model) : (s.setModel m f).drawn = s.drawn := rfl
@[simp] theorem State.setModel_mark (m : Nat) (f : Model → Model) : (s.setModel m f).mark = s.mark := rfl

/-! ### setDiePower -/

@[simp] theorem State.setDiePower_pending (d : Nat) (f : DiePower → DiePower) : (s.setDiePower d f).pending = s.pending := rfl
@[simp] theorem State.setDiePower_pp (d : Nat) (f : DiePower → DiePower) : (s.setDiePower d f).pp = s.pp := rfl
@[simp] theorem State.setDiePower_aon (d : Nat) (f : DiePower → DiePower) : (s.setDiePower d f).aon = s.aon := rfl
@[simp] theorem State.setDiePower_cfg (d : Nat) (f : DiePower → DiePower) : (s.setDiePower d f).cfg = s.cfg := rfl
@[simp] theorem State.setDiePower_cx (d : Nat) (f : DiePower → DiePower) : (s.setDiePower d f).cx = s.cx := rfl
@[simp] theorem State.setDiePower_mbx (d : Nat) (f : DiePower → DiePower) : (s.setDiePower d f).mbx = s.mbx := rfl
@[simp] theorem State.setDiePower_host (d : Nat) (f : DiePower → DiePower) : (s.setDiePower d f).host = s.host := rfl
@[simp] theorem State.setDiePower_ctx (d : Nat) (f : DiePower → DiePower) : (s.setDiePower d f).ctx = s.ctx := rfl
@[simp] theorem State.setDiePower_dq (d : Nat) (f : DiePower → DiePower) : (s.setDiePower d f).dq = s.dq := rfl
@[simp] theorem State.setDiePower_fleet (d : Nat) (f : DiePower → DiePower) : (s.setDiePower d f).fleet = s.fleet := rfl
@[simp] theorem State.setDiePower_mem (d : Nat) (f : DiePower → DiePower) : (s.setDiePower d f).mem = s.mem := rfl
@[simp] theorem State.setDiePower_tiers (d : Nat) (f : DiePower → DiePower) : (s.setDiePower d f).tiers = s.tiers := rfl
@[simp] theorem State.setDiePower_kv (d : Nat) (f : DiePower → DiePower) : (s.setDiePower d f).kv = s.kv := rfl
@[simp] theorem State.setDiePower_wt (d : Nat) (f : DiePower → DiePower) : (s.setDiePower d f).wt = s.wt := rfl
@[simp] theorem State.setDiePower_fab (d : Nat) (f : DiePower → DiePower) : (s.setDiePower d f).fab = s.fab := rfl
@[simp] theorem State.setDiePower_rel (d : Nat) (f : DiePower → DiePower) : (s.setDiePower d f).rel = s.rel := rfl
@[simp] theorem State.setDiePower_out (d : Nat) (f : DiePower → DiePower) : (s.setDiePower d f).out = s.out := rfl
@[simp] theorem State.setDiePower_drawn (d : Nat) (f : DiePower → DiePower) : (s.setDiePower d f).drawn = s.drawn := rfl
@[simp] theorem State.setDiePower_mark (d : Nat) (f : DiePower → DiePower) : (s.setDiePower d f).mark = s.mark := rfl

/-! ### emit -/

@[simp] theorem State.emit_pending (o : Output) : (s.emit o).pending = s.pending := rfl
@[simp] theorem State.emit_pp (o : Output) : (s.emit o).pp = s.pp := rfl
@[simp] theorem State.emit_aon (o : Output) : (s.emit o).aon = s.aon := rfl
@[simp] theorem State.emit_cfg (o : Output) : (s.emit o).cfg = s.cfg := rfl
@[simp] theorem State.emit_cx (o : Output) : (s.emit o).cx = s.cx := rfl
@[simp] theorem State.emit_mbx (o : Output) : (s.emit o).mbx = s.mbx := rfl
@[simp] theorem State.emit_host (o : Output) : (s.emit o).host = s.host := rfl
@[simp] theorem State.emit_ctx (o : Output) : (s.emit o).ctx = s.ctx := rfl
@[simp] theorem State.emit_dq (o : Output) : (s.emit o).dq = s.dq := rfl
@[simp] theorem State.emit_fleet (o : Output) : (s.emit o).fleet = s.fleet := rfl
@[simp] theorem State.emit_mem (o : Output) : (s.emit o).mem = s.mem := rfl
@[simp] theorem State.emit_tiers (o : Output) : (s.emit o).tiers = s.tiers := rfl
@[simp] theorem State.emit_kv (o : Output) : (s.emit o).kv = s.kv := rfl
@[simp] theorem State.emit_wt (o : Output) : (s.emit o).wt = s.wt := rfl
@[simp] theorem State.emit_fab (o : Output) : (s.emit o).fab = s.fab := rfl
@[simp] theorem State.emit_pwr (o : Output) : (s.emit o).pwr = s.pwr := rfl
@[simp] theorem State.emit_rel (o : Output) : (s.emit o).rel = s.rel := rfl
@[simp] theorem State.emit_drawn (o : Output) : (s.emit o).drawn = s.drawn := rfl
@[simp] theorem State.emit_mark (o : Output) : (s.emit o).mark = s.mark := rfl

/-! ### comet -/

@[simp] theorem State.comet_pending (c v i : Nat) (t : Option Nat) (p : List Nat) : (s.comet c v i t p).pending = s.pending := rfl
@[simp] theorem State.comet_pp (c v i : Nat) (t : Option Nat) (p : List Nat) : (s.comet c v i t p).pp = s.pp := rfl
@[simp] theorem State.comet_cfg (c v i : Nat) (t : Option Nat) (p : List Nat) : (s.comet c v i t p).cfg = s.cfg := rfl
@[simp] theorem State.comet_cx (c v i : Nat) (t : Option Nat) (p : List Nat) : (s.comet c v i t p).cx = s.cx := rfl
@[simp] theorem State.comet_mbx (c v i : Nat) (t : Option Nat) (p : List Nat) : (s.comet c v i t p).mbx = s.mbx := rfl
@[simp] theorem State.comet_host (c v i : Nat) (t : Option Nat) (p : List Nat) : (s.comet c v i t p).host = s.host := rfl
@[simp] theorem State.comet_ctx (c v i : Nat) (t : Option Nat) (p : List Nat) : (s.comet c v i t p).ctx = s.ctx := rfl
@[simp] theorem State.comet_dq (c v i : Nat) (t : Option Nat) (p : List Nat) : (s.comet c v i t p).dq = s.dq := rfl
@[simp] theorem State.comet_fleet (c v i : Nat) (t : Option Nat) (p : List Nat) : (s.comet c v i t p).fleet = s.fleet := rfl
@[simp] theorem State.comet_mem (c v i : Nat) (t : Option Nat) (p : List Nat) : (s.comet c v i t p).mem = s.mem := rfl
@[simp] theorem State.comet_tiers (c v i : Nat) (t : Option Nat) (p : List Nat) : (s.comet c v i t p).tiers = s.tiers := rfl
@[simp] theorem State.comet_kv (c v i : Nat) (t : Option Nat) (p : List Nat) : (s.comet c v i t p).kv = s.kv := rfl
@[simp] theorem State.comet_wt (c v i : Nat) (t : Option Nat) (p : List Nat) : (s.comet c v i t p).wt = s.wt := rfl
@[simp] theorem State.comet_fab (c v i : Nat) (t : Option Nat) (p : List Nat) : (s.comet c v i t p).fab = s.fab := rfl
@[simp] theorem State.comet_pwr (c v i : Nat) (t : Option Nat) (p : List Nat) : (s.comet c v i t p).pwr = s.pwr := rfl
@[simp] theorem State.comet_rel (c v i : Nat) (t : Option Nat) (p : List Nat) : (s.comet c v i t p).rel = s.rel := rfl
@[simp] theorem State.comet_out (c v i : Nat) (t : Option Nat) (p : List Nat) : (s.comet c v i t p).out = s.out := rfl
@[simp] theorem State.comet_drawn (c v i : Nat) (t : Option Nat) (p : List Nat) : (s.comet c v i t p).drawn = s.drawn := rfl
@[simp] theorem State.comet_mark (c v i : Nat) (t : Option Nat) (p : List Nat) : (s.comet c v i t p).mark = s.mark := rfl

/-! ### cometF0 -/

@[simp] theorem State.cometF0_pending (a b c d : Nat) : (s.cometF0 a b c d).pending = s.pending := rfl
@[simp] theorem State.cometF0_pp (a b c d : Nat) : (s.cometF0 a b c d).pp = s.pp := rfl
@[simp] theorem State.cometF0_cfg (a b c d : Nat) : (s.cometF0 a b c d).cfg = s.cfg := rfl
@[simp] theorem State.cometF0_cx (a b c d : Nat) : (s.cometF0 a b c d).cx = s.cx := rfl
@[simp] theorem State.cometF0_mbx (a b c d : Nat) : (s.cometF0 a b c d).mbx = s.mbx := rfl
@[simp] theorem State.cometF0_host (a b c d : Nat) : (s.cometF0 a b c d).host = s.host := rfl
@[simp] theorem State.cometF0_ctx (a b c d : Nat) : (s.cometF0 a b c d).ctx = s.ctx := rfl
@[simp] theorem State.cometF0_dq (a b c d : Nat) : (s.cometF0 a b c d).dq = s.dq := rfl
@[simp] theorem State.cometF0_fleet (a b c d : Nat) : (s.cometF0 a b c d).fleet = s.fleet := rfl
@[simp] theorem State.cometF0_mem (a b c d : Nat) : (s.cometF0 a b c d).mem = s.mem := rfl
@[simp] theorem State.cometF0_tiers (a b c d : Nat) : (s.cometF0 a b c d).tiers = s.tiers := rfl
@[simp] theorem State.cometF0_kv (a b c d : Nat) : (s.cometF0 a b c d).kv = s.kv := rfl
@[simp] theorem State.cometF0_wt (a b c d : Nat) : (s.cometF0 a b c d).wt = s.wt := rfl
@[simp] theorem State.cometF0_fab (a b c d : Nat) : (s.cometF0 a b c d).fab = s.fab := rfl
@[simp] theorem State.cometF0_pwr (a b c d : Nat) : (s.cometF0 a b c d).pwr = s.pwr := rfl
@[simp] theorem State.cometF0_rel (a b c d : Nat) : (s.cometF0 a b c d).rel = s.rel := rfl
@[simp] theorem State.cometF0_out (a b c d : Nat) : (s.cometF0 a b c d).out = s.out := rfl
@[simp] theorem State.cometF0_drawn (a b c d : Nat) : (s.cometF0 a b c d).drawn = s.drawn := rfl
@[simp] theorem State.cometF0_mark (a b c d : Nat) : (s.cometF0 a b c d).mark = s.mark := rfl

/-! ### cometF5 -/

@[simp] theorem State.cometF5_pending (a b c d e : Nat) : (s.cometF5 a b c d e).pending = s.pending := rfl
@[simp] theorem State.cometF5_pp (a b c d e : Nat) : (s.cometF5 a b c d e).pp = s.pp := rfl
@[simp] theorem State.cometF5_cfg (a b c d e : Nat) : (s.cometF5 a b c d e).cfg = s.cfg := rfl
@[simp] theorem State.cometF5_cx (a b c d e : Nat) : (s.cometF5 a b c d e).cx = s.cx := rfl
@[simp] theorem State.cometF5_mbx (a b c d e : Nat) : (s.cometF5 a b c d e).mbx = s.mbx := rfl
@[simp] theorem State.cometF5_host (a b c d e : Nat) : (s.cometF5 a b c d e).host = s.host := rfl
@[simp] theorem State.cometF5_ctx (a b c d e : Nat) : (s.cometF5 a b c d e).ctx = s.ctx := rfl
@[simp] theorem State.cometF5_dq (a b c d e : Nat) : (s.cometF5 a b c d e).dq = s.dq := rfl
@[simp] theorem State.cometF5_fleet (a b c d e : Nat) : (s.cometF5 a b c d e).fleet = s.fleet := rfl
@[simp] theorem State.cometF5_mem (a b c d e : Nat) : (s.cometF5 a b c d e).mem = s.mem := rfl
@[simp] theorem State.cometF5_tiers (a b c d e : Nat) : (s.cometF5 a b c d e).tiers = s.tiers := rfl
@[simp] theorem State.cometF5_kv (a b c d e : Nat) : (s.cometF5 a b c d e).kv = s.kv := rfl
@[simp] theorem State.cometF5_wt (a b c d e : Nat) : (s.cometF5 a b c d e).wt = s.wt := rfl
@[simp] theorem State.cometF5_fab (a b c d e : Nat) : (s.cometF5 a b c d e).fab = s.fab := rfl
@[simp] theorem State.cometF5_pwr (a b c d e : Nat) : (s.cometF5 a b c d e).pwr = s.pwr := rfl
@[simp] theorem State.cometF5_rel (a b c d e : Nat) : (s.cometF5 a b c d e).rel = s.rel := rfl
@[simp] theorem State.cometF5_out (a b c d e : Nat) : (s.cometF5 a b c d e).out = s.out := rfl
@[simp] theorem State.cometF5_drawn (a b c d e : Nat) : (s.cometF5 a b c d e).drawn = s.drawn := rfl
@[simp] theorem State.cometF5_mark (a b c d e : Nat) : (s.cometF5 a b c d e).mark = s.mark := rfl

/-! ### cometF7 -/

@[simp] theorem State.cometF7_pending (a b : Nat) (p : List Nat) : (s.cometF7 a b p).pending = s.pending := rfl
@[simp] theorem State.cometF7_pp (a b : Nat) (p : List Nat) : (s.cometF7 a b p).pp = s.pp := rfl
@[simp] theorem State.cometF7_cfg (a b : Nat) (p : List Nat) : (s.cometF7 a b p).cfg = s.cfg := rfl
@[simp] theorem State.cometF7_cx (a b : Nat) (p : List Nat) : (s.cometF7 a b p).cx = s.cx := rfl
@[simp] theorem State.cometF7_mbx (a b : Nat) (p : List Nat) : (s.cometF7 a b p).mbx = s.mbx := rfl
@[simp] theorem State.cometF7_host (a b : Nat) (p : List Nat) : (s.cometF7 a b p).host = s.host := rfl
@[simp] theorem State.cometF7_ctx (a b : Nat) (p : List Nat) : (s.cometF7 a b p).ctx = s.ctx := rfl
@[simp] theorem State.cometF7_dq (a b : Nat) (p : List Nat) : (s.cometF7 a b p).dq = s.dq := rfl
@[simp] theorem State.cometF7_fleet (a b : Nat) (p : List Nat) : (s.cometF7 a b p).fleet = s.fleet := rfl
@[simp] theorem State.cometF7_mem (a b : Nat) (p : List Nat) : (s.cometF7 a b p).mem = s.mem := rfl
@[simp] theorem State.cometF7_tiers (a b : Nat) (p : List Nat) : (s.cometF7 a b p).tiers = s.tiers := rfl
@[simp] theorem State.cometF7_kv (a b : Nat) (p : List Nat) : (s.cometF7 a b p).kv = s.kv := rfl
@[simp] theorem State.cometF7_wt (a b : Nat) (p : List Nat) : (s.cometF7 a b p).wt = s.wt := rfl
@[simp] theorem State.cometF7_fab (a b : Nat) (p : List Nat) : (s.cometF7 a b p).fab = s.fab := rfl
@[simp] theorem State.cometF7_pwr (a b : Nat) (p : List Nat) : (s.cometF7 a b p).pwr = s.pwr := rfl
@[simp] theorem State.cometF7_rel (a b : Nat) (p : List Nat) : (s.cometF7 a b p).rel = s.rel := rfl
@[simp] theorem State.cometF7_out (a b : Nat) (p : List Nat) : (s.cometF7 a b p).out = s.out := rfl
@[simp] theorem State.cometF7_drawn (a b : Nat) (p : List Nat) : (s.cometF7 a b p).drawn = s.drawn := rfl
@[simp] theorem State.cometF7_mark (a b : Nat) (p : List Nat) : (s.cometF7 a b p).mark = s.mark := rfl

/-! ### setPort -/

@[simp] theorem State.setPort_pending (p : Nat) (f : HostPort → HostPort) : (s.setPort p f).pending = s.pending := by
  unfold State.setPort; split <;> rfl
@[simp] theorem State.setPort_pp (p : Nat) (f : HostPort → HostPort) : (s.setPort p f).pp = s.pp := by
  unfold State.setPort; split <;> rfl
@[simp] theorem State.setPort_aon (p : Nat) (f : HostPort → HostPort) : (s.setPort p f).aon = s.aon := by
  unfold State.setPort; split <;> rfl
@[simp] theorem State.setPort_cfg (p : Nat) (f : HostPort → HostPort) : (s.setPort p f).cfg = s.cfg := by
  unfold State.setPort; split <;> rfl
@[simp] theorem State.setPort_cx (p : Nat) (f : HostPort → HostPort) : (s.setPort p f).cx = s.cx := by
  unfold State.setPort; split <;> rfl
@[simp] theorem State.setPort_mbx (p : Nat) (f : HostPort → HostPort) : (s.setPort p f).mbx = s.mbx := by
  unfold State.setPort; split <;> rfl
@[simp] theorem State.setPort_ctx (p : Nat) (f : HostPort → HostPort) : (s.setPort p f).ctx = s.ctx := by
  unfold State.setPort; split <;> rfl
@[simp] theorem State.setPort_dq (p : Nat) (f : HostPort → HostPort) : (s.setPort p f).dq = s.dq := by
  unfold State.setPort; split <;> rfl
@[simp] theorem State.setPort_fleet (p : Nat) (f : HostPort → HostPort) : (s.setPort p f).fleet = s.fleet := by
  unfold State.setPort; split <;> rfl
@[simp] theorem State.setPort_mem (p : Nat) (f : HostPort → HostPort) : (s.setPort p f).mem = s.mem := by
  unfold State.setPort; split <;> rfl
@[simp] theorem State.setPort_tiers (p : Nat) (f : HostPort → HostPort) : (s.setPort p f).tiers = s.tiers := by
  unfold State.setPort; split <;> rfl
@[simp] theorem State.setPort_kv (p : Nat) (f : HostPort → HostPort) : (s.setPort p f).kv = s.kv := by
  unfold State.setPort; split <;> rfl
@[simp] theorem State.setPort_wt (p : Nat) (f : HostPort → HostPort) : (s.setPort p f).wt = s.wt := by
  unfold State.setPort; split <;> rfl
@[simp] theorem State.setPort_fab (p : Nat) (f : HostPort → HostPort) : (s.setPort p f).fab = s.fab := by
  unfold State.setPort; split <;> rfl
@[simp] theorem State.setPort_pwr (p : Nat) (f : HostPort → HostPort) : (s.setPort p f).pwr = s.pwr := by
  unfold State.setPort; split <;> rfl
@[simp] theorem State.setPort_rel (p : Nat) (f : HostPort → HostPort) : (s.setPort p f).rel = s.rel := by
  unfold State.setPort; split <;> rfl
@[simp] theorem State.setPort_out (p : Nat) (f : HostPort → HostPort) : (s.setPort p f).out = s.out := by
  unfold State.setPort; split <;> rfl
@[simp] theorem State.setPort_drawn (p : Nat) (f : HostPort → HostPort) : (s.setPort p f).drawn = s.drawn := by
  unfold State.setPort; split <;> rfl
@[simp] theorem State.setPort_mark (p : Nat) (f : HostPort → HostPort) : (s.setPort p f).mark = s.mark := by
  unfold State.setPort; split <;> rfl

/-! ### Reading an entry after it, or another, was changed -/

@[simp] theorem State.core_setCore (n : Nat) (f : CoreSt → CoreSt) : (s.setCore n f).core n = f (s.core n) := by
  simp [State.core, State.setCore]
theorem State.core_setCore_ne (n m : Nat) (f : CoreSt → CoreSt) (h : m ≠ n) : (s.setCore n f).core m = s.core m := by
  simp only [State.core, State.setCore, tabMod]
  exact tabGet_tabSet_of_ne _ _ _ _ _ h
@[simp] theorem State.die_setDie (n : Nat) (f : DieSt → DieSt) : (s.setDie n f).die n = f (s.die n) := by
  simp [State.die, State.setDie]
theorem State.die_setDie_ne (n m : Nat) (f : DieSt → DieSt) (h : m ≠ n) : (s.setDie n f).die m = s.die m := by
  simp only [State.die, State.setDie, tabMod]
  exact tabGet_tabSet_of_ne _ _ _ _ _ h
@[simp] theorem State.chan_setChan (n : Nat) (f : Channel → Channel) : (s.setChan n f).chan n = f (s.chan n) := by
  simp [State.chan, State.setChan]
theorem State.chan_setChan_ne (n m : Nat) (f : Channel → Channel) (h : m ≠ n) : (s.setChan n f).chan m = s.chan m := by
  simp only [State.chan, State.setChan, tabMod]
  exact tabGet_tabSet_of_ne _ _ _ _ _ h
@[simp] theorem State.fn_setFn (n : Nat) (f : HostFn → HostFn) : (s.setFn n f).fn n = f (s.fn n) := by
  simp [State.fn, State.setFn]
theorem State.fn_setFn_ne (n m : Nat) (f : HostFn → HostFn) (h : m ≠ n) : (s.setFn n f).fn m = s.fn m := by
  simp only [State.fn, State.setFn, tabMod]
  exact tabGet_tabSet_of_ne _ _ _ _ _ h
@[simp] theorem State.queue_setQueue (n : Nat) (f : Queue → Queue) : (s.setQueue n f).queue n = f (s.queue n) := by
  simp [State.queue, State.setQueue]
theorem State.queue_setQueue_ne (n m : Nat) (f : Queue → Queue) (h : m ≠ n) : (s.setQueue n f).queue m = s.queue m := by
  simp only [State.queue, State.setQueue, tabMod]
  exact tabGet_tabSet_of_ne _ _ _ _ _ h
@[simp] theorem State.half_setHalf (n : Nat) (f : HalfSt → HalfSt) : (s.setHalf n f).half n = f (s.half n) := by
  simp [State.half, State.setHalf]
theorem State.half_setHalf_ne (n m : Nat) (f : HalfSt → HalfSt) (h : m ≠ n) : (s.setHalf n f).half m = s.half m := by
  simp only [State.half, State.setHalf, tabMod]
  exact tabGet_tabSet_of_ne _ _ _ _ _ h
@[simp] theorem State.link_setLink (n : Nat) (f : Link → Link) : (s.setLink n f).link n = f (s.link n) := by
  simp [State.link, State.setLink]
theorem State.link_setLink_ne (n m : Nat) (f : Link → Link) (h : m ≠ n) : (s.setLink n f).link m = s.link m := by
  simp only [State.link, State.setLink, tabMod]
  exact tabGet_tabSet_of_ne _ _ _ _ _ h
@[simp] theorem State.model_setModel (n : Nat) (f : Model → Model) : (s.setModel n f).model n = f (s.model n) := by
  simp [State.model, State.setModel]
theorem State.model_setModel_ne (n m : Nat) (f : Model → Model) (h : m ≠ n) : (s.setModel n f).model m = s.model m := by
  simp only [State.model, State.setModel, tabMod]
  exact tabGet_tabSet_of_ne _ _ _ _ _ h
@[simp] theorem State.diePower_setDiePower (n : Nat) (f : DiePower → DiePower) : (s.setDiePower n f).diePower n = f (s.diePower n) := by
  simp [State.diePower, State.setDiePower]
theorem State.diePower_setDiePower_ne (n m : Nat) (f : DiePower → DiePower) (h : m ≠ n) : (s.setDiePower n f).diePower m = s.diePower m := by
  simp only [State.diePower, State.setDiePower, tabMod]
  exact tabGet_tabSet_of_ne _ _ _ _ _ h

@[simp] theorem State.emit_out (o : Output) : (s.emit o).out = o :: s.out := rfl

/-- A reader that looks at one part of the state sees no change of another part. -/
@[simp] theorem State.chan_of_setCore (n : Nat) (f : CoreSt → CoreSt) (k : Nat) : (s.setCore n f).chan k = s.chan k := rfl
@[simp] theorem State.fn_of_setCore (n : Nat) (f : CoreSt → CoreSt) (k : Nat) : (s.setCore n f).fn k = s.fn k := rfl
@[simp] theorem State.queue_of_setCore (n : Nat) (f : CoreSt → CoreSt) (k : Nat) : (s.setCore n f).queue k = s.queue k := rfl
@[simp] theorem State.half_of_setCore (n : Nat) (f : CoreSt → CoreSt) (k : Nat) : (s.setCore n f).half k = s.half k := rfl
@[simp] theorem State.link_of_setCore (n : Nat) (f : CoreSt → CoreSt) (k : Nat) : (s.setCore n f).link k = s.link k := rfl
@[simp] theorem State.model_of_setCore (n : Nat) (f : CoreSt → CoreSt) (k : Nat) : (s.setCore n f).model k = s.model k := rfl
@[simp] theorem State.diePower_of_setCore (n : Nat) (f : CoreSt → CoreSt) (k : Nat) : (s.setCore n f).diePower k = s.diePower k := rfl
@[simp] theorem State.chan_of_setDie (d : Nat) (f : DieSt → DieSt) (k : Nat) : (s.setDie d f).chan k = s.chan k := rfl
@[simp] theorem State.fn_of_setDie (d : Nat) (f : DieSt → DieSt) (k : Nat) : (s.setDie d f).fn k = s.fn k := rfl
@[simp] theorem State.queue_of_setDie (d : Nat) (f : DieSt → DieSt) (k : Nat) : (s.setDie d f).queue k = s.queue k := rfl
@[simp] theorem State.half_of_setDie (d : Nat) (f : DieSt → DieSt) (k : Nat) : (s.setDie d f).half k = s.half k := rfl
@[simp] theorem State.link_of_setDie (d : Nat) (f : DieSt → DieSt) (k : Nat) : (s.setDie d f).link k = s.link k := rfl
@[simp] theorem State.model_of_setDie (d : Nat) (f : DieSt → DieSt) (k : Nat) : (s.setDie d f).model k = s.model k := rfl
@[simp] theorem State.diePower_of_setDie (d : Nat) (f : DieSt → DieSt) (k : Nat) : (s.setDie d f).diePower k = s.diePower k := rfl
@[simp] theorem State.chan_of_setEngine (d i : Nat) (f : EngineSt → EngineSt) (k : Nat) : (s.setEngine d i f).chan k = s.chan k := rfl
@[simp] theorem State.fn_of_setEngine (d i : Nat) (f : EngineSt → EngineSt) (k : Nat) : (s.setEngine d i f).fn k = s.fn k := rfl
@[simp] theorem State.queue_of_setEngine (d i : Nat) (f : EngineSt → EngineSt) (k : Nat) : (s.setEngine d i f).queue k = s.queue k := rfl
@[simp] theorem State.half_of_setEngine (d i : Nat) (f : EngineSt → EngineSt) (k : Nat) : (s.setEngine d i f).half k = s.half k := rfl
@[simp] theorem State.link_of_setEngine (d i : Nat) (f : EngineSt → EngineSt) (k : Nat) : (s.setEngine d i f).link k = s.link k := rfl
@[simp] theorem State.model_of_setEngine (d i : Nat) (f : EngineSt → EngineSt) (k : Nat) : (s.setEngine d i f).model k = s.model k := rfl
@[simp] theorem State.diePower_of_setEngine (d i : Nat) (f : EngineSt → EngineSt) (k : Nat) : (s.setEngine d i f).diePower k = s.diePower k := rfl
@[simp] theorem State.core_of_setChan (c : Nat) (f : Channel → Channel) (k : Nat) : (s.setChan c f).core k = s.core k := rfl
@[simp] theorem State.die_of_setChan (c : Nat) (f : Channel → Channel) (k : Nat) : (s.setChan c f).die k = s.die k := rfl
@[simp] theorem State.fn_of_setChan (c : Nat) (f : Channel → Channel) (k : Nat) : (s.setChan c f).fn k = s.fn k := rfl
@[simp] theorem State.queue_of_setChan (c : Nat) (f : Channel → Channel) (k : Nat) : (s.setChan c f).queue k = s.queue k := rfl
@[simp] theorem State.half_of_setChan (c : Nat) (f : Channel → Channel) (k : Nat) : (s.setChan c f).half k = s.half k := rfl
@[simp] theorem State.link_of_setChan (c : Nat) (f : Channel → Channel) (k : Nat) : (s.setChan c f).link k = s.link k := rfl
@[simp] theorem State.model_of_setChan (c : Nat) (f : Channel → Channel) (k : Nat) : (s.setChan c f).model k = s.model k := rfl
@[simp] theorem State.diePower_of_setChan (c : Nat) (f : Channel → Channel) (k : Nat) : (s.setChan c f).diePower k = s.diePower k := rfl
@[simp] theorem State.core_of_setFn (n : Nat) (f : HostFn → HostFn) (k : Nat) : (s.setFn n f).core k = s.core k := rfl
@[simp] theorem State.die_of_setFn (n : Nat) (f : HostFn → HostFn) (k : Nat) : (s.setFn n f).die k = s.die k := rfl
@[simp] theorem State.chan_of_setFn (n : Nat) (f : HostFn → HostFn) (k : Nat) : (s.setFn n f).chan k = s.chan k := rfl
@[simp] theorem State.queue_of_setFn (n : Nat) (f : HostFn → HostFn) (k : Nat) : (s.setFn n f).queue k = s.queue k := rfl
@[simp] theorem State.half_of_setFn (n : Nat) (f : HostFn → HostFn) (k : Nat) : (s.setFn n f).half k = s.half k := rfl
@[simp] theorem State.link_of_setFn (n : Nat) (f : HostFn → HostFn) (k : Nat) : (s.setFn n f).link k = s.link k := rfl
@[simp] theorem State.model_of_setFn (n : Nat) (f : HostFn → HostFn) (k : Nat) : (s.setFn n f).model k = s.model k := rfl
@[simp] theorem State.diePower_of_setFn (n : Nat) (f : HostFn → HostFn) (k : Nat) : (s.setFn n f).diePower k = s.diePower k := rfl
@[simp] theorem State.core_of_setQueue (q : Nat) (f : Queue → Queue) (k : Nat) : (s.setQueue q f).core k = s.core k := rfl
@[simp] theorem State.die_of_setQueue (q : Nat) (f : Queue → Queue) (k : Nat) : (s.setQueue q f).die k = s.die k := rfl
@[simp] theorem State.chan_of_setQueue (q : Nat) (f : Queue → Queue) (k : Nat) : (s.setQueue q f).chan k = s.chan k := rfl
@[simp] theorem State.fn_of_setQueue (q : Nat) (f : Queue → Queue) (k : Nat) : (s.setQueue q f).fn k = s.fn k := rfl
@[simp] theorem State.half_of_setQueue (q : Nat) (f : Queue → Queue) (k : Nat) : (s.setQueue q f).half k = s.half k := rfl
@[simp] theorem State.link_of_setQueue (q : Nat) (f : Queue → Queue) (k : Nat) : (s.setQueue q f).link k = s.link k := rfl
@[simp] theorem State.model_of_setQueue (q : Nat) (f : Queue → Queue) (k : Nat) : (s.setQueue q f).model k = s.model k := rfl
@[simp] theorem State.diePower_of_setQueue (q : Nat) (f : Queue → Queue) (k : Nat) : (s.setQueue q f).diePower k = s.diePower k := rfl
@[simp] theorem State.core_of_setHalf (h : Nat) (f : HalfSt → HalfSt) (k : Nat) : (s.setHalf h f).core k = s.core k := rfl
@[simp] theorem State.die_of_setHalf (h : Nat) (f : HalfSt → HalfSt) (k : Nat) : (s.setHalf h f).die k = s.die k := rfl
@[simp] theorem State.chan_of_setHalf (h : Nat) (f : HalfSt → HalfSt) (k : Nat) : (s.setHalf h f).chan k = s.chan k := rfl
@[simp] theorem State.fn_of_setHalf (h : Nat) (f : HalfSt → HalfSt) (k : Nat) : (s.setHalf h f).fn k = s.fn k := rfl
@[simp] theorem State.queue_of_setHalf (h : Nat) (f : HalfSt → HalfSt) (k : Nat) : (s.setHalf h f).queue k = s.queue k := rfl
@[simp] theorem State.link_of_setHalf (h : Nat) (f : HalfSt → HalfSt) (k : Nat) : (s.setHalf h f).link k = s.link k := rfl
@[simp] theorem State.model_of_setHalf (h : Nat) (f : HalfSt → HalfSt) (k : Nat) : (s.setHalf h f).model k = s.model k := rfl
@[simp] theorem State.diePower_of_setHalf (h : Nat) (f : HalfSt → HalfSt) (k : Nat) : (s.setHalf h f).diePower k = s.diePower k := rfl
@[simp] theorem State.core_of_setLink (l : Nat) (f : Link → Link) (k : Nat) : (s.setLink l f).core k = s.core k := rfl
@[simp] theorem State.die_of_setLink (l : Nat) (f : Link → Link) (k : Nat) : (s.setLink l f).die k = s.die k := rfl
@[simp] theorem State.chan_of_setLink (l : Nat) (f : Link → Link) (k : Nat) : (s.setLink l f).chan k = s.chan k := rfl
@[simp] theorem State.fn_of_setLink (l : Nat) (f : Link → Link) (k : Nat) : (s.setLink l f).fn k = s.fn k := rfl
@[simp] theorem State.queue_of_setLink (l : Nat) (f : Link → Link) (k : Nat) : (s.setLink l f).queue k = s.queue k := rfl
@[simp] theorem State.half_of_setLink (l : Nat) (f : Link → Link) (k : Nat) : (s.setLink l f).half k = s.half k := rfl
@[simp] theorem State.model_of_setLink (l : Nat) (f : Link → Link) (k : Nat) : (s.setLink l f).model k = s.model k := rfl
@[simp] theorem State.diePower_of_setLink (l : Nat) (f : Link → Link) (k : Nat) : (s.setLink l f).diePower k = s.diePower k := rfl
@[simp] theorem State.core_of_setModel (m : Nat) (f : Model → Model) (k : Nat) : (s.setModel m f).core k = s.core k := rfl
@[simp] theorem State.die_of_setModel (m : Nat) (f : Model → Model) (k : Nat) : (s.setModel m f).die k = s.die k := rfl
@[simp] theorem State.chan_of_setModel (m : Nat) (f : Model → Model) (k : Nat) : (s.setModel m f).chan k = s.chan k := rfl
@[simp] theorem State.fn_of_setModel (m : Nat) (f : Model → Model) (k : Nat) : (s.setModel m f).fn k = s.fn k := rfl
@[simp] theorem State.queue_of_setModel (m : Nat) (f : Model → Model) (k : Nat) : (s.setModel m f).queue k = s.queue k := rfl
@[simp] theorem State.half_of_setModel (m : Nat) (f : Model → Model) (k : Nat) : (s.setModel m f).half k = s.half k := rfl
@[simp] theorem State.link_of_setModel (m : Nat) (f : Model → Model) (k : Nat) : (s.setModel m f).link k = s.link k := rfl
@[simp] theorem State.diePower_of_setModel (m : Nat) (f : Model → Model) (k : Nat) : (s.setModel m f).diePower k = s.diePower k := rfl
@[simp] theorem State.core_of_setDiePower (d : Nat) (f : DiePower → DiePower) (k : Nat) : (s.setDiePower d f).core k = s.core k := rfl
@[simp] theorem State.die_of_setDiePower (d : Nat) (f : DiePower → DiePower) (k : Nat) : (s.setDiePower d f).die k = s.die k := rfl
@[simp] theorem State.chan_of_setDiePower (d : Nat) (f : DiePower → DiePower) (k : Nat) : (s.setDiePower d f).chan k = s.chan k := rfl
@[simp] theorem State.fn_of_setDiePower (d : Nat) (f : DiePower → DiePower) (k : Nat) : (s.setDiePower d f).fn k = s.fn k := rfl
@[simp] theorem State.queue_of_setDiePower (d : Nat) (f : DiePower → DiePower) (k : Nat) : (s.setDiePower d f).queue k = s.queue k := rfl
@[simp] theorem State.half_of_setDiePower (d : Nat) (f : DiePower → DiePower) (k : Nat) : (s.setDiePower d f).half k = s.half k := rfl
@[simp] theorem State.link_of_setDiePower (d : Nat) (f : DiePower → DiePower) (k : Nat) : (s.setDiePower d f).link k = s.link k := rfl
@[simp] theorem State.model_of_setDiePower (d : Nat) (f : DiePower → DiePower) (k : Nat) : (s.setDiePower d f).model k = s.model k := rfl
@[simp] theorem State.core_of_emit (o : Output) (k : Nat) : (s.emit o).core k = s.core k := rfl
@[simp] theorem State.die_of_emit (o : Output) (k : Nat) : (s.emit o).die k = s.die k := rfl
@[simp] theorem State.chan_of_emit (o : Output) (k : Nat) : (s.emit o).chan k = s.chan k := rfl
@[simp] theorem State.fn_of_emit (o : Output) (k : Nat) : (s.emit o).fn k = s.fn k := rfl
@[simp] theorem State.queue_of_emit (o : Output) (k : Nat) : (s.emit o).queue k = s.queue k := rfl
@[simp] theorem State.half_of_emit (o : Output) (k : Nat) : (s.emit o).half k = s.half k := rfl
@[simp] theorem State.link_of_emit (o : Output) (k : Nat) : (s.emit o).link k = s.link k := rfl
@[simp] theorem State.model_of_emit (o : Output) (k : Nat) : (s.emit o).model k = s.model k := rfl
@[simp] theorem State.diePower_of_emit (o : Output) (k : Nat) : (s.emit o).diePower k = s.diePower k := rfl
@[simp] theorem State.core_of_comet (c v i : Nat) (t : Option Nat) (p : List Nat) (k : Nat) : (s.comet c v i t p).core k = s.core k := rfl
@[simp] theorem State.die_of_comet (c v i : Nat) (t : Option Nat) (p : List Nat) (k : Nat) : (s.comet c v i t p).die k = s.die k := rfl
@[simp] theorem State.chan_of_comet (c v i : Nat) (t : Option Nat) (p : List Nat) (k : Nat) : (s.comet c v i t p).chan k = s.chan k := rfl
@[simp] theorem State.fn_of_comet (c v i : Nat) (t : Option Nat) (p : List Nat) (k : Nat) : (s.comet c v i t p).fn k = s.fn k := rfl
@[simp] theorem State.queue_of_comet (c v i : Nat) (t : Option Nat) (p : List Nat) (k : Nat) : (s.comet c v i t p).queue k = s.queue k := rfl
@[simp] theorem State.half_of_comet (c v i : Nat) (t : Option Nat) (p : List Nat) (k : Nat) : (s.comet c v i t p).half k = s.half k := rfl
@[simp] theorem State.link_of_comet (c v i : Nat) (t : Option Nat) (p : List Nat) (k : Nat) : (s.comet c v i t p).link k = s.link k := rfl
@[simp] theorem State.model_of_comet (c v i : Nat) (t : Option Nat) (p : List Nat) (k : Nat) : (s.comet c v i t p).model k = s.model k := rfl
@[simp] theorem State.diePower_of_comet (c v i : Nat) (t : Option Nat) (p : List Nat) (k : Nat) : (s.comet c v i t p).diePower k = s.diePower k := rfl
@[simp] theorem State.core_of_cometF0 (a b c d : Nat) (k : Nat) : (s.cometF0 a b c d).core k = s.core k := rfl
@[simp] theorem State.die_of_cometF0 (a b c d : Nat) (k : Nat) : (s.cometF0 a b c d).die k = s.die k := rfl
@[simp] theorem State.chan_of_cometF0 (a b c d : Nat) (k : Nat) : (s.cometF0 a b c d).chan k = s.chan k := rfl
@[simp] theorem State.fn_of_cometF0 (a b c d : Nat) (k : Nat) : (s.cometF0 a b c d).fn k = s.fn k := rfl
@[simp] theorem State.queue_of_cometF0 (a b c d : Nat) (k : Nat) : (s.cometF0 a b c d).queue k = s.queue k := rfl
@[simp] theorem State.half_of_cometF0 (a b c d : Nat) (k : Nat) : (s.cometF0 a b c d).half k = s.half k := rfl
@[simp] theorem State.link_of_cometF0 (a b c d : Nat) (k : Nat) : (s.cometF0 a b c d).link k = s.link k := rfl
@[simp] theorem State.model_of_cometF0 (a b c d : Nat) (k : Nat) : (s.cometF0 a b c d).model k = s.model k := rfl
@[simp] theorem State.diePower_of_cometF0 (a b c d : Nat) (k : Nat) : (s.cometF0 a b c d).diePower k = s.diePower k := rfl
@[simp] theorem State.core_of_cometF5 (a b c d e : Nat) (k : Nat) : (s.cometF5 a b c d e).core k = s.core k := rfl
@[simp] theorem State.die_of_cometF5 (a b c d e : Nat) (k : Nat) : (s.cometF5 a b c d e).die k = s.die k := rfl
@[simp] theorem State.chan_of_cometF5 (a b c d e : Nat) (k : Nat) : (s.cometF5 a b c d e).chan k = s.chan k := rfl
@[simp] theorem State.fn_of_cometF5 (a b c d e : Nat) (k : Nat) : (s.cometF5 a b c d e).fn k = s.fn k := rfl
@[simp] theorem State.queue_of_cometF5 (a b c d e : Nat) (k : Nat) : (s.cometF5 a b c d e).queue k = s.queue k := rfl
@[simp] theorem State.half_of_cometF5 (a b c d e : Nat) (k : Nat) : (s.cometF5 a b c d e).half k = s.half k := rfl
@[simp] theorem State.link_of_cometF5 (a b c d e : Nat) (k : Nat) : (s.cometF5 a b c d e).link k = s.link k := rfl
@[simp] theorem State.model_of_cometF5 (a b c d e : Nat) (k : Nat) : (s.cometF5 a b c d e).model k = s.model k := rfl
@[simp] theorem State.diePower_of_cometF5 (a b c d e : Nat) (k : Nat) : (s.cometF5 a b c d e).diePower k = s.diePower k := rfl
@[simp] theorem State.core_of_cometF7 (a b : Nat) (p : List Nat) (k : Nat) : (s.cometF7 a b p).core k = s.core k := rfl
@[simp] theorem State.die_of_cometF7 (a b : Nat) (p : List Nat) (k : Nat) : (s.cometF7 a b p).die k = s.die k := rfl
@[simp] theorem State.chan_of_cometF7 (a b : Nat) (p : List Nat) (k : Nat) : (s.cometF7 a b p).chan k = s.chan k := rfl
@[simp] theorem State.fn_of_cometF7 (a b : Nat) (p : List Nat) (k : Nat) : (s.cometF7 a b p).fn k = s.fn k := rfl
@[simp] theorem State.queue_of_cometF7 (a b : Nat) (p : List Nat) (k : Nat) : (s.cometF7 a b p).queue k = s.queue k := rfl
@[simp] theorem State.half_of_cometF7 (a b : Nat) (p : List Nat) (k : Nat) : (s.cometF7 a b p).half k = s.half k := rfl
@[simp] theorem State.link_of_cometF7 (a b : Nat) (p : List Nat) (k : Nat) : (s.cometF7 a b p).link k = s.link k := rfl
@[simp] theorem State.model_of_cometF7 (a b : Nat) (p : List Nat) (k : Nat) : (s.cometF7 a b p).model k = s.model k := rfl
@[simp] theorem State.diePower_of_cometF7 (a b : Nat) (p : List Nat) (k : Nat) : (s.cometF7 a b p).diePower k = s.diePower k := rfl
@[simp] theorem State.core_of_setDie (d : Nat) (f : DieSt → DieSt) (k : Nat) : (s.setDie d f).core k = s.core k := rfl
@[simp] theorem State.die_of_setCore (n : Nat) (f : CoreSt → CoreSt) (k : Nat) : (s.setCore n f).die k = s.die k := rfl
@[simp] theorem State.core_of_setEngine (d i : Nat) (f : EngineSt → EngineSt) (k : Nat) :
    (s.setEngine d i f).core k = s.core k := rfl

end Sys2Proof.Machine
end

