-- ==== Sys2Proof/Laws/Ops.lean ====
section
/-! SUPPORT. What the shared operations do: loops over a list, and what sends on the fabric leave alone. -/

namespace Sys2Proof.Machine

@[simp] theorem forEach_nil {α : Type} (s : State) (f : State → α → State) : forEach [] s f = s := rfl

@[simp] theorem forEach_cons {α : Type} (a : α) (l : List α) (s : State) (f : State → α → State) :
    forEach (a :: l) s f = forEach l (f s a) f := rfl

/-- What each turn of a loop keeps, the loop keeps. -/
theorem forEach_inv {α : Type} (P : State → Prop) (l : List α) (f : State → α → State)
    (h : ∀ s a, a ∈ l → P s → P (f s a)) : ∀ s, P s → P (forEach l s f) := by
  induction l with
  | nil => intro s hs; exact hs
  | cons a l ih =>
    intro s hs
    exact ih (fun s b hb => h s b (List.mem_cons_of_mem _ hb)) _ (h s a List.mem_cons_self hs)

/-- What no turn of a loop changes, the loop does not change. -/
theorem forEach_frame {α β : Type} (g : State → β) (l : List α) (f : State → α → State)
    (h : ∀ s a, g (f s a) = g s) (s : State) : g (forEach l s f) = g s :=
  forEach_inv (fun t => g t = g s) l f (fun t a _ ht => (h t a).trans ht) s rfl

/-! ### Sends on the fabric change the fabric and the outputs alone -/

/-- Nothing but the fabric's state and the outputs differs between two states. -/
def State.sentTo (s t : State) : Prop := t = { s with fab := t.fab, out := t.out }

theorem State.sentTo_refl (s : State) : s.sentTo s := rfl

theorem State.sentTo_trans {s t u : State} (h : s.sentTo t) (g : t.sentTo u) : s.sentTo u := by
  unfold State.sentTo at *
  rw [g, h]

theorem pumpLink_sent (l n : Nat) : ∀ s : State, s.sentTo (State.pumpLink l n s) := by
  induction n with
  | zero => exact State.sentTo_refl
  | succ n ih =>
    intro s
    unfold State.pumpLink
    split
    · exact s.sentTo_refl
    · exact (State.sentTo_trans (by rfl) (ih _))

theorem State.toLink_sent (s : State) (l vc n : Nat) (b : List Byte) : s.sentTo (s.toLink l vc n b) := by
  unfold State.toLink
  dsimp only
  split
  · exact (State.sentTo_trans (by rfl) (pumpLink_sent _ _ _))
  · rfl

theorem State.forwardAt_sent (s : State) (h i : Nat) : s.sentTo (s.forwardAt h i) := by
  unfold State.forwardAt
  split
  · rfl
  · split
    · rfl
    · split
      · rfl
      · exact (State.sentTo_trans (by rfl) (State.toLink_sent _ _ _ _ _))

theorem State.dealOne_sent {s t : State} {m : DirectMsg} (h : s.dealOne m = some t) : s.sentTo t := by
  obtain ⟨p, _, hp⟩ := List.exists_of_findSome?_eq_some h
  obtain ⟨l, _, rfl⟩ := Option.map_eq_some_iff.mp hp
  exact (State.sentTo_trans (by rfl) (State.toLink_sent _ _ _ _ _))

theorem dealAll_sent (l : List DirectMsg) : ∀ left (s : State), s.sentTo (dealAll l left s) := by
  induction l with
  | nil => intro _ s; rfl
  | cons m r ih =>
    intro left s
    unfold dealAll
    split
    · exact ih _ _
    · split
      · next h => exact State.sentTo_trans (State.dealOne_sent h) (ih _ _)
      · exact ih _ _

/-- A packet that leaves changes the fabric and the outputs alone. -/
theorem State.send_sent (s : State) (dest vc : Nat) (p : Packet) : s.sentTo (s.send dest vc p) := by
  unfold State.send
  split
  · refine State.sentTo_trans (t := (s.emit (.packet dest vc p)).setPartition 0 _) rfl (State.forwardAt_sent _ _ _)
  · exact (State.sentTo_trans (by rfl) (dealAll_sent _ _ _))

theorem State.sendLink_sent (s : State) (l vc : Nat) (p : Packet) : s.sentTo (s.sendLink l vc p) :=
  State.sentTo_trans (by rfl) (State.toLink_sent _ _ _ _ _)

/-- A loop of sends does no more. -/
theorem forEach_sent {α : Type} (l : List α) (f : State → α → State) (h : ∀ (s : State) a, s.sentTo (f s a)) (s : State) :
    s.sentTo (forEach l s f) :=
  forEach_inv (s.sentTo ·) l f (fun t a _ ht => State.sentTo_trans ht (h t a)) s s.sentTo_refl

theorem State.mirrorOut_sent (s : State) (q : Nat) : s.sentTo (s.mirrorOut q) := by
  unfold State.mirrorOut
  split
  · rfl
  · exact s.send_sent _ _ _

theorem State.mirrorGroup_sent (s : State) (g : Nat) : s.sentTo (s.mirrorGroup g) :=
  forEach_sent _ _ (fun t q => t.mirrorOut_sent q) s

/-- What a send leaves alone, by a reader of anything but the fabric and the outputs. -/
theorem State.sentTo.eq {s t : State} (h : s.sentTo t) {α : Type} (g : State → α) (k : ∀ u f o, g { u with fab := f, out := o } = g u) :
    g t = g s := by rw [h]; exact k _ _ _

end Sys2Proof.Machine
end

