-- ==== Sys2Proof/Laws/Commands.lean ====
section
/-! SUPPORT. A Phoger command that is taken and passes checks 1 to 7 comes to what its own checks and effect say; what answers and
journal entries leave alone. -/

namespace Sys2Proof.Machine

variable {s : State} {h : CmdHdr} {c : Command}

/-- A command that is admitted is run by its own checks and effect. -/
theorem State.command_of_admits (a : s.admits h c) (eff : State → CmdRes) : s.command h c eff = s.settleCmd h c (eff s) := by
  obtain ⟨h1, h2, h3, h4, h5, h8⟩ := a
  have hs : ¬((s.pp.state = .standby ∨ s.pp.state = .mgmtOnly) ∧ h.sender = .bmc) := by
    rintro ⟨h6 | h6, _⟩ <;> simp [State.takes, h6] at h1
  have h7 : (h.sender == Sender.gone) = false := by simpa using h2
  simp [State.command, State.runCmd, State.judgeCmd, hs, h1, h7, h3, h4, h5, h8]

/-- A command that waits, or that comes to a status, is settled so. -/
theorem State.settleCmd_accept (s' : State) (n : s.deferredOf h.sender < 16) :
    s.settleCmd h c (.accept s') = s'.acceptCmd h c := by
  simp [State.settleCmd, State.acceptCmd, Nat.not_le.2 n]

@[simp] theorem State.settleCmd_ok (p : List Byte) (s' : State) : s.settleCmd h c (.ok p s') = s'.finishCmd h c p := rfl
@[simp] theorem State.settleCmd_refuse (st : Nat) (s' : State) : s.settleCmd h c (.refuse st s') = s'.refuseCmd h c st := rfl
@[simp] theorem State.settleCmd_done (s' : State) : s.settleCmd h c (.done s') = s' := rfl

/-! Asking for a host buffer's bytes changes the outputs alone. -/

@[simp] theorem State.askFor_pending : (s.askFor h c).pending = s.pending := by
  unfold State.askFor State.askBuffer; repeat' split
  all_goals rfl
@[simp] theorem State.askFor_pp : (s.askFor h c).pp = s.pp := by
  unfold State.askFor State.askBuffer; repeat' split
  all_goals rfl
@[simp] theorem State.askFor_aon : (s.askFor h c).aon = s.aon := by
  unfold State.askFor State.askBuffer; repeat' split
  all_goals rfl
@[simp] theorem State.askFor_cfg : (s.askFor h c).cfg = s.cfg := by
  unfold State.askFor State.askBuffer; repeat' split
  all_goals rfl
@[simp] theorem State.askFor_mbx : (s.askFor h c).mbx = s.mbx := by
  unfold State.askFor State.askBuffer; repeat' split
  all_goals rfl
@[simp] theorem State.askFor_host : (s.askFor h c).host = s.host := by
  unfold State.askFor State.askBuffer; repeat' split
  all_goals rfl
@[simp] theorem State.askFor_ctx : (s.askFor h c).ctx = s.ctx := by
  unfold State.askFor State.askBuffer; repeat' split
  all_goals rfl
@[simp] theorem State.askFor_dq : (s.askFor h c).dq = s.dq := by
  unfold State.askFor State.askBuffer; repeat' split
  all_goals rfl
@[simp] theorem State.askFor_fleet : (s.askFor h c).fleet = s.fleet := by
  unfold State.askFor State.askBuffer; repeat' split
  all_goals rfl
@[simp] theorem State.askFor_mem : (s.askFor h c).mem = s.mem := by
  unfold State.askFor State.askBuffer; repeat' split
  all_goals rfl
@[simp] theorem State.askFor_tiers : (s.askFor h c).tiers = s.tiers := by
  unfold State.askFor State.askBuffer; repeat' split
  all_goals rfl
@[simp] theorem State.askFor_kv : (s.askFor h c).kv = s.kv := by
  unfold State.askFor State.askBuffer; repeat' split
  all_goals rfl
@[simp] theorem State.askFor_wt : (s.askFor h c).wt = s.wt := by
  unfold State.askFor State.askBuffer; repeat' split
  all_goals rfl
@[simp] theorem State.askFor_fab : (s.askFor h c).fab = s.fab := by
  unfold State.askFor State.askBuffer; repeat' split
  all_goals rfl
@[simp] theorem State.askFor_pwr : (s.askFor h c).pwr = s.pwr := by
  unfold State.askFor State.askBuffer; repeat' split
  all_goals rfl
@[simp] theorem State.askFor_rel : (s.askFor h c).rel = s.rel := by
  unfold State.askFor State.askBuffer; repeat' split
  all_goals rfl
@[simp] theorem State.askFor_drawn : (s.askFor h c).drawn = s.drawn := by
  unfold State.askFor State.askBuffer; repeat' split
  all_goals rfl
@[simp] theorem State.askFor_mark : (s.askFor h c).mark = s.mark := by
  unfold State.askFor State.askBuffer; repeat' split
  all_goals rfl
@[simp] theorem State.askFor_cx : (s.askFor h c).cx = s.cx := by
  unfold State.askFor State.askBuffer; repeat' split
  all_goals rfl

/-- An answer to a sender that is there is appended to those that wait. -/
theorem State.answers_answer (g : h.sender ≠ .gone) (op k st : Nat) (p : List Byte) :
    (s.answer h op k st p).cx.answers = s.cx.answers ++ [Answer.mk h.sender k op h st p] := by
  unfold State.answer
  split
  · contradiction
  · rfl

/-- The reply of a finished command. -/
theorem State.answers_finishCmd (g : h.sender ≠ .gone) (p : List Byte) :
    (s.finishCmd h c p).cx.answers = s.cx.answers ++ [Answer.mk h.sender 2 (cmdOpcode c) h ST_OK p] := by
  rw [State.finishCmd, State.answers_answer g]
  rfl

/-- The reply of an accepted command. -/
theorem State.answers_acceptCmd (g : h.sender ≠ .gone) :
    (s.acceptCmd h c).cx.answers = s.cx.answers ++ [Answer.mk h.sender 2 (cmdOpcode c) h ST_ACCEPTED []] := by
  rw [State.acceptCmd, State.askFor_cx, State.answers_answer g]
  rfl

@[simp] theorem State.answer_pending (op k st : Nat) (p : List Byte) : (s.answer h op k st p).pending = s.pending := by
  unfold State.answer; split <;> rfl
@[simp] theorem State.finishCmd_pending (p : List Byte) : (s.finishCmd h c p).pending = s.pending := by
  simp [State.finishCmd, State.journal]
@[simp] theorem State.refuseCmd_pending (st : Nat) : (s.refuseCmd h c st).pending = s.pending := by
  simp [State.refuseCmd, State.refuseAs, State.journal]
@[simp] theorem State.acceptCmd_pending : (s.acceptCmd h c).pending = s.pending := by
  simp [State.acceptCmd, State.journal]
@[simp] theorem State.answer_pp (op k st : Nat) (p : List Byte) : (s.answer h op k st p).pp = s.pp := by
  unfold State.answer; split <;> rfl
@[simp] theorem State.finishCmd_pp (p : List Byte) : (s.finishCmd h c p).pp = s.pp := by
  simp [State.finishCmd, State.journal]
@[simp] theorem State.refuseCmd_pp (st : Nat) : (s.refuseCmd h c st).pp = s.pp := by
  simp [State.refuseCmd, State.refuseAs, State.journal]
@[simp] theorem State.acceptCmd_pp : (s.acceptCmd h c).pp = s.pp := by
  simp [State.acceptCmd, State.journal]
@[simp] theorem State.answer_aon (op k st : Nat) (p : List Byte) : (s.answer h op k st p).aon = s.aon := by
  unfold State.answer; split <;> rfl
@[simp] theorem State.finishCmd_aon (p : List Byte) : (s.finishCmd h c p).aon = s.aon := by
  simp [State.finishCmd, State.journal]
@[simp] theorem State.refuseCmd_aon (st : Nat) : (s.refuseCmd h c st).aon = s.aon := by
  simp [State.refuseCmd, State.refuseAs, State.journal]
@[simp] theorem State.acceptCmd_aon : (s.acceptCmd h c).aon = s.aon := by
  simp [State.acceptCmd, State.journal]
@[simp] theorem State.answer_cfg (op k st : Nat) (p : List Byte) : (s.answer h op k st p).cfg = s.cfg := by
  unfold State.answer; split <;> rfl
@[simp] theorem State.finishCmd_cfg (p : List Byte) : (s.finishCmd h c p).cfg = s.cfg := by
  simp [State.finishCmd, State.journal]
@[simp] theorem State.refuseCmd_cfg (st : Nat) : (s.refuseCmd h c st).cfg = s.cfg := by
  simp [State.refuseCmd, State.refuseAs, State.journal]
@[simp] theorem State.acceptCmd_cfg : (s.acceptCmd h c).cfg = s.cfg := by
  simp [State.acceptCmd, State.journal]
@[simp] theorem State.answer_mbx (op k st : Nat) (p : List Byte) : (s.answer h op k st p).mbx = s.mbx := by
  unfold State.answer; split <;> rfl
@[simp] theorem State.finishCmd_mbx (p : List Byte) : (s.finishCmd h c p).mbx = s.mbx := by
  simp [State.finishCmd, State.journal]
@[simp] theorem State.refuseCmd_mbx (st : Nat) : (s.refuseCmd h c st).mbx = s.mbx := by
  simp [State.refuseCmd, State.refuseAs, State.journal]
@[simp] theorem State.acceptCmd_mbx : (s.acceptCmd h c).mbx = s.mbx := by
  simp [State.acceptCmd, State.journal]
@[simp] theorem State.answer_host (op k st : Nat) (p : List Byte) : (s.answer h op k st p).host = s.host := by
  unfold State.answer; split <;> rfl
@[simp] theorem State.finishCmd_host (p : List Byte) : (s.finishCmd h c p).host = s.host := by
  simp [State.finishCmd, State.journal]
@[simp] theorem State.refuseCmd_host (st : Nat) : (s.refuseCmd h c st).host = s.host := by
  simp [State.refuseCmd, State.refuseAs, State.journal]
@[simp] theorem State.acceptCmd_host : (s.acceptCmd h c).host = s.host := by
  simp [State.acceptCmd, State.journal]
@[simp] theorem State.answer_ctx (op k st : Nat) (p : List Byte) : (s.answer h op k st p).ctx = s.ctx := by
  unfold State.answer; split <;> rfl
@[simp] theorem State.finishCmd_ctx (p : List Byte) : (s.finishCmd h c p).ctx = s.ctx := by
  simp [State.finishCmd, State.journal]
@[simp] theorem State.refuseCmd_ctx (st : Nat) : (s.refuseCmd h c st).ctx = s.ctx := by
  simp [State.refuseCmd, State.refuseAs, State.journal]
@[simp] theorem State.acceptCmd_ctx : (s.acceptCmd h c).ctx = s.ctx := by
  simp [State.acceptCmd, State.journal]
@[simp] theorem State.answer_dq (op k st : Nat) (p : List Byte) : (s.answer h op k st p).dq = s.dq := by
  unfold State.answer; split <;> rfl
@[simp] theorem State.finishCmd_dq (p : List Byte) : (s.finishCmd h c p).dq = s.dq := by
  simp [State.finishCmd, State.journal]
@[simp] theorem State.refuseCmd_dq (st : Nat) : (s.refuseCmd h c st).dq = s.dq := by
  simp [State.refuseCmd, State.refuseAs, State.journal]
@[simp] theorem State.acceptCmd_dq : (s.acceptCmd h c).dq = s.dq := by
  simp [State.acceptCmd, State.journal]
@[simp] theorem State.answer_fleet (op k st : Nat) (p : List Byte) : (s.answer h op k st p).fleet = s.fleet := by
  unfold State.answer; split <;> rfl
@[simp] theorem State.finishCmd_fleet (p : List Byte) : (s.finishCmd h c p).fleet = s.fleet := by
  simp [State.finishCmd, State.journal]
@[simp] theorem State.refuseCmd_fleet (st : Nat) : (s.refuseCmd h c st).fleet = s.fleet := by
  simp [State.refuseCmd, State.refuseAs, State.journal]
@[simp] theorem State.acceptCmd_fleet : (s.acceptCmd h c).fleet = s.fleet := by
  simp [State.acceptCmd, State.journal]
@[simp] theorem State.answer_mem (op k st : Nat) (p : List Byte) : (s.answer h op k st p).mem = s.mem := by
  unfold State.answer; split <;> rfl
@[simp] theorem State.finishCmd_mem (p : List Byte) : (s.finishCmd h c p).mem = s.mem := by
  simp [State.finishCmd, State.journal]
@[simp] theorem State.refuseCmd_mem (st : Nat) : (s.refuseCmd h c st).mem = s.mem := by
  simp [State.refuseCmd, State.refuseAs, State.journal]
@[simp] theorem State.acceptCmd_mem : (s.acceptCmd h c).mem = s.mem := by
  simp [State.acceptCmd, State.journal]
@[simp] theorem State.answer_tiers (op k st : Nat) (p : List Byte) : (s.answer h op k st p).tiers = s.tiers := by
  unfold State.answer; split <;> rfl
@[simp] theorem State.finishCmd_tiers (p : List Byte) : (s.finishCmd h c p).tiers = s.tiers := by
  simp [State.finishCmd, State.journal]
@[simp] theorem State.refuseCmd_tiers (st : Nat) : (s.refuseCmd h c st).tiers = s.tiers := by
  simp [State.refuseCmd, State.refuseAs, State.journal]
@[simp] theorem State.acceptCmd_tiers : (s.acceptCmd h c).tiers = s.tiers := by
  simp [State.acceptCmd, State.journal]
@[simp] theorem State.answer_kv (op k st : Nat) (p : List Byte) : (s.answer h op k st p).kv = s.kv := by
  unfold State.answer; split <;> rfl
@[simp] theorem State.finishCmd_kv (p : List Byte) : (s.finishCmd h c p).kv = s.kv := by
  simp [State.finishCmd, State.journal]
@[simp] theorem State.refuseCmd_kv (st : Nat) : (s.refuseCmd h c st).kv = s.kv := by
  simp [State.refuseCmd, State.refuseAs, State.journal]
@[simp] theorem State.acceptCmd_kv : (s.acceptCmd h c).kv = s.kv := by
  simp [State.acceptCmd, State.journal]
@[simp] theorem State.answer_wt (op k st : Nat) (p : List Byte) : (s.answer h op k st p).wt = s.wt := by
  unfold State.answer; split <;> rfl
@[simp] theorem State.finishCmd_wt (p : List Byte) : (s.finishCmd h c p).wt = s.wt := by
  simp [State.finishCmd, State.journal]
@[simp] theorem State.refuseCmd_wt (st : Nat) : (s.refuseCmd h c st).wt = s.wt := by
  simp [State.refuseCmd, State.refuseAs, State.journal]
@[simp] theorem State.acceptCmd_wt : (s.acceptCmd h c).wt = s.wt := by
  simp [State.acceptCmd, State.journal]
@[simp] theorem State.answer_fab (op k st : Nat) (p : List Byte) : (s.answer h op k st p).fab = s.fab := by
  unfold State.answer; split <;> rfl
@[simp] theorem State.finishCmd_fab (p : List Byte) : (s.finishCmd h c p).fab = s.fab := by
  simp [State.finishCmd, State.journal]
@[simp] theorem State.refuseCmd_fab (st : Nat) : (s.refuseCmd h c st).fab = s.fab := by
  simp [State.refuseCmd, State.refuseAs, State.journal]
@[simp] theorem State.acceptCmd_fab : (s.acceptCmd h c).fab = s.fab := by
  simp [State.acceptCmd, State.journal]
@[simp] theorem State.answer_pwr (op k st : Nat) (p : List Byte) : (s.answer h op k st p).pwr = s.pwr := by
  unfold State.answer; split <;> rfl
@[simp] theorem State.finishCmd_pwr (p : List Byte) : (s.finishCmd h c p).pwr = s.pwr := by
  simp [State.finishCmd, State.journal]
@[simp] theorem State.refuseCmd_pwr (st : Nat) : (s.refuseCmd h c st).pwr = s.pwr := by
  simp [State.refuseCmd, State.refuseAs, State.journal]
@[simp] theorem State.acceptCmd_pwr : (s.acceptCmd h c).pwr = s.pwr := by
  simp [State.acceptCmd, State.journal]
@[simp] theorem State.answer_rel (op k st : Nat) (p : List Byte) : (s.answer h op k st p).rel = s.rel := by
  unfold State.answer; split <;> rfl
@[simp] theorem State.finishCmd_rel (p : List Byte) : (s.finishCmd h c p).rel = s.rel := by
  simp [State.finishCmd, State.journal]
@[simp] theorem State.refuseCmd_rel (st : Nat) : (s.refuseCmd h c st).rel = s.rel := by
  simp [State.refuseCmd, State.refuseAs, State.journal]
@[simp] theorem State.acceptCmd_rel : (s.acceptCmd h c).rel = s.rel := by
  simp [State.acceptCmd, State.journal]
@[simp] theorem State.answer_out (op k st : Nat) (p : List Byte) : (s.answer h op k st p).out = s.out := by
  unfold State.answer; split <;> rfl
@[simp] theorem State.finishCmd_out (p : List Byte) : (s.finishCmd h c p).out = s.out := by
  simp [State.finishCmd, State.journal]
@[simp] theorem State.refuseCmd_out (st : Nat) : (s.refuseCmd h c st).out = s.out := by
  simp [State.refuseCmd, State.refuseAs, State.journal]
theorem State.acceptCmd_out (n : cmdBuffer c = none) : (s.acceptCmd h c).out = s.out := by
  simp [State.acceptCmd, State.journal, State.askFor, n]
@[simp] theorem State.answer_drawn (op k st : Nat) (p : List Byte) : (s.answer h op k st p).drawn = s.drawn := by
  unfold State.answer; split <;> rfl
@[simp] theorem State.answer_mark (op k st : Nat) (p : List Byte) : (s.answer h op k st p).mark = s.mark := by
  unfold State.answer; split <;> rfl
@[simp] theorem State.finishCmd_drawn (p : List Byte) : (s.finishCmd h c p).drawn = s.drawn := by
  simp [State.finishCmd, State.journal]
@[simp] theorem State.finishCmd_mark (p : List Byte) : (s.finishCmd h c p).mark = s.mark := by
  simp [State.finishCmd, State.journal]
@[simp] theorem State.refuseCmd_drawn (st : Nat) : (s.refuseCmd h c st).drawn = s.drawn := by
  simp [State.refuseCmd, State.refuseAs, State.journal]
@[simp] theorem State.refuseCmd_mark (st : Nat) : (s.refuseCmd h c st).mark = s.mark := by
  simp [State.refuseCmd, State.refuseAs, State.journal]
@[simp] theorem State.acceptCmd_drawn : (s.acceptCmd h c).drawn = s.drawn := by
  simp [State.acceptCmd, State.journal]
@[simp] theorem State.acceptCmd_mark : (s.acceptCmd h c).mark = s.mark := by
  simp [State.acceptCmd, State.journal]

end Sys2Proof.Machine
end

