-- ==== Sys2Proof/Laws/Engine.lean ====
section
/-! SUPPORT. An engine whose head descriptor is ready comes to that descriptor's effect; operands that can be read and destinations that
can be written are. -/

namespace Sys2Proof.Machine

/-- Operands that can be read are handed on. -/
theorem withReads_of_readsTo (e : Eng) (t : StepRec) (l : List (Nat × Nat)) (k : State → List (List Byte) → EngRes) :
    ∀ {s s' : State} {bs : List (List Byte)}, readsTo e t l s s' bs → withReads e t l s k = k s' bs := by
  induction l generalizing k with
  | nil => intro s s' bs h; obtain ⟨rfl, rfl⟩ := h; rfl
  | cons x r ih =>
    intro s s' bs h
    obtain ⟨s1, b, bs', rfl, h1, h2⟩ := h
    by_cases hx : x.2 = 0
    · simp only [hx, if_true] at h2
      obtain ⟨rfl, rfl⟩ := h2
      simp only [withReads, withRead, hx, if_true]
      exact ih _ h1
    · simp only [hx, if_false] at h2
      simp only [withReads, withRead, hx, if_false, h2]
      exact ih _ h1

/-- Destinations that can be written are handed on. -/
theorem withDests_of_destsTo (e : Eng) (t : StepRec) (l : List (Nat × Nat)) (k : State → List (List Part) → EngRes) :
    ∀ {s s' : State} {ps : List (List Part)}, destsTo e t l s s' ps → withDests e t l s k = k s' ps := by
  induction l generalizing k with
  | nil => intro s s' ps h; obtain ⟨rfl, rfl⟩ := h; rfl
  | cons x r ih =>
    intro s s' ps h
    obtain ⟨s1, b, bs', rfl, h1, h2⟩ := h
    by_cases hx : x.2 = 0
    · simp only [hx, if_true] at h2
      obtain ⟨rfl, rfl⟩ := h2
      simp only [withDests, withDest, hx, if_true]
      exact ih _ h1
    · simp only [hx, if_false] at h2
      simp only [withDests, withDest, hx, if_false, h2.1, h2.2, Bool.false_eq_true]
      exact ih _ h1

/-- One operand that can be read is handed on. -/
theorem withRead_of_readsTo {e : Eng} {t : StepRec} {va len : Nat} {s s' : State} {b : List Byte} (h : readsTo e t [(va, len)] s s' [b])
    (k : State → List Byte → EngRes) : withRead s e t va len k = k s' b := by
  have a := withReads_of_readsTo e t [(va, len)] (fun s l => k s (l.headD [])) h
  simpa [withReads] using a

/-- One destination that can be written is handed on. -/
theorem withDest_of_destsTo {e : Eng} {t : StepRec} {va len : Nat} {s s' : State} {p : List Part} (h : destsTo e t [(va, len)] s s' [p])
    (k : State → List Part → EngRes) : withDest s e t va len k = k s' p := by
  have a := withDests_of_destsTo e t [(va, len)] (fun s l => k s (l.headD [])) h
  simpa [withDests] using a

/-- A descriptor that is ready, and that a command selects, comes to its effect. -/
theorem State.engineSel_of_ready {s : State} {e : Eng} {d : QDesc} {rest : List QDesc} {t : StepRec} (h : s.engineReady e d rest t)
    (formats : List Nat) (mine : QDesc → Bool) (m : mine d = true) (eff : QDesc → StepRec → State → EngRes) :
    s.engineSel e formats mine eff = s.settleDesc e d (eff d t s) := by
  obtain ⟨h1, h2, h3, h4, h5⟩ := h
  simp [State.engineSel, h1, h2, h3, h4, h5, m]

/-- A descriptor whose effect is done leaves its engine. -/
@[simp] theorem State.settleDesc_done (s u : State) (e : Eng) (d : QDesc) : s.settleDesc e d (.done u) = u.finishDesc e d := rfl

end Sys2Proof.Machine
end

