-- ==== Sys2Proof/Laws/Memory.lean ====
section
/-! SUPPORT. Laws of device memory: its canonical form is kept by every operation, and what is read after a write. -/

namespace Sys2Proof.Machine

/-! ## The canonical form -/

/-- Every address of a list of cells lies above a bound. -/
def cellsAbove (n : Nat) (c : List Host.Cell) : Prop := ∀ e ∈ c, n < e.1

theorem cellsWf_cons (k : Nat) (v : Byte) (r : List Host.Cell) :
    cellsWf ((k, v) :: r) = true ↔ v ≠ memDefault ∧ cellsAbove k r ∧ cellsWf r = true := by
  induction r generalizing k v with
  | nil => simp [cellsWf, cellsAbove]
  | cons e r ih =>
    obtain ⟨k', v'⟩ := e
    simp only [cellsWf, Bool.and_eq_true, bne_iff_ne, ne_eq, decide_eq_true_eq, and_assoc]
    constructor
    · rintro ⟨h1, h2, h3⟩
      refine ⟨h1, ?_, h3⟩
      have h4 := (ih k' v').mp h3
      intro e he
      rcases List.mem_cons.mp he with rfl | he
      · exact h2
      · exact Nat.lt_trans h2 (h4.2.1 e he)
    · rintro ⟨h1, h2, h3⟩
      exact ⟨h1, h2 (k', v') (by simp), h3⟩

theorem cellsRead_above (c : List Host.Cell) (a : Nat) (h : cellsAbove a c) : cellsRead c a = memDefault := by
  cases c with
  | nil => rfl
  | cons e r =>
    obtain ⟨k, v⟩ := e
    have : a < k := h (k, v) (by simp)
    simp [cellsRead, this, Nat.ne_of_gt this]

theorem cellsWrite_above (c : List Host.Cell) (n a : Nat) (b : Byte) (h : cellsAbove n c) (ha : n < a) :
    cellsAbove n (cellsWrite c a b) := by
  induction c with
  | nil =>
    simp only [cellsWrite]
    split
    · intro e he; cases he
    · intro e he; simp at he; subst he; exact ha
  | cons e r ih =>
    obtain ⟨k, v⟩ := e
    have hk : n < k := h (k, v) (by simp)
    have hr : cellsAbove n r := fun e he => h e (by simp [he])
    simp only [cellsWrite]
    split
    · split
      · exact h
      · intro e he
        rcases List.mem_cons.mp he with rfl | he
        · exact ha
        · exact h e he
    · split
      · split
        · exact hr
        · intro e he
          rcases List.mem_cons.mp he with rfl | he
          · exact ha
          · exact hr e he
      · intro e he
        rcases List.mem_cons.mp he with rfl | he
        · exact hk
        · exact ih hr e he

/-- Writing a byte keeps the canonical form. -/
theorem cellsWrite_wf (c : List Host.Cell) (a : Nat) (b : Byte) (h : cellsWf c = true) : cellsWf (cellsWrite c a b) = true := by
  induction c with
  | nil =>
    simp only [cellsWrite]
    split
    · rfl
    · simpa [cellsWf] using ‹¬ b = memDefault›
  | cons e r ih =>
    obtain ⟨k, v⟩ := e
    obtain ⟨hv, hab, hr⟩ := (cellsWf_cons k v r).mp h
    simp only [cellsWrite]
    split
    · next hlt =>
      split
      · exact h
      · next hb =>
        refine (cellsWf_cons a b _).mpr ⟨hb, ?_, h⟩
        intro e he
        rcases List.mem_cons.mp he with rfl | he
        · exact hlt
        · exact Nat.lt_trans hlt (hab e he)
    · split
      · next heq =>
        split
        · exact hr
        · next hb => subst heq; exact (cellsWf_cons a b _).mpr ⟨hb, hab, hr⟩
      · next h1 h2 =>
        exact (cellsWf_cons k v _).mpr ⟨hv, cellsWrite_above r k a b hab (by omega), ih hr⟩

theorem cellsAbove_filter (n : Nat) (p : Host.Cell → Bool) (c : List Host.Cell) (h : cellsAbove n c) : cellsAbove n (c.filter p) :=
  fun e he => h e (List.mem_filter.mp he).1

/-- Dropping cells keeps the canonical form. -/
theorem cellsWf_filter (p : Host.Cell → Bool) (c : List Host.Cell) (h : cellsWf c = true) : cellsWf (c.filter p) = true := by
  induction c with
  | nil => rfl
  | cons e r ih =>
    obtain ⟨k, v⟩ := e
    obtain ⟨hv, hab, hr⟩ := (cellsWf_cons k v r).mp h
    simp only [List.filter_cons]
    split
    · exact (cellsWf_cons k v _).mpr ⟨hv, cellsAbove_filter k p r hab, ih hr⟩
    · exact ih hr

@[simp] theorem Memory.wf_write (m : Memory) (a : Nat) (b : Byte) (h : m.wf = true) : (m.write a b).wf = true :=
  cellsWrite_wf m.cells a b h

@[simp] theorem Memory.wf_writeN (m : Memory) (a : Nat) (bs : List Byte) (h : m.wf = true) : (m.writeN a bs).wf = true := by
  induction bs generalizing m a with
  | nil => exact h
  | cons b r ih => exact ih (m.write a b) (a + 1) (m.wf_write a b h)

@[simp] theorem Memory.wf_zero (m : Memory) (base len : Nat) (h : m.wf = true) : (m.zero base len).wf = true :=
  cellsWf_filter _ m.cells h

@[simp] theorem Memory.wf_setPoison (m : Memory) (u : Nat) (h : m.wf = true) : (m.setPoison u).wf = true := by
  unfold Memory.setPoison; split <;> exact h

/-- Memory right after reset has the canonical form. -/
theorem reset_mem_wf : State.reset.mem.wf = true := rfl

/-! ## Reads after writes -/

theorem cellsRead_write_self (c : List Host.Cell) (a : Nat) (b : Byte) (h : cellsWf c = true) : cellsRead (cellsWrite c a b) a = b := by
  induction c with
  | nil =>
    simp only [cellsWrite]
    split
    · next hb => simp [cellsRead, hb]
    · simp [cellsRead]
  | cons e r ih =>
    obtain ⟨k, v⟩ := e
    obtain ⟨hv, hab, hr⟩ := (cellsWf_cons k v r).mp h
    simp only [cellsWrite]
    split
    · next hlt =>
      split
      · next hb => simp [cellsRead, hlt, Nat.ne_of_gt hlt, hb]
      · simp [cellsRead]
    · split
      · next heq =>
        split
        · next hb => subst heq; rw [cellsRead_above r a hab, hb]
        · simp [cellsRead]
      · next h1 h2 => simp [cellsRead, Ne.symm h2, h1, ih hr]

theorem cellsRead_write_of_ne (c : List Host.Cell) (a x : Nat) (b : Byte) (h : cellsWf c = true) (hx : x ≠ a) :
    cellsRead (cellsWrite c a b) x = cellsRead c x := by
  induction c with
  | nil =>
    simp only [cellsWrite]
    split
    · rfl
    · simp [cellsRead, Ne.symm hx]
  | cons e r ih =>
    obtain ⟨k, v⟩ := e
    obtain ⟨hv, hab, hr⟩ := (cellsWf_cons k v r).mp h
    simp only [cellsWrite]
    split
    · next hlt =>
      split
      · rfl
      · by_cases hxa : x < a
        · have : x < k := Nat.lt_trans hxa hlt
          simp [cellsRead, Ne.symm hx, hxa, this, Nat.ne_of_gt this]
        · simp only [cellsRead]
          rw [if_neg (Ne.symm hx), if_neg hxa]
    · split
      · next heq =>
        subst heq
        split
        · by_cases hxa : x < a
          · have : cellsAbove x r := fun e he => Nat.lt_trans hxa (hab e he)
            rw [cellsRead_above r x this]; simp [cellsRead, Ne.symm hx, hxa]
          · simp [cellsRead, Ne.symm hx, hxa]
        · by_cases hxa : x < a <;> simp [cellsRead, Ne.symm hx, hxa]
      · simp only [cellsRead, ih hr]

/-- A byte reads as it was written. -/
theorem Memory.read_write_self (m : Memory) (a : Nat) (b : Byte) (h : m.wf = true) : (m.write a b).read a = b :=
  cellsRead_write_self m.cells a b h

/-- A write leaves every other byte alone. -/
theorem Memory.read_write_of_ne (m : Memory) (a x : Nat) (b : Byte) (h : m.wf = true) (hx : x ≠ a) : (m.write a b).read x = m.read x :=
  cellsRead_write_of_ne m.cells a x b h hx

/-- Bytes written in a row leave every byte outside them alone. -/
theorem Memory.read_writeN_outside (m : Memory) (a x : Nat) (bs : List Byte) (h : m.wf = true) (hx : x < a ∨ a + bs.length ≤ x) :
    (m.writeN a bs).read x = m.read x := by
  induction bs generalizing m a with
  | nil => rfl
  | cons b r ih =>
    simp only [List.length_cons] at hx
    show ((m.write a b).writeN (a + 1) r).read x = m.read x
    rw [ih (m.write a b) (a + 1) (m.wf_write a b h) (by omega), m.read_write_of_ne a x b h (by omega)]

/-- Bytes written in a row read as they were written. -/
theorem Memory.read_writeN_inside (m : Memory) (a : Nat) (bs : List Byte) (h : m.wf = true) (i : Nat) (hi : i < bs.length) :
    (m.writeN a bs).read (a + i) = bs[i] := by
  induction bs generalizing m a i with
  | nil => cases hi
  | cons b r ih =>
    show ((m.write a b).writeN (a + 1) r).read (a + i) = _
    cases i with
    | zero =>
      rw [Memory.read_writeN_outside _ _ _ _ (m.wf_write a b h) (by omega)]
      simpa using m.read_write_self a b h
    | succ i =>
      have := ih (m.write a b) (a + 1) (m.wf_write a b h) i (by simpa using hi)
      rw [show a + (i + 1) = a + 1 + i by omega, this]; rfl

end Sys2Proof.Machine
end

