-- ==== Sys2Proof/Laws/Slot.lean ====
section
/-! SUPPORT. A slot operation whose core is ready comes to its effect, and a core changed keeps the others and everything outside the
cores. -/

namespace Sys2Proof.Machine

variable {s : State}

@[simp] theorem State.setCore_core_self (n : Nat) (f : CoreSt → CoreSt) : (s.setCore n f).core n = f (s.core n) := by
  simp [State.setCore, State.core]

theorem State.setCore_core_of_ne (n m : Nat) (f : CoreSt → CoreSt) (h : m ≠ n) : (s.setCore n f).core m = s.core m := by
  simp [State.setCore, State.core, tabGet_tabMod_of_ne _ _ _ _ _ h]

/-- A change of one core is a change of that core alone. -/
theorem State.coreOnly_setCore (n : Nat) (f : CoreSt → CoreSt) : s.coreOnly (s.setCore n f) n :=
  ⟨rfl, fun _ h => s.setCore_core_of_ne n _ f h⟩

theorem State.coreOnly_refl (n : Nat) : s.coreOnly s n := ⟨rfl, fun _ _ => rfl⟩

theorem State.coreOnly_trans {t u : State} {n : Nat} (a : s.coreOnly t n) (b : t.coreOnly u n) : s.coreOnly u n := by
  refine ⟨?_, fun m h => (b.2 m h).trans (a.2 m h)⟩
  rw [b.1, a.1]

/-- In issue, a core reads what it read before. -/
@[simp] theorem State.inIssue_srcOf (n : Nat) : (s.inIssue n).srcOf n = s.srcOf n := by
  simp [State.inIssue, State.srcOf, CoreSt.src]

theorem State.inIssue_core (n : Nat) : (s.inIssue n).core n = { s.core n with issue := some (s.core n).src, waiting := false, power := .active, lastIssue := s.aon.clock } := by
  simp [State.inIssue]

/-- Bundles with an operation are not skipped. -/
theorem State.skipNops_of_live {n b k : Nat} (h : (s.core n).here = some b) (l : (liveSlots b).isEmpty = false) :
    s.skipNops n k = s := by
  cases k with
  | zero => rfl
  | succ k => simp [State.skipNops, h, l]

/-- A slot operation of a core that is ready comes to its effect on the bundle in issue, and the slot retires. -/
theorem State.slotOp_of_ready {c : SlotCtx} {k : SlotKey} {b : Nat} (r : s.slotReady c k b) (eff : State → SlotRes) :
    s.slotOp c k eff = match eff (s.inIssue c.core) with
      | .done t => t.retireSlot c.core k.slot c.more
      | .stall t => t
      | .gone t => t := by
  obtain ⟨⟨⟨h1, h2, h3, h4, h5, h6⟩, hd, h7⟩, h8⟩ := r
  have e : s.skipNops c.core fetchDepth = s := State.skipNops_of_live h2 h3
  have h9 : (if (s.core c.core).issue.isNone then s.holdsBundle c.core b else none) = none := by
    cases hi : (s.core c.core).issue with
    | none => simp [h7 hi]
    | some x => simp
  simp only [State.slotOp, h1, hd, e, h2, h4, h5, h6, h9, h8, ne_eq, not_true_eq_false, Bool.not_true, beq_self_eq_true, Bool.and_true,
    if_true, Bool.false_eq_true, if_false]
  rfl

/-- A slot operation whose predicate is false retires without an effect (R246). -/
theorem State.slotOp_of_off {c : SlotCtx} {k : SlotKey} {b : Nat} (r : s.slotIssues c k b)
    (h8 : (s.core c.core).src.goes c.pred c.pneg = false) (eff : State → SlotRes) :
    s.slotOp c k eff = (s.inIssue c.core).retireSlot c.core k.slot c.more := by
  obtain ⟨⟨h1, h2, h3, h4, h5, h6⟩, hd, h7⟩ := r
  have e : s.skipNops c.core fetchDepth = s := State.skipNops_of_live h2 h3
  have h9 : (if (s.core c.core).issue.isNone then s.holdsBundle c.core b else none) = none := by
    cases hi : (s.core c.core).issue with
    | none => simp [h7 hi]
    | some x => simp
  simp only [State.slotOp, h1, hd, e, h2, h4, h5, h6, h9, h8, ne_eq, not_true_eq_false, Bool.not_true, beq_self_eq_true, Bool.and_true,
    if_true, Bool.false_eq_true, if_false]
  rfl

/-- A slot operation whose bundle is held back does nothing but note why (R244). -/
theorem State.slotOp_of_held {c : SlotCtx} {k : SlotKey} {b : Nat} {w : Bool} (r : s.slotTurn c k b) (i : (s.core c.core).issue = none)
    (h : s.holdsBundle c.core b = some w) (eff : State → SlotRes) :
    s.slotOp c k eff = s.setCore c.core fun y => { y with waiting := w } := by
  obtain ⟨h1, h2, h3, h4, h5, h6⟩ := r
  have e : s.skipNops c.core fetchDepth = s := State.skipNops_of_live h2 h3
  simp only [State.slotOp, h1, e, h2, h4, h5, h6, i, h, Option.isNone, Bool.not_true, beq_self_eq_true, Bool.and_true, if_true,
    Bool.false_eq_true, if_false]

/-- Retirement leaves the registers, and everything that the issue of a bundle does not move. -/
theorem State.retireSlot_keeps (n k : Nat) (more : Bool) :
    s.coreOnly (s.retireSlot n k more) n ∧ (s.core n).sameButRegs ((s.retireSlot n k more).core n) ∧
      ((s.retireSlot n k more).core n).regs = (s.core n).regs := by
  unfold State.retireSlot
  split <;> refine ⟨State.coreOnly_setCore _ _, ?_, ?_⟩ <;> simp [CoreSt.sameButRegs, CoreSt.endBundle]

/-- An effect that writes one vector register of the bundle in issue, retired, has written it and nothing else. -/
theorem State.slotV_retire (n k i : Nat) (m : Bool) (v : List Lane) : s.slotV (((s.inIssue n).setV n i v).retireSlot n k m) n i v := by
  have a := State.retireSlot_keeps (s := (s.inIssue n).setV n i v) n k m
  refine ⟨State.coreOnly_trans (State.coreOnly_trans (State.coreOnly_setCore n _) (State.coreOnly_setCore n _)) a.1, ?_, ?_⟩
  · have := a.2.1
    simp only [CoreSt.sameButRegs, State.setV, State.inIssue, State.setCore_core_self] at this ⊢
    exact this
  · rw [a.2.2]
    refine ⟨by simp [State.setV, State.inIssue, CoreRegs.v?], fun j hj => ?_, by simp [State.setV, State.inIssue],
      by simp [State.setV, State.inIssue]⟩
    simp [State.setV, State.inIssue, CoreRegs.v?, tabGet_tabSet_of_ne _ _ _ _ _ hj]

/-- The same for an x register. -/
theorem State.slotX_retire (n k i v : Nat) (m : Bool) : s.slotX (((s.inIssue n).setX n i v).retireSlot n k m) n i v := by
  have a := State.retireSlot_keeps (s := (s.inIssue n).setX n i v) n k m
  have b : (s.inIssue n).coreOnly ((s.inIssue n).setX n i v) n := by
    unfold State.setX
    split
    · exact State.coreOnly_refl n
    · exact State.coreOnly_setCore n _
  refine ⟨State.coreOnly_trans (State.coreOnly_trans (State.coreOnly_setCore n _) b) a.1, ?_, ?_⟩
  · have := a.2.1
    unfold State.setX at this ⊢
    split at this <;> simp only [CoreSt.sameButRegs, State.inIssue, State.setCore_core_self, *, if_true, if_false] at this ⊢ <;> exact this
  · rw [a.2.2]
    unfold State.setX
    split
    · next h => subst h; simp [CoreRegs.wroteX, State.inIssue, CoreRegs.x?]
    · next h =>
      refine ⟨by simp [State.inIssue, CoreRegs.x?, h], fun j hj => ?_, by simp [State.inIssue], by simp [State.inIssue]⟩
      simp [State.inIssue, CoreRegs.x?, tabGet_tabSet_of_ne _ _ _ _ _ hj]

end Sys2Proof.Machine
end

