-- ==== Sys2Proof/Tests/Slice0.lean ====
section
/-! SUPPORT. Tests by hand from the rules: an ill-formed command for each check of well-formedness, and for each statement a state and
operands that meet its hypotheses, with what the rule says comes of them. -/

set_option Elab.async false

namespace Sys2Proof.Tests

open Sys2Proof Sys2Proof.Machine

/-! ## Helper states -/

/-- The state a command answers. -/
def after (c : Instr) (s : State) : State :=
  match exec c s with
  | .next t => t
  | _ => State.reset

/-- A module in SERVICE with both ports up, complex A active and B standby, a second after power-on. -/
def svc : State :=
  { State.reset with
    pp := { State.reset.pp with
      state := .service, phase := 9, vmainMv := 54000, vauxMv := 12000, mainSense := true, mainGood := true, vauxGood := true
      aonPowered := true }
    aon := { State.reset.aon with clock := 1000000000, timebase := 1000000000, boot := 1 }
    cfg := { State.reset.cfg with bindingLocked := true }
    cx := { State.reset.cx with stateA := .active, stateB := .standby, standbyReady := true, running := some factorySet, powerA := true, powerB := true }
    host := { State.reset.host with
      portA := { up := true, perst := false, cfgReady := true, ide := [], vfs := 255, pfMem := true, vfMem := true, posted := [] }
      portB := { up := true, perst := false, cfgReady := true, ide := [], vfs := 255, pfMem := true, vfMem := true, posted := [] } } }

/-- `svc` in another module state. -/
def inState (m : ModuleState) : State := { svc with pp := { svc.pp with state := m } }

/-- The header of a command of the PF, of VF 1 and of the BMC. -/
def pf : CmdHdr := ⟨.host 0, 7, 1, 4, 0xFF⟩
def vf : CmdHdr := ⟨.host 1, 7, 1, 4, 0xFF⟩
def bmc : CmdHdr := ⟨.bmc, 7, 1, 4, 0xFF⟩

/-- Bytes that count up from one. -/
def count (n : Nat) : List Byte := (List.range n).map fun i => BitVec.ofNat 8 (i + 1)

/-- A command is admitted where its six checks are decided. -/
theorem adm {s : State} {h : CmdHdr} {c : Command}
    (x : (s.takes h.sender (cmdAny c) && (h.sender != .gone && ((s.checkSender h c).isNone && (s.isSelf h.target && (s.checkState c && !s.channelWaits h.sender))))) = true) :
    s.admits h c := by
  simp only [Bool.and_eq_true, bne_iff_ne, Option.isNone_iff_eq_none, Bool.not_eq_true'] at x
  exact ⟨x.1, x.2.1, x.2.2.1, x.2.2.2.1, x.2.2.2.2.1, x.2.2.2.2.2⟩

/-! ## Power path (R42–R56) -/

/-- R42, R49: in SERVICE an assertion begins a warned DRAIN. -/
theorem test_pwrfail_begins_drain : svc.pp.aonPowered = true ∧ svc.pp.pwrfail = false ∧
    (after .pwrfailNAssert svc).pp.state = .drain ∧ (after .pwrfailNAssert svc).pp.warned = true := by decide +kernel
/-- R53: in RETAIN an assertion restarts the window. -/
theorem test_pwrfail_in_retain : (inState .retain).pp.pwrfail = false ∧
    (after .pwrfailNAssert (inState .retain)).pp.windowRestarts = 1 ∧ (after .pwrfailNAssert (inState .standby)).pp.state = .standby := by
  decide +kernel

/-- `svc` with PWRFAIL_N asserted. -/
def failing : State := { svc with pp := { svc.pp with pwrfail := true } }
theorem test_pwrfail_deasserts : failing.pp.pwrfail = true ∧ (after .pwrfailNDeassert failing).pp.pwrfail = false := by decide +kernel

/-- R43, R51: main just below its lower limit is lost without warning. -/
theorem test_main_ceases : svc.pp.mainGood = true ∧ 39999 < 40000 ∧ (after (.mainCeasesGood 39999) svc).pp.state = .drain ∧
    (after (.mainCeasesGood 39999) svc).pp.warned = false := by decide +kernel
theorem test_main_keeps_at_40_v : (after (.mainCeasesGood 40000) svc).pp.mainGood = true := by decide +kernel

/-- A module in STANDBY on auxiliary power. -/
def stby : State := { svc with pp := { svc.pp with state := .standby, mainGood := false, mainSense := false, vmainMv := 0, phase := 2 } }
/-- R43: main is good from 41 V to 59 V. -/
theorem test_main_good : stby.pp.mainGood = false ∧ stby.pp.hotSwap ≠ .overcurrent ∧ (after (.mainGood 40000) stby).pp.mainGood = true ∧
    (after (.mainGood 60001) stby).pp.mainGood = false := by decide +kernel
/-- R43: once main has stopped being good it is good again only between 41.0 V and 59.0 V. -/
theorem test_main_good_again : (stby.mainLost 1).pp.mainGood = false ∧ (stby.mainLost 1).pp.mainCeased = true ∧
    (after (.mainGood 41000) (stby.mainLost 1)).pp.mainGood = true ∧ (after (.mainGood 59000) (stby.mainLost 1)).pp.mainGood = true ∧
    (after (.mainGood 59001) (stby.mainLost 1)).pp.mainGood = false ∧ (after (.mainGood 40999) (stby.mainLost 1)).pp.mainGood = false := by
  decide +kernel
theorem test_sense_break : svc.pp.mainSense = true ∧ (after .mainSenseBreak svc).pp.hotSwap = .sense ∧
    (after .mainSenseBreak svc).pp.state = .drain := by decide +kernel
/-- R44: above 60 V and above 110 A. -/
theorem test_hot_swap_opens : svc.pp.hotSwap = .closed ∧ (after (.hotSwapOvervoltage 60001) svc).pp.hotSwap = .overvoltage ∧
    (after (.hotSwapOvercurrent 110001) svc).pp.hotSwap = .overcurrent := by decide +kernel

/-- A hot-swap stage opened by an overcurrent one second ago. -/
def tripped : State :=
  let s := after (.hotSwapOvercurrent 110001) svc
  { s with aon := { s.aon with clock := s.aon.clock + 1000000000 } }
theorem test_hot_swap_recloses : tripped.pp.hotSwap = .overcurrent ∧ (after (.hotSwapReclose false 4999) tripped).pp.hotSwap = .closed ∧
    (after (.hotSwapReclose true 0) tripped).pp.hotSwap = .closed ∧ (after (.hotSwapReclose false 5000) tripped).pp.hotSwap = .overcurrent := by
  decide +kernel

/-- A module whose warned DRAIN has nothing left to stop. -/
def draining : State := after .pwrfailNAssert svc
theorem test_drain_completes : draining.pp.state = .drain ∧ draining.moving = [] ∧ draining.pp.stopping = false ∧
    (after .drainComplete draining).pp.state = .retain := by decide +kernel
/-- The same under a MODULE_STOP. -/
def stopping : State := after (.moduleStop pf) svc
theorem test_stop_reaches_standby : stopping.pp.state = .drain ∧ stopping.moving = [] ∧ stopping.pp.stopping = true ∧
    (after .drainComplete stopping).pp.state = .standby ∧ (after .drainComplete stopping).pp.hold = true := by decide +kernel

/-- A warned DRAIN with core 9 still running, 1.5 ms on. -/
def overdue : State :=
  let s := svc.setCore 9 fun c => { c with power := .active, step := some (0, 0) }
  let t := after .pwrfailNAssert s
  { t with aon := { t.aon with clock := t.aon.clock + 1500000 } }
theorem test_drain_is_forced : overdue.pp.state = .drain ∧ overdue.pp.warned = true ∧ overdue.moving = [9] ∧
    1500000 ≤ overdue.aon.clock - overdue.pp.drainEntry ∧ ((after .drainForced overdue).core 9).halted = true ∧
    (after .drainForced overdue).pp.warned = false := by decide +kernel

/-- RETAIN, 20 ms after everything is good again. -/
def retained : State := inState .retain
theorem test_retain_ends : retained.pp.state = .retain ∧ 10000000 ≤ retained.aon.clock - retained.pp.retainEntry ∧ retained.pp.mainGood = true ∧
    20000000 ≤ retained.aon.clock - retained.pp.mainGoodSince ∧ retained.pp.pwrfail = false ∧
    20000000 ≤ retained.aon.clock - retained.pp.pwrfailHighSince ∧ retained.pp.hold = false ∧ retained.pp.thermalHold = false ∧
    retained.dq.steps = [] ∧ retained.fleet.cores = [] ∧ (after .retainExit retained).pp.state = .service := by decide +kernel
theorem test_retain_is_held : (after .retainExit { retained with pp := { retained.pp with hold := true } }).pp.state = .retain := by
  decide +kernel
/-- RETAIN with main absent. -/
def darkRetain : State := { retained with pp := { retained.pp with mainGood := false, rideMin := 8000000, mainCeasedAt := 992000000 } }
theorem test_main_absent_in_retain : darkRetain.pp.state = .retain ∧ darkRetain.pp.mainGood = false ∧ 8000000 ≤ darkRetain.aon.clock - darkRetain.pp.mainCeasedAt ∧
    (after .mainAbsentInRetain darkRetain).pp.state = .standby := by decide +kernel
/-- STANDBY with main good for long enough. -/
def startable : State := inState .standby
theorem test_standby_starts : startable.pp.state = .standby ∧ startable.pp.mainGood = true ∧
    20000000 ≤ startable.aon.clock - startable.pp.mainGoodSince ∧ startable.pp.hold = false ∧ startable.pp.thermalHold = false ∧
    (after .standbyModuleStart startable).pp.phase = 3 := by decide +kernel
/-- STANDBY with neither supply. -/
def dark : State := { stby with pp := { stby.pp with vauxGood := false } }
theorem test_holdup_expires : dark.pp.aonPowered = true ∧ dark.pp.mainGood = false ∧ dark.pp.vauxGood = false ∧ dark.pp.state = .standby ∧
    (after .holdupExpired dark).pp.state = .off := by decide +kernel
/-- R45: VAUX is good between 10.8 V and 13.2 V. -/
theorem test_vaux : svc.pp.vauxGood = true ∧ (after (.vauxCeasesGood 10799) svc).pp.vauxGood = false ∧
    (after (.vauxCeasesGood 10800) svc).pp.vauxGood = true ∧ (after (.vauxCeasesGood 13201) svc).pp.state = .service := by decide +kernel
theorem test_vaux_again : dark.pp.vauxGood = false ∧ (after (.vauxGoodAgain 10800) dark).pp.vauxGood = true ∧
    (after (.vauxGoodAgain 13200) dark).pp.vauxGood = true := by decide +kernel

/-! ## Ports, functions, start-up, clocks (R27, R41, R60–R73, R81, R84–R90, R226, R575) -/

theorem test_perst : ((after (.perstAssert 0) svc).port 0).up = false ∧ ((after (.perstAssert 0) svc).port 1).up = true ∧
    ((after (.perstDeassert 0) (after (.perstAssert 0) svc)).port 0).perst = false := by decide +kernel
/-- Port A out of reset with its link down. -/
def portDown : State := { svc with host := { svc.host with portA := { svc.host.portA with up := false, cfgReady := false } } }
theorem test_port_up : (portDown.port 0).up = false ∧ (portDown.port 0).perst = false ∧ portDown.ioPowered 0 = true ∧
    portDown.ioRetired 0 = false ∧ ((after (.hostPortLinkUp 0) portDown).port 0).cfgReady = true := by decide +kernel
theorem test_port_down : (svc.port 1).up = true ∧ ((after (.hostPortLinkDown ⟨1, 0⟩) svc).port 1).up = false := by decide +kernel
theorem test_ide_key : (svc.port 0).up = true ∧ tabGet? ((after (.ideKmRequest 0 8 (count 32)) svc).port 0).ide 8 = some (count 32) := by
  decide +kernel

/-- VF 255 owns context 4095 and has claimed channel 511. -/
def vfBusy : State :=
  let s := after (.lockClaim ⟨masterOf 255, 0⟩ ⟨511, 0, 8⟩) svc
  { s with ctx := { s.ctx with ctxs := [(4095, ⟨255, 0, none, 0, false, none, false, [], 1, none⟩)] } }
/-- R81, R124: an FLR frees the channel and destroys the context. -/
theorem test_flr : (vfBusy.port 0).on 255 = true ∧ vfBusy.pp.state = .service ∧ (vfBusy.chan 511).owner = masterOf 255 ∧
    ((after (.flr 255) vfBusy).chan 511).owner = 0 ∧ (after (.flr 255) vfBusy).ctx.ctxs = [] := by decide +kernel
/-- R226: the states of a TDI in order. -/
theorem test_tdi_locks : (svc.fn 1).tdi = .unlocked ∧ ((after (.tdispRequest 1 1) svc).fn 1).tdi = .locked ∧
    ((after (.tdispRequest 1 2) (after (.tdispRequest 1 1) svc)).fn 1).tdi = .run ∧ ((after (.tdispRequest 1 2) svc).fn 1).tdi = .unlocked := by
  decide +kernel
theorem test_tdi_error : ((after (.tdiError 1) (after (.tdispRequest 1 1) svc)).fn 1).tdi = .error ∧
    ((after (.tdispRequest 1 0) (after (.tdiError 1) (after (.tdispRequest 1 1) svc))).fn 1).tdi = .unlocked := by decide +kernel
/-- Function 2 with vector 3 pending under its mask. -/
def vecPending : State := svc.setFn 2 fun h => { h with vecs := [⟨0, 0, true, false⟩, ⟨0, 0, true, false⟩, ⟨0, 0, true, false⟩, ⟨64, 9, true, true⟩] }
theorem test_unmask_sends : (vecPending.fn 2).vecs[3]? = some ⟨64, 9, true, true⟩ ∧ vecPending.fnPort 2 = some 0 ∧ (vecPending.fn 2).fnMask = false ∧
    (after (.msixUnmask 2 (some 3)) vecPending).out = [.msix 2 3 0 64 9] := by decide +kernel
theorem test_unmask_without_port : (inState .off).fnPort 2 = some 0 ∨ (State.reset).fnPort 2 = none := by decide +kernel

/-- R64, R85: power-on from either supply. -/
theorem test_power_on : State.reset.pp.aonPowered = false ∧ (after (.alwaysOnPowerOn ⟨40000, true⟩ 0 5) State.reset).pp.phase = 1 ∧
    (after (.alwaysOnPowerOn ⟨0, false⟩ 13200 5) State.reset).aon.boot = 1 ∧ (after (.alwaysOnPowerOn ⟨39999, true⟩ 10799 5) State.reset).pp.state = .off ∧ (after (.alwaysOnPowerOn ⟨40000, false⟩ 0 5) State.reset).pp.state = .off := by
  decide +kernel
theorem test_share_heartbeat : (after .keeperHeartbeat svc).out = [.shareHeartbeat 0] := by decide +kernel
/-- R60: the lead passes 500 µs after the last heartbeat. -/
theorem test_lead_passes : svc.aon.otherFit = true ∧ svc.aon.lead = 0 ∧ 500000 ≤ svc.aon.clock - svc.aon.heartbeatAt ∧
    (after .leadShareTakeover svc).aon.lead = 1 ∧ (after .leadShareTakeover (after .keeperHeartbeat svc)).aon.lead = 0 := by decide +kernel
/-- R65: a tick adds 40 ns, a slew tick 80 or 0. -/
theorem test_tick : (after .timebaseTick svc).aon.timebase = 1000000040 ∧
    (after .timebaseTick { svc with aon := { svc.aon with slewTicks := 63, slewLeft := 40 } }).aon.timebase = 1000000080 ∧
    (after .timebaseTick { svc with aon := { svc.aon with slewTicks := 63, slewLeft := -40 } }).aon.timebase = 1000000000 := by decide +kernel

/-- What a phase without failures reports. -/
def passed : PhaseReport :=
  { iaPass := true, ibPass := true, failedUnits := [], trained := [0, 17], otherOk := true }
/-- A module in a start-up phase. -/
def phase (n : Nat) : State := { svc with pp := { svc.pp with state := .startup, phase := n } }
theorem test_phase_2 : (phase 2).pp.thermalHold = false ∧ (after (.startPhaseEnd passed) (phase 2)).pp.phase = 3 ∧
    (after (.startPhaseEnd { passed with iaPass := false }) (phase 2)).cx.active = 1 := by decide +kernel
theorem test_phase_9 : (phase 9).aboveFloor = true ∧ ((phase 9).link 17).retired = false ∧
    (after (.startPhaseEnd passed) (phase 9)).pp.state = .service ∧ ((after (.startPhaseEnd passed) (phase 9)).link 17).state = .identified := by
  decide +kernel
/-- R90: the first timeout turns to the other complex, the second to management only. -/
theorem test_phase_timeout : (phase 3).cx.active = 0 ∧ (phase 3).complex 1 = .standby ∧ (after .startPhaseTimeout (phase 3)).cx.active = 1 ∧
    (after .startPhaseTimeout (phase 3)).complex 0 = .heldInReset ∧ (after .startPhaseTimeout (after .startPhaseTimeout (phase 5))).pp.state = .mgmtOnly := by
  decide +kernel

theorem test_clock_switch : ((after (.coreClockSwitch 7) (svc.setDie 7 fun x => { x with ordered := some 15 })).die 7).point = 15 := by
  decide +kernel
/-- An idle core that is ACTIVE. -/
def awake : State := svc.setCore 511 fun c => { c with power := .active }
theorem test_idle_core_gated : (awake.core 511).step = none ∧ ((after (.idleDemoteGated 511) awake).core 511).power = .gated := by decide +kernel
/-- A core and a slice that have been ordered to wake. -/
def waking : State := { svc with fleet := { svc.fleet with waking := [.core 511, .slice 7 47] } }
theorem test_wakes : ((after (.wakeComplete (.core 511)) waking).core 511).power = .active ∧
    tabGet? ((after (.wakeComplete (.slice 7 47)) waking).die 7).slicePower 47 = some .active := by decide +kernel
/-- A byte in the scratchpad of core 8, and one in core 9's. -/
def scratch : State := { svc with mem := { cells := [(scratchBase + 8 * mib2, 7), (scratchBase + 9 * mib2, 9)], poison := [] } }
theorem test_core_off : scratch.mem.wf = true ∧ scratch.coreLive 8 = false ∧ scratch.belowFloor (.core 8) .off = false ∧
    (after (.powerStateOrder (.core 8) .off) scratch).mem.read (scratchBase + 8 * mib2) = 0 ∧
    (after (.powerStateOrder (.core 8) .off) scratch).mem.read (scratchBase + 9 * mib2) = 9 := by decide +kernel
/-- R73: an assigned core keeps its contents. -/
theorem test_live_core_retains : (overdue.coreLive 9) = true ∧
    ((after (.powerStateOrder (.core 9) .off) { overdue with pp := svc.pp }).core 9).power = .retain := by decide +kernel
theorem test_core_retains : ((after (.powerStateOrder (.core 9) .retain) svc).core 9).power = .retain := by decide +kernel

/-! ## Phoger commands: module, memory, contexts (R74–R83, R93–R101, R209–R223, R236) -/

theorem test_caps : svc.admits pf (.capsQuery 28) ∧ (after (.capsQuery pf 28) svc).cx.answers.map (·.status) = [ST_OK] :=
  ⟨adm (by decide +kernel), by decide +kernel⟩
theorem test_setting_read : svc.admits pf (.settingRead 2) ∧ (settingRow 2).isSome = true ∧
    (after (.settingRead pf 2) svc).cx.answers.map (·.payload) = [leBytes 8 3600 ++ [1, 0, 0, 0, 0, 0, 0, 0]] :=
  ⟨adm (by decide +kernel), by decide +kernel⟩
/-- R93, R100: a runtime value outranks the others. -/
theorem test_setting_write : svc.admits pf (.settingWrite 8 4) ∧ (settingRow 8).any (fun r => r.runtime && r.ok 4) = true ∧
    (after (.settingWrite pf 8 4) svc).setting 8 = 4 ∧ svc.setting 8 = 3 ∧ (after (.settingWrite pf 8 5) svc).setting 8 = 3 :=
  ⟨adm (by decide +kernel), by decide +kernel⟩
/-- R99: with no key enrolled the PF's key is accepted. -/
theorem test_key_enrols : svc.admits pf (.sitekeyEnrol 1 (count 96) (zeros 96)) ∧
    (after (.sitekeyEnrol pf (count 96) (zeros 96)) svc).cfg.siteKey = some (count 96) := ⟨adm (by decide +kernel), by decide +kernel⟩
/-- A module with a site key. -/
def keyed : State := { svc with cfg := svc.cfg.setSiteKey (some (count 96)) }
/-- A signature whose r is zero is refused without arithmetic on the key. -/
theorem test_key_kept : keyed.admits pf (.sitekeyEnrol 1 (zeros 96) (zeros 96)) ∧ keyed.admits pf (.sitekeyEnrol 2 (zeros 96) (zeros 96)) ∧
    (after (.sitekeyEnrol pf (zeros 96) (zeros 96)) keyed).cfg.siteKey = some (count 96) :=
  ⟨adm (by decide +kernel), adm (by decide +kernel), by decide +kernel⟩
theorem test_sitelayer_accepted : svc.admits pf (.sitelayerWrite ⟨64, 160, none⟩) ∧ svc.deferredOf (.host 0) < 16 ∧
    (after (.sitelayerWrite pf ⟨64, 160, none⟩) svc).cx.deferred = [⟨0, pf, .sitelayerWrite ⟨64, 160, none⟩⟩] :=
  ⟨adm (by decide +kernel), by decide +kernel⟩
/-- A site layer to be checked. -/
def layering : State := after (.sitelayerWrite pf ⟨64, 160, none⟩) svc
/-- R96: bytes that are no layer leave the settings alone. -/
theorem test_sitelayer_check : layering.item 0 = some ⟨0, pf, .sitelayerWrite ⟨64, 160, none⟩⟩ ∧ layering.supervisorRuns = true ∧
    layering.siteStatus (zeros 160) ≠ ST_OK ∧ (after (.sitelayerWriteCheck 0 (.ok (zeros 160))) layering).cx.deferred = [] := by decide +kernel

theorem test_suspend : svc.admits pf .moduleSuspend ∧ (after (.moduleSuspend pf) svc).pp.hold = true ∧
    (after (.moduleSuspend pf) svc).pp.state = .drain := ⟨adm (by decide +kernel), by decide +kernel⟩
/-- R76: in DRAIN it is refused. -/
theorem test_suspend_in_drain : (after (.moduleSuspend pf) draining).cx.answers.map (·.status) = [ST_STATE] := by decide +kernel
/-- A module held in RETAIN. -/
def heldRetain : State := { retained with pp := { retained.pp with hold := true } }
theorem test_resume : heldRetain.admits pf .moduleResume ∧ (after (.moduleResume pf) heldRetain).pp.hold = false :=
  ⟨adm (by decide +kernel), by decide +kernel⟩
theorem test_stop : svc.admits pf .moduleStop ∧ heldRetain.admits pf .moduleStop ∧ (after (.moduleStop pf) svc).pp.stopping = true ∧
    (after (.moduleStop pf) heldRetain).pp.state = .standby := ⟨adm (by decide +kernel), adm (by decide +kernel), by decide +kernel⟩
theorem test_start : stby.pp.state = .standby ∧ (after (.moduleStart bmc) { stby with pp := { stby.pp with hold := true } }).pp.hold = false := by
  decide +kernel
theorem test_module_reset : svc.admits pf (.moduleReset 1) ∧ svc.ctx.dumpBase = none ∧ (after (.moduleResetModule pf) vfBusy).ctx.ctxs = [] ∧
    (after (.moduleResetModule pf) svc).pp.phase = 3 := ⟨adm (by decide +kernel), by decide +kernel⟩
theorem test_cold_reset : svc.admits bmc (.moduleReset 2) ∧ (after (.moduleResetCold bmc) svc).pp.phase = 2 ∧
    (after (.moduleResetCold bmc) svc).cfg.bindingLocked = false := ⟨adm (by decide +kernel), by decide +kernel⟩
theorem test_die_reset : svc.admits pf (.dieReset 7) ∧ (svc.die 7).retired = false ∧ svc.deferredOf (.host 0) < 16 ∧
    ((after (.dieReset pf 7) svc).die 7).resetting = true := ⟨adm (by decide +kernel), by decide +kernel⟩
theorem test_die_reset_complete : ((after (.dieReset pf 7) svc).die 7).resetting = true ∧ (after (.dieReset pf 7) svc).pp.state = .service ∧
    ((after (.dieResetComplete 7) (after (.dieReset pf 7) svc)).die 7).resetting = false := by decide +kernel

/-- A region that holds the PF's memory, granted to VF 1. -/
def granted : State := after (.memGrant pf 1 0 65536) svc
theorem test_grant : svc.admits pf (.memGrant 1 0 65536) ∧ svc.tdiFixed 1 = false ∧ svc.pfFree 0 65536 = true ∧
    granted.ctx.grants = [⟨1, 0, 65536⟩] := ⟨adm (by decide +kernel), by decide +kernel⟩
/-- Its memory holds a byte while it is revoked. -/
def revoked : State := after (.memRevoke pf 1 0 65536) { granted with mem := { cells := [(5, 5), (65536, 6)], poison := [] } }
theorem test_revoke : granted.admits pf (.memRevoke 1 0 65536) ∧ granted.tdiFixed 1 = false ∧ granted.regionBusy 1 0 65536 = false ∧
    granted.ctx.grants.contains ⟨1, 0, 65536⟩ = true ∧ revoked.ctx.zeroing = [⟨0, 0, 65536⟩] := ⟨adm (by decide +kernel), by decide +kernel⟩
theorem test_revoke_zeroes : revoked.ctx.zeroing.find? (fun x => x.base == 0) = some ⟨0, 0, 65536⟩ ∧ revoked.mem.wf = true ∧
    (after (.revokeZeroingEnd 0) revoked).mem.cells = [(65536, 6)] := by decide +kernel

/-- A context of the PF. -/
def ctx1 : State := after (.ctxCreate pf 0 1 (some 5) 0) svc
theorem test_ctx_create : svc.admits pf (.ctxCreate 0 1 (some 5) 0) ∧ svc.inTierMemory 0 0 tableBytes = true ∧
    meets svc.tableIvs 0 tableBytes = false ∧ (List.range 4096).find? svc.ctagFree = some 0 ∧ (ctx1.context 0).pasid = some 5 :=
  ⟨adm (by decide +kernel), by decide +kernel⟩
theorem test_ctx_destroy : ctx1.admits pf (.ctxDestroy 0) ∧ ctx1.ownCtx (.host 0) 0 true = .inr (ctx1.context 0) ∧
    ctx1.deferredOf (.host 0) < 16 ∧ ((after (.ctxDestroy pf 0) ctx1).context 0).dying = true := ⟨adm (by decide +kernel), by decide +kernel⟩
/-- The context being destroyed. -/
def dying : State := after (.ctxDestroy pf 0) ctx1
theorem test_ctx_destroyed : tabGet? dying.ctx.ctxs 0 = some (dying.context 0) ∧ (dying.context 0).dying = true ∧ dying.supervisorRuns = true ∧
    (after (.ctxDestroyComplete 0) dying).ctx.ctxs = [] ∧
    (after (.ctxDestroyComplete 0) dying).cx.answers.map (fun a => (a.kind, a.status)) = [(2, ST_OK), (2, ST_ACCEPTED), (3, ST_OK)] := by
  decide +kernel

/-- An entry of two megabytes of the PF's memory. -/
def entry : RangeEntry := { vaBase := 0, length := 0x200000, target := 0x10000000, kind := 1, perms := 7, attrs := 0 }
/-- The context with that entry mapped. -/
def mapped1 : State := after (.rangeMap pf 0 0 [entry]) ctx1
theorem test_range_map : ctx1.admits pf (.rangeMap 0 0 [entry]) ∧ ctx1.ownCtx (.host 0) 0 false = .inr (ctx1.context 0) ∧
    bit entry.attrs 0 = false ∧ ctx1.entryOk 0 entry = true ∧ ctx1.mem.wf = true ∧
    rangesOrdered (tableAfter (ctx1.mem.ranges (ctx1.context 0).tableBase) 0 [entry]) = true ∧ mapped1.mem.readN 0 32 = rangeBytes entry :=
  ⟨adm (by decide +kernel), by decide +kernel⟩
/-- The context while its invalidation is under way. -/
def invalidating : State := after (.rangeInvalidateAll pf 0) mapped1
theorem test_invalidate : mapped1.admits pf (.rangeInvalidateAll 0) ∧ mapped1.ownCtx (.host 0) 0 false = .inr (mapped1.context 0) ∧
    invalidating.ctx.invalidating = [0] ∧ invalidating.cx.answers = mapped1.cx.answers := ⟨adm (by decide +kernel), by decide +kernel⟩
theorem test_invalidation_commits : invalidating.host.reads = [] ∧ invalidating.wt.entries = [] ∧ invalidating.supervisorRuns = true ∧
    (after (.invalidationCommit 0) invalidating).ctx.invalidating = [] ∧
    (after (.invalidationCommit 0) invalidating).cx.answers.length = 3 := by decide +kernel
/-- R236: a key slot takes a key whose halves differ. -/
theorem test_key_slot : ctx1.admits pf (.keySlotSet 0 (count 64)) ∧ (count 64).take 32 ≠ (count 64).drop 32 ∧
    (ctx1.mapped (ctx1.context 0)).any (fun e => e.kind == 1 && bit e.attrs 0) = false ∧
    ((after (.keySlotSet pf 0 (count 64)) ctx1).context 0).key = some (count 64) ∧
    ((after (.keySlotSet pf 0 (zeros 64)) ctx1).context 0).key = none := ⟨adm (by decide +kernel), by decide +kernel⟩

/-! ## Phoger commands: steps, queues, programs, pools (R163–R182, R276–R279, R366–R383) -/

/-- A record of step 0 of queue 64, of context 0. -/
def step0 (c : StepCond) : StepRec :=
  { svc.stepOf 64 0 0 0 [] with cond := c, cores := [5], program := 1, fn := 0 }
/-- Context 0 with queue group 1, and the step on core 5. -/
def stepped (c : StepCond) : State :=
  let s := mapped1.setCore 5 fun x => { x with power := .active, step := some (64, 0), tag := some 0 }
  { s with dq := { s.dq with groups := [(1, ⟨0, 0, 0⟩)], queues := [(64, { freshQueue with configured := true, log2 := 4, producer := 1, consumed := 1 })],
                             steps := [step0 c] } }
/-- The step suspended, its cores held. -/
def suspended : State := { stepped .suspended with dq := { (stepped .suspended).dq with steps := [{ step0 .suspended with coresHeld := true }] } }
theorem test_resume_step : suspended.admits pf (.stepResume 0 64 0) ∧ suspended.ownCtx (.host 0) 0 false = .inr (suspended.context 0) ∧
    suspended.queueOfCtx 0 64 = true ∧ (suspended.step? 64 0).any (fun x => suspended.coresFree x && x.coresHeld && x.ended.isNone) = true ∧
    ((after (.stepResume pf 0 64 0) suspended).step? 64 0).map (·.cond) = some .running := ⟨adm (by decide +kernel), by decide +kernel⟩
theorem test_abort_running : (stepped .running).admits pf (.stepAbort 0 64 0) ∧
    (stepped .running).ownCtx (.host 0) 0 true = .inr ((stepped .running).context 0) ∧ (stepped .running).queueOfCtx 0 64 = true ∧
    (stepped .running).step? 64 0 = some (step0 .running) ∧
    ((after (.stepAbort pf 0 64 0) (stepped .running)).step? 64 0).map (·.cond) = some .aborting := ⟨adm (by decide +kernel), by decide +kernel⟩
theorem test_abort_waiting : (stepped .awaiting).step? 64 0 = some (step0 .awaiting) ∧
    (after (.stepAbort pf 0 64 0) (stepped .awaiting)).dq.steps.all (fun t => t.ended == some ST_ABORTED) = true := by decide +kernel
theorem test_abort_completes : (stepped .aborting).step? 64 0 = some (step0 .aborting) ∧
    ((after (.stepAbortComplete 64 0) (stepped .aborting)).core 5).step = none := by decide +kernel

theorem test_qgroup_assign : ctx1.admits pf (.qgroupAssign 1023 0 0 0) ∧ tabGet? ctx1.ctx.ctxs 0 = some (ctx1.context 0) ∧
    tabGet? ctx1.dq.groups 1023 = none ∧ (after (.qgroupAssign pf 1023 0 0 0) ctx1).group 65535 = some ⟨0, 0, 0⟩ :=
  ⟨adm (by decide +kernel), by decide +kernel⟩
/-- The context with group 1,023. -/
def grouped : State := after (.qgroupAssign pf 1023 0 0 0) ctx1
theorem test_qgroup_release : grouped.admits pf (.qgroupRelease 1023) ∧ tabGet? grouped.dq.groups 1023 = some ⟨0, 0, 0⟩ ∧
    grouped.groupUnended 1023 = false ∧ (after (.qgroupRelease pf 1023) grouped).dq.groups = [] := ⟨adm (by decide +kernel), by decide +kernel⟩
/-- R174: rings of 16 to 65,536 entries. -/
theorem test_queue_configure : grouped.admits pf (.queueConfigure 65535 3 16 4096) ∧ grouped.group 65535 = some ⟨0, 0, 0⟩ ∧
    grouped.ownCtx (.host 0) 0 false = .inr (grouped.context 0) ∧ (grouped.queue 65535).unended = false ∧
    ((after (.queueConfigure pf 65535 3 4 4096) grouped).queue 65535).log2 = 4 ∧
    (after (.queueConfigure pf 65535 3 17 4096) grouped).cx.answers.map (·.status) = [ST_OK, ST_OK, ST_RANGE] :=
  ⟨adm (by decide +kernel), by decide +kernel⟩

/-- Sections of a container, each from a multiple of 64 bytes on: directory entries and body. -/
def sections : Nat → List (Nat × List Byte) → List Byte × List Byte
  | _, [] => ([], [])
  | off, (k, b) :: r =>
    let pad := (64 - b.length % 64) % 64
    let x := sections (off + b.length + pad) r
    (leBytes 2 k ++ leBytes 2 1 ++ zeros 4 ++ leBytes 8 off ++ leBytes 8 b.length ++ leBytes 4 (crc32c b) ++ zeros 4 ++ x.1, b ++ zeros pad ++ x.2)

/-- A container of generation 2 with a digest written out (R163, R164). -/
def container (kind : Nat) (digest : List Byte) (secs : List (Nat × List Byte)) : List Byte :=
  let n := secs.length
  let start := (64 + 32 * n + 63) / 64 * 64
  let x := sections start secs
  let rest := x.1 ++ zeros (start - 64 - 32 * n) ++ x.2
  leBytes 4 0x50474843 ++ [BitVec.ofNat 8 kind, 2, 1, 0] ++ leBytes 8 (64 + rest.length) ++ leBytes 4 n ++ zeros 4 ++ leBytes 8 9
    ++ digest ++ rest

/-- The SHA-256 digest of the object's body. -/
def objectDigest : List Byte :=
  [0x7c, 0x4d, 0xc4, 0xb0, 0x64, 0xa9, 0xe4, 0x51, 0xa5, 0x5d, 0x3f, 0x29, 0x83, 0xdc, 0x2c,
   0x25, 0x30, 0x7b, 0x9c, 0xdb, 0x60, 0x56, 0x6a, 0xd8, 0xb0, 0x66, 0x5a, 0xd2, 0x64, 0x29, 0xa7, 0xcb]

/-- A program object for one core of die 0 with one bundle of NOPs (R276–R278). -/
def object : List Byte :=
  container 1 objectDigest [(1, [1] ++ zeros 13 ++ [1, 0] ++ leBytes 4 12288 ++ zeros 44), (2, zeros 32), (3, zeros 5 ++ [0, 1] ++ zeros 9), (5, [])]
theorem test_object_length : object.length = 384 := by decide +kernel
/-- The context with the object in its memory and its load accepted. -/
def loading : State :=
  after (.programLoad pf 0 0 384) { mapped1 with mem := mapped1.mem.writeN 0x10000000 object }
theorem test_program_load : mapped1.admits pf (.programLoad 0 0 384) ∧ mapped1.ownCtx (.host 0) 0 false = .inr (mapped1.context 0) ∧
    mapped1.handlesOf 0 < 256 ∧ mapped1.deferredOf (.host 0) < 16 ∧ loading.item 2 = some ⟨2, pf, .programLoad 0 0 384⟩ :=
  ⟨adm (by decide +kernel), by decide +kernel⟩
theorem test_object_read : loading.supervisorRuns = true ∧ tabGet? loading.ctx.ctxs 0 = some (loading.context 0) ∧ (loading.context 0).dying = false ∧
    (match loading.sourceBytes 0 0 384 .poisoned with
    | .bytes b => decide (b = object)
    | _ => false) = true := by decide +kernel
theorem test_object_sound : containerStatus 1 4 384 object = none := by decide +kernel
/-- R276–R279: what the object spells. -/
theorem test_object_parses : loading.sourceMapped 0 256 32 3 = true ∧
    (match parseProgram 0 1 0 object with
    | .inr p => decide ((p.handle, p.codeVa, p.codeLen, p.coresPerDie) = (1, 256, 32, [1, 0, 0, 0, 0, 0, 0, 0]))
    | .inl _ => false) = true := by decide +kernel
/-- R164: bytes of another kind are malformed, and the notice says so. -/
theorem test_object_of_another_kind : containerStatus 1 4 384 (zeros 384) = some ST_MALFORMED ∧
    (after (.programLoadCheck 2 .poisoned) { loading with mem := mapped1.mem }).cx.answers.map (·.status) = [ST_OK, ST_OK, ST_ACCEPTED, ST_MALFORMED] := by
  decide +kernel
/-- A loaded program. -/
def program1 : Program :=
  { ctag := 0, handle := 1, objectId := 9, codeVa := 256, codeLen := 32, coresPerDie := [1, 0, 0, 0, 0, 0, 0, 0], releaseNs := 0, syncPerCore := 0
    schedCheck := false, saveBytes := 12288, syncModes := 0, commons := List.replicate 8 (0, 0), groups := [⟨0, 0, 0, 1⟩], barriers := []
    liveSets := [], loaded := true }
/-- The context with it. -/
def loaded : State := { mapped1 with ctx := { mapped1.ctx with programs := [program1] } }
theorem test_program_unload : loaded.admits pf (.programUnload 0 1) ∧
    loaded.ctx.programs.any (fun x => x.ctag == 0 && x.handle == 1 && x.loaded) = true ∧
    (after (.programUnload pf 0 1) loaded).ctx.programs.map (·.loaded) = [false] := ⟨adm (by decide +kernel), by decide +kernel⟩

/-- R366: a pool of sixteen blocks of 16 KiB. -/
theorem test_pool_create : svc.admits pf (.poolCreate 63 14 0 0 262144) ∧ svc.poolRangeOk 63 14 0 0 262144 = true ∧ svc.pool? 63 = none ∧
    ((after (.poolCreate pf 63 14 0 0 262144) svc).pool? 63).map (fun p => (p.log2, p.length)) = some (14, 262144) :=
  ⟨adm (by decide +kernel), by decide +kernel⟩
/-- A held block of context 0 in record 1 of pool 0. -/
def block : KvRec := { freshKv with state := .held, sequence := 7, framePa := 0x20004000, count := 1, owner := 0 }
/-- A pool with that block, beside context 0, and a second context. -/
def pooled : State :=
  let p : Pool := { newPool 0x20000000 262144 14 0 (count 64) with recs := [(1, block)], frames := [(1, .own)] }
  { mapped1 with kv := { mapped1.kv with pools := [(0, p)] }
                 ctx := { mapped1.ctx with ctxs := mapped1.ctx.ctxs ++ [(1, ⟨0, 0x40000000, none, 0, false, none, false, [], 1, none⟩)] } }
/-- An empty pool. -/
def emptyPool : State := { svc with kv := { svc.kv with pools := [(0, newPool 0x20000000 262144 14 0 (count 64))] } }
theorem test_pool_destroy : emptyPool.admits pf (.poolDestroy 0) ∧ (emptyPool.pool? 0).map (·.busy) = some false ∧
    (after (.poolDestroy pf 0) emptyPool).ctx.zeroing = [⟨0, 0x20000000, 262144⟩] := ⟨adm (by decide +kernel), by decide +kernel⟩
/-- R379: an offer of the sequence. -/
def offer : KvOfferReq := ⟨0, 1, 0, 7, 0⟩
/-- The offer made. -/
def offered : State := after (.kvOffer pf offer) pooled
theorem test_offer : pooled.admits pf (.kvOffer 1 offer) ∧ pooled.ownCtx (.host 0) 0 false = .inr (pooled.context 0) ∧
    pooled.ownCtx (.host 0) 1 false = .inr (pooled.context 1) ∧ (pooled.pool? 0).map (fun p => pooled.sequenceOf p 0 7) = some [1] ∧
    offered.kv.offers = [⟨1, 0, 1, 0⟩] ∧ (offered.pool? 0).map (fun p => (p.record 1).offer) = some 1 := ⟨adm (by decide +kernel), by decide +kernel⟩
theorem test_offer_cancel : offered.admits pf (.kvOffer 2 { offer with offer := 1 }) ∧
    offered.kv.offers.any (fun o => o.number == 1 && o.from_ == 0) = true ∧
    (after (.kvOfferCancel pf { offer with offer := 1 }) offered).kv.offers = [] := ⟨adm (by decide +kernel), by decide +kernel⟩
theorem test_accept : offered.admits pf (.kvAccept 1 1 8) ∧ offered.ownCtx (.host 0) 1 false = .inr (offered.context 1) ∧
    offered.kv.offers.find? (fun x => x.number == 1 && x.to_ == 1) = some ⟨1, 0, 1, 0⟩ ∧
    ((after (.kvAccept pf 1 1 8) offered).pool? 0).map (fun p => ((p.record 1).owner, (p.record 1).sequence, (p.record 1).offer)) = some (1, 8, 0) :=
  ⟨adm (by decide +kernel), by decide +kernel⟩
theorem test_hint : pooled.admits pf (.kvHint 0 0 3 7) ∧ (pooled.pool? 0).isSome = true ∧
    ((after (.kvHint pf 0 0 3 7) pooled).pool? 0).map (fun p => ((p.record 1).hint, (p.record 2).hint)) = some (3, 0) :=
  ⟨adm (by decide +kernel), by decide +kernel⟩

/-! ## Weights, adapters, placement (R417, R418, R435–R464) -/

/-- An image of model 15, epoch 1: one layer of one shard of two frames on die 0, one uncoded E4M3 tensor (R437–R440). -/
def shard : Shard :=
  { layer := 0, die := 0, form := 1, reader := 0, mask := 1, hostAddr := 4096, storedLen := 4097, storePa := 0x30000000, storeLen := 12288
    stagePa := capBase, firstTensor := 0, tensorCount := 1, digest := zeros 32 }
def image : Image :=
  { model := 15, epoch := 1, protected_ := false, mask := 1, layers := [(0, 1, 4097)], shards := [shard], tensors := [⟨0, 2, 0xFF, 0, 0, 0, 4096⟩]
    stageBase := [capBase, 0, 0, 0, 0, 0, 0, 0], stageLen := [65536, 0, 0, 0, 0, 0, 0, 0] }
/-- The digest of its section directory. -/
def imageDigest : List Byte :=
  [222, 118, 6, 184, 42, 154, 202, 21, 198, 141, 23, 21, 181, 154, 33, 224,
   10, 67, 83, 249, 70, 143, 99, 26, 146, 27, 46, 65, 111, 243, 105, 116]
/-- Its container, written out from R437–R440. -/
def imageBytes : List Byte :=
  container 2 imageDigest
    [(1, [15, 0] ++ leBytes 2 1 ++ leBytes 4 1 ++ leBytes 8 1 ++ leBytes 4 1 ++ leBytes 4 1 ++ zeros 8 ++ leBytes 8 capBase ++ zeros 56 ++ leBytes 4 1 ++ zeros 28),
     (2, leBytes 4 0 ++ leBytes 4 1 ++ leBytes 8 4097 ++ zeros 16),
     (3, leBytes 2 0 ++ [0, 1, 0, 0, 0, 0] ++ leBytes 8 1 ++ leBytes 8 4096 ++ leBytes 8 4097 ++ leBytes 8 0x30000000 ++ leBytes 8 12288
       ++ leBytes 8 capBase ++ leBytes 4 0 ++ leBytes 4 1 ++ zeros 32),
     (4, leBytes 4 0 ++ [2, 0xFF, 0, 0] ++ leBytes 8 0 ++ leBytes 8 0 ++ leBytes 4 4096 ++ zeros 4)]

/-- The module in a pod that serves. -/
def serving : State := { svc with fab := { svc.fab with podState := 1 } }
theorem test_epoch_begin : serving.admits pf (.epochBegin 15 1 ⟨64, 576, none⟩) ∧ (serving.model 15).phase = .none_ ∧ (serving.model 15).service < 1 ∧
    serving.placing 15 = false ∧ ((after (.epochBegin pf 15 1 ⟨64, 576, none⟩) serving).model 15).opened = 1 := ⟨adm (by decide +kernel), by decide +kernel⟩
/-- The epoch opened, over one queue with work in it. -/
def opened : State :=
  after (.epochBegin pf 15 1 ⟨64, 576, none⟩) { serving with dq := { serving.dq with queues := [(64, { freshQueue with producer := 9 })] } }
/-- R454: the cuts are the queues' producer indices. -/
theorem test_epoch_commit : opened.admits pf (.epochCommit 15 1) ∧ (opened.model 15).phase = .opened ∧ opened.deferredOf (.host 0) < 16 ∧
    ((after (.epochCommit pf 15 1) opened).model 15).cuts = [(64, 9)] ∧ ((after (.switchReceive 15 1) opened).model 15).cuts = [(64, 9)] :=
  ⟨adm (by decide +kernel), by decide +kernel⟩
/-- The commit, whose tables are to be checked. -/
def checking : State := after (.epochCommit pf 15 1) opened
theorem test_image_length : imageBytes.length = 576 := by decide +kernel
theorem test_commit_waits : checking.supervisorRuns = true ∧ checking.item 1 = some ⟨1, pf, .epochCommit 15 1⟩ ∧ (checking.model 15).phase = .checking ∧
    (checking.model 15).source.map (·.length) = some 576 ∧ checking.pfPort = some 0 := by decide +kernel
/-- The image is sound and lies in memory that is free for it. -/
theorem test_image_sound : containerStatus 2 4 576 imageBytes = none := by decide +kernel
theorem test_image_parses : parseImage 15 1 imageBytes = some image ∧ checking.imagePlaced 15 image = true ∧ (checking.model 15).service = 0 ∧
    image.tensors.all (fun t => t.table == 0xFF) = true := by decide +kernel
theorem test_epoch_abort : checking.admits pf (.epochAbort 15 1) ∧ (checking.model 15).isOpen = true ∧ (checking.model 15).opened = 1 ∧
    (checking.model 15).highest = 0 ∧ ((after (.epochAbort pf 15 1) checking).model 15).phase = .none_ ∧
    (after (.epochAbort pf 15 1) checking).cx.answers.map (fun a => (a.kind, a.status)) = [(2, ST_OK), (2, ST_ACCEPTED), (3, ST_ABORTED), (2, ST_OK)] :=
  ⟨adm (by decide +kernel), by decide +kernel⟩

/-- Layer 0 in distribution, frame 1 of shard 0 received. -/
def staging : State :=
  svc.setModel 15 fun m => { m with phase := .staging, opened := 1, openImage := some image, frames := [(frameKey 0 1, 1)] }
theorem test_frame_taken : (staging.model 15).current = some image ∧ (staging.model 15).shardNow 0 = some shard ∧ shard.frames = 2 ∧
    staging.takesShard shard = true ∧ (staging.model 15).keyOf image = none ∧ (staging.model 15).verified = [] ∧ staging.mem.wf = true ∧
    tabGet? ((staging.setModel 15 fun m => { m with frames := [] }).model 15).frames (frameKey 0 1) = none := by decide +kernel
theorem test_frame_length : (List.replicate 4096 (7 : Byte)).length = 4096 := List.length_replicate
/-- A frame whose CRC is wrong is not staged. -/
theorem test_bad_frame : (tabGet? ((after (.weightFrameReceive 15 0 0 1 (zeros 8)) staging).model 15).frames (frameKey 0 0)) = none := by decide +kernel
theorem test_frame_served : (tabGet? (staging.model 15).frames (frameKey 0 1)).isSome = true ∧ image.shards[0]? = some shard ∧
    (after (.frameRequestReceive 1 15 0 1) staging).out.length = 1 := by decide +kernel
/-- The layer staged whole. -/
def staged : State := staging.setModel 15 fun m => { m with verified := [0] }
theorem test_layer_copied : (staged.model 15).phase = .staging ∧ (staged.model 15).podCommitted = 0 ∧ staged.oldPast 15 0 = true ∧ staged.drained 15 = true ∧
    image.layerShards 0 = [(0, shard)] ∧ shard.padded ≤ shard.storeLen := by decide +kernel
/-- The layer copied here. -/
def copied : State := staged.setModel 15 fun m => { m with phase := .copying }
theorem test_layer_commits : copied.isHead = true ∧ ((after (.layerCommit 15) copied).model 15).frontier = 1 ∧
    ((after (.layerCommit 15) copied).model 15).phase = .waiting := by decide +kernel
/-- The last layer committed on every member: the epoch is in service. -/
def reported : State := after (.layerCommit 15) copied
theorem test_pod_commit : maskWithin reported.podMask (reported.model 15).reported = true ∧ image.layers.length ≤ (reported.model 15).podCommitted + 1 ∧
    ((after (.podLayerCommit 15) reported).model 15).service = 1 ∧ ((after (.podLayerCommit 15) reported).model 15).phase = .none_ := by decide +kernel

/-- An adapter image of rank 1 with one tensor (R449). -/
def adapterDigest : List Byte :=
  [236, 48, 225, 122, 60, 209, 134, 184, 247, 99, 177, 247, 29, 27, 59, 170,
   42, 215, 227, 122, 95, 81, 119, 177, 250, 44, 244, 224, 223, 58, 230, 9]
def adapterBytes : List Byte :=
  container 3 adapterDigest [(1, leBytes 2 1 ++ leBytes 2 1 ++ zeros 60), (2, leBytes 2 0 ++ zeros 2 ++ leBytes 4 0 ++ leBytes 4 1 ++ leBytes 4 1 ++ leBytes 8 0 ++ leBytes 8 2), (3, [1, 2, 3, 4])]
theorem test_adapter_load : mapped1.admits pf (.adapterLoad 0 1023 1 2 0 384) ∧ tabGet? mapped1.wt.adapters 1023 = none ∧
    mapped1.adaptersResident < 1024 ∧ mapped1.deferredOf (.host 0) < 16 ∧
    (after (.adapterLoad pf 0 1023 1 2 0 384) mapped1).cx.deferred = [⟨2, pf, .adapterLoad 0 1023 1 2 0 384⟩] :=
  ⟨adm (by decide +kernel), by decide +kernel⟩
/-- Its load accepted, its bytes in memory. -/
def adapting : State := after (.adapterLoad pf 0 1023 1 2 0 384) { mapped1 with mem := mapped1.mem.writeN 0x10000000 adapterBytes }
theorem test_adapter_sound : adapterBytes.length = 384 ∧ containerStatus 3 4 384 adapterBytes = none := by decide +kernel
theorem test_adapter_parses : parseAdapter 2 1 0 adapterBytes =
      .inr { epoch := 2, sourceVa := 0, length := 384, rank := 1, fmt := 0, tensors := [[0, 0, 1, 1, 0, 2]], dataOff := 320 } ∧
    (match adapting.sourceBytes 0 0 384 .poisoned with
    | .bytes b => decide (b = adapterBytes)
    | _ => false) = true := by decide +kernel
/-- An adapter number with an old epoch to retire. -/
def adapter : AdapterEpoch := { epoch := 2, sourceVa := 0, length := 384, rank := 1, fmt := 0, tensors := [], dataOff := 320 }
def retiring : State :=
  { adapting with wt := { adapting.wt with adapters := [(1023, ⟨0, some adapter, some { adapter with epoch := 1 }, 2⟩)] } }
theorem test_adapter_drops : retiring.adapterBound 1023 (some 1) = false ∧ retiring.item 2 = some ⟨2, pf, .adapterLoad 0 1023 1 2 0 384⟩ ∧
    ((tabGet? (after (.adapterEpochDrop 1023) retiring).wt.adapters 1023).map (·.retiring)) = some none ∧
    (after (.adapterEpochDrop 1023) retiring).cx.deferred = [] := by decide +kernel
theorem test_adapter_unload : retiring.admits pf (.adapterUnload 0 1023) ∧ retiring.adapterBound 1023 none = false ∧
    (after (.adapterUnload pf 0 1023) retiring).wt.adapters = [] := ⟨adm (by decide +kernel), by decide +kernel⟩

/-- A placement table of model 15: one layer, one expert with one replica on device 0 (R417). -/
def placementBytes : List Byte :=
  leBytes 4 0x50584C50 ++ [1, 15] ++ leBytes 2 1 ++ leBytes 4 3 ++ leBytes 4 112 ++ leBytes 8 1 ++ leBytes 4 64 ++ leBytes 2 16 ++ zeros 34
    ++ (leBytes 2 1 ++ zeros 2 ++ leBytes 4 0 ++ zeros 8) ++ (leBytes 2 1 ++ zeros 14 ++ leBytes 4 0 ++ zeros 12)
theorem test_placement_apply : svc.admits pf (.placementApply 15 ⟨64, 112, none⟩) ∧ svc.deferredOf (.host 0) < 16 ∧
    (after (.placementApply pf 15 ⟨64, 112, none⟩) svc).cx.deferred.length = 1 := ⟨adm (by decide +kernel), by decide +kernel⟩
/-- The table to be installed. -/
def placing : State := after (.placementApply pf 15 ⟨64, 112, none⟩) svc
theorem test_placement_installs : placing.supervisorRuns = true ∧ placing.item 0 = some ⟨0, pf, .placementApply 15 ⟨64, 112, none⟩⟩ ∧
    placementBytes.length = 112 ∧ tabGet? placing.wt.placeJobs 15 = none ∧ (placing.fnPort 0).isSome = true ∧
    (match placing.checkPlacement 15 112 placementBytes with
    | .inr p => decide (placing.placeFar p = [] ∧ bit p.mask 0 = true)
    | .inl _ => false) = true ∧ ((after (.placementApplyInstall 0 (.ok placementBytes) false) placing).placement? 15).map (·.version) = some 3 := by
  decide +kernel
/-- The table that member 1 has to install too, its answer not yet come; and one with the answer. -/
def farTable : Placement := ⟨3, 3, 64, 16, []⟩
def installing (answers : Tab Nat) (c : Bool) : State := { placing with wt := { placing.wt with placeJobs := [(15, ⟨farTable, answers, c⟩)] } }
theorem test_placement_goes_on : (installing [] false).placeFar farTable = [1] ∧ after (.placementApplyInstall 0 .poisoned false) (installing [] false) = installing [] false ∧
    (after (.placementApplyInstall 0 .poisoned true) (installing [] false)).cx.answers.map (·.status) = [ST_ACCEPTED, ST_UNREACHED] ∧
    (after (.placementApplyInstall 0 .poisoned false) (installing [(1, ST_BUSY)] false)).cx.answers.map (·.status) = [ST_ACCEPTED, ST_BUSY] ∧
    ((after (.placementApplyInstall 0 .poisoned false) (installing [(1, ST_OK)] false)).placement? 15) = some farTable ∧
    (after (.placementApplyInstall 0 .poisoned false) (installing [(1, ST_OK)] true)).cx.answers.map (·.status) = [ST_ACCEPTED, ST_OK] := by decide +kernel

/-! ## Fabric and pod (R467–R500) -/

/-- Links of a member whose link 0 is planned to a neighbour's link 0. -/
def plannedLinks (n : Nat) : List (Option (Nat × Nat)) := some (n, 0) :: List.replicate 17 none
/-- A pod of two modules, serials 1 and 2, with the circuit 0–0 between them (R483). -/
def plan (head : Nat) : Plan :=
  { head := head, podId := 5, version := 1, mask := 3, members := [⟨1, 0, 0, 0, plannedLinks 1⟩, ⟨2, 1, 0, 0, plannedLinks 0⟩] }
/-- Its bytes. -/
def planBytes (head : Nat) : List Byte :=
  let record (serial dev other : Nat) : List Byte :=
    leBytes 8 serial ++ leBytes 1 dev ++ zeros 7 ++ leBytes 4 (2 ^ 31 + other * 2 ^ 24) ++ zeros 76
  leBytes 4 0x4E414C50 ++ [1, BitVec.ofNat 8 head] ++ leBytes 2 2 ++ leBytes 4 5 ++ leBytes 4 1 ++ leBytes 8 3 ++ zeros 40 ++ record 1 0 1 ++ record 2 1 0
theorem test_plan_bytes : parsePlan (planBytes 1) = some (plan 1) ∧ parsePlan (planBytes 0) = some (plan 0) := by decide +kernel
/-- What a neighbour at the other end of link 0 says of itself. -/
def ident : IdentRec :=
  { serial := 2, podId := 5, planVersion := 1, device := 1, link := 0, rackPos := 0, major := 2, minor := 3, lowest := 1, isHead := false }
/-- A member with link 0 matched and port 0 over it. -/
def inPod (head : Nat) : State :=
  { svc with fab := { svc.fab with
      plan := some (plan head), podState := 1, members := 3
      links := [(0, { freshLink with state := .matched, stage := 3, neighbour := some ident, effMinor := 3, farPort := true })]
      ports := [(0, ⟨1, 1, false, [], [], 0, []⟩)] } }

theorem test_plan_load : svc.admits pf (.planLoad ⟨64, 256, none⟩) ∧ svc.deferredOf (.host 0) < 16 ∧
    (after (.planLoad pf ⟨64, 256, none⟩) svc).cx.deferred.length = 1 := ⟨adm (by decide +kernel), by decide +kernel⟩
/-- R484: a member stages the plan and reports to the head. -/
theorem test_plan_receive : svc.planItem = none ∧ svc.ownRecord (plan 1) = some ⟨1, 0, 0, 0, plannedLinks 1⟩ ∧ svc.memberPlanStatus (plan 1) = ST_OK ∧
    (after (.planReceive (.ok (planBytes 1)) (-80)) svc).fab.staged = some (plan 1) ∧
    (after (.planReceive (.ok (planBytes 1)) (-80)) svc).fab.offset = -80 := by decide +kernel
/-- R498: a commit in STARTUP without ports steps the timebase by whole ticks. -/
theorem test_plan_commit : svc.willStep = true ∧
    (after (.planCommit 99) (after (.planReceive (.ok (planBytes 1)) (-80)) svc)).fab.plan = some (plan 1) ∧
    (after (.planCommit 99) (after (.planReceive (.ok (planBytes 1)) (-80)) svc)).aon.timebase = 1000000080 := by decide +kernel
/-- The head with both members' reports and its own plan staged. -/
def headStaged : State :=
  let s := after (.planLoad pf ⟨64, 256, none⟩) svc
  { s with fab := { s.fab with staged := some (plan 0), reports := [⟨0, 0, true⟩, ⟨1, 40, true⟩] } }
theorem test_head_commits : headStaged.planItem.isSome = true ∧ headStaged.ownRecord (plan 0) = some ⟨1, 0, 0, 0, plannedLinks 1⟩ ∧
    (after (.planCommit 0) headStaged).fab.plan = some (plan 0) ∧ bit (after (.planCommit 0) headStaged).fab.committed 0 = true := by decide +kernel
/-- The head once every member has committed. -/
def headDone : State := { headStaged with fab := { headStaged.fab with staged := none, plan := some (plan 0), committed := 3 } }
theorem test_plan_load_completes : headDone.item 0 = some ⟨0, pf, .planLoad ⟨64, 256, none⟩⟩ ∧ (plan 0).mask = 3 ∧
    (after (.planLoadComplete 0) headDone).cx.answers.map (·.status) = [ST_ACCEPTED, ST_OK] := by decide +kernel
theorem test_pod_state_set : (inPod 0).admits pf (.podStateSet 2) ∧ (inPod 0).podChangeOk 2 = true ∧ (inPod 0).otherMembers = [1] ∧
    (after (.podStateSet pf 2) (inPod 0)).fab.podState = 2 := ⟨adm (by decide +kernel), by decide +kernel⟩
theorem test_pod_state_receive : (inPod 1).isHead = false ∧ (after (.podStateReceive 3) (inPod 1)).fab.podState = 3 := by decide +kernel

/-- The pod in STARTUP without its port. -/
def portless : State := { inPod 0 with fab := { (inPod 0).fab with ports := [], podState := 0 } }
theorem test_port_define : portless.admits pf (.portDefine 17 1) ∧ bitList 18 1 = [0] ∧ (portless.link 0).state = .matched ∧ portless.portOf 0 = none ∧
    portless.portNeighbours (plan 0) 1 = [1] ∧ ((tabGet? (after (.portDefine pf 17 1) portless).fab.ports 17).map (·.neighbour)) = some 1 :=
  ⟨adm (by decide +kernel), by decide +kernel⟩
/-- The pod draining, with one quiet port. -/
def ported : State := { inPod 0 with fab := { (inPod 0).fab with podState := 2 } }
theorem test_port_remove : ported.admits pf (.portRemove 0) ∧ ported.fab.ports = [(0, ⟨1, 1, false, [], [], 0, []⟩)] ∧
    (after (.portRemove pf 0) ported).fab.ports = [] := ⟨adm (by decide +kernel), by decide +kernel⟩

/-- Link 17 in a condition. -/
def linkAt (st : LinkState) (stage : Nat) : State := svc.setLink 17 fun x => { x with state := st, stage := stage }
/-- R468: the stages of training. -/
theorem test_training : ((linkAt .down 0).link 17).retired = false ∧ ((after (.linkTrainingStageEnd 17) (linkAt .down 0)).link 17).state = .training ∧
    ((after (.linkTrainingStageEnd 17) (linkAt .training 1)).link 17).stage = 2 := by decide +kernel
/-- R468, R471: without a plan a link is identified; its neighbour's version must agree. -/
theorem test_identified : versionsAgree ident = true ∧
    ((after (.linkTrainingStageEnd 17) (after (.identityRecordReceive 17 ident) (linkAt .training 2))).link 17).state = .identified ∧
    versionsAgree { ident with lowest := 4 } = false := by decide +kernel
/-- Link 0 as its identity record comes. -/
def identifying (r : IdentRec) : State := after (.identityRecordReceive 0 r) ((inPod 0).setLink 0 fun x => { x with state := .training, stage := 2 })
theorem test_matched : (inPod 0).planNow = some (plan 0) ∧ (identifying ident).agrees (plan 0) 0 ident = true ∧
    ((after (.linkTrainingStageEnd 0) (identifying ident)).link 0).state = .matched := by decide +kernel
theorem test_quarantined : (identifying ident).agrees (plan 0) 0 { ident with link := 1 } = false ∧
    ((after (.linkTrainingStageEnd 0) (identifying { ident with link := 1 })).link 0).state = .quarantined ∧
    ((after (.identityRecordReceive 0 { ident with link := 1 }) (inPod 0)).link 0).state = .quarantined := by decide +kernel
/-- R468: after three attempts a link has failed. -/
theorem test_retrain : ((inPod 0).link 0).trained = true ∧ ((after (.linkRetrain 0 2) (inPod 0)).link 0).attempts = 1 ∧
    ((after (.linkRetrain 0 3) ((inPod 0).setLink 0 fun x => { x with attempts := 3 })).link 0).state = .failed := by decide +kernel
/-- A link that failed 60 s ago. -/
def failedLink : State :=
  let s := linkAt .failed 0
  { s with aon := { s.aon with clock := 60000000000 } }
theorem test_retry : (failedLink.link 17).retired = false ∧ (failedLink.link 17).failedFrom = none ∧ 60000000000 ≤ failedLink.aon.clock - (failedLink.link 17).failedSince ∧
    ((after (.linkRetryTimer 17) failedLink).link 17).attempts = 1 := by decide +kernel

/-- A flit of virtual channel 3 with sequence number 0, and the same with its CRC spoilt (R472). -/
def flitHead : List Byte := leBytes 8 (2 ^ 62 + 3 * 2 ^ 59)
def goodFlit : List Byte := flitHead ++ zeros 240 ++ leBytes 8 1081459076012022440
def badFlit : List Byte := flitHead ++ zeros 248
set_option maxRecDepth 100000 in
theorem test_flit_crc : crc64 (goodFlit.take 248) = fieldAt goodFlit 248 8 ∧ crc64 (badFlit.take 248) ≠ fieldAt badFlit 248 8 := by decide +kernel
set_option maxRecDepth 100000 in
theorem test_flit_taken : goodFlit.length = 256 ∧ ((inPod 0).link 0).trained = true ∧ (inPod 0).fabricRuns = true ∧ ((inPod 0).link 0).rxBuf = [] ∧
    ((inPod 0).link 0).carries 3 = true ∧ bits (fieldAt goodFlit 0 8) 62 2 = 1 ∧ bits (fieldAt goodFlit 0 8) 59 3 = 3 ∧
    bit (fieldAt goodFlit 0 8) 14 = false ∧ bits (fieldAt goodFlit 0 8) 47 12 = ((inPod 0).link 0).rxSeq ∧
    ((after (.flitReceive 0 goodFlit) (inPod 0)).link 0).rxSeq = 1 := by decide +kernel
set_option maxRecDepth 100000 in
theorem test_flit_discarded : badFlit.length = 256 ∧ ((inPod 0).link 0).discarding = false ∧
    ((after (.flitReceive 0 badFlit) (inPod 0)).link 0).discarding = true := by decide +kernel
/-- Link 0 with two flits not acknowledged. -/
def replaying : State := (inPod 0).setLink 0 fun x => { x with txSeq := 2, replay := [goodFlit, badFlit] }
theorem test_nak : (replaying.link 0).trained = true ∧ ((after (.nakReceive 0 1) replaying).link 0).replay = [badFlit] ∧
    ((after (.nakReceive 0 2) replaying).link 0).replay = [] := by decide +kernel
theorem test_credit_audit : ((inPod 0).link 0).replay = [] ∧ ((inPod 0).link 0).txq = [] ∧ (inPod 0).fab.direct = [] ∧
    ((after (.creditAuditReceive 0 [0, 0, 0, 5]) (inPod 0)).link 0).credit 3 = 27 := by decide +kernel
/-- A message to the neighbour that has waited, and one to a member without a route for 1 ms. -/
def storing : State :=
  { inPod 0 with fab := { (inPod 0).fab with store := [(0, [⟨1, 0, 3, zeros 16, none⟩]), (3, [⟨9, 0, 3, zeros 16, some 0⟩])] } }
theorem test_stored_goes : storing.partition 0 = [⟨1, 0, 3, zeros 16, none⟩] ∧ storing.routeWithin 1 3 = some (0, 1) ∧ (storing.link 0).credit 3 ≠ 0 ∧
    (storing.link 0).txq = [] ∧ (after (.forwardStoredMessage 0 0) storing).partition 0 = [] := by decide +kernel
theorem test_stored_discarded : storing.partition 3 = [⟨9, 0, 3, zeros 16, some 0⟩] ∧ storing.routeWithin 9 0 = none ∧ 1000000 ≤ storing.aon.clock - 0 ∧
    (after (.noRouteDiscard 3 0) storing).fab.noRoute = 1 := by decide +kernel

theorem test_heartbeat_send : (inPod 1).fab.plan.isSome = true ∧ (inPod 1).isHead = false ∧ (inPod 1).fabricRuns = true ∧
    (after .heartbeatSend (inPod 1)).out ≠ [] := by decide +kernel
/-- The head before its member's first heartbeat. -/
def alone : State := { inPod 0 with fab := { (inPod 0).fab with members := 1 } }
theorem test_heartbeat_receive : bit (plan 0).mask 1 = true ∧ (alone.route 1).isSome = true ∧ bit alone.fab.members 1 = false ∧
    (after (.heartbeatReceive 1 5) alone).fab.members = 3 ∧ (after (.heartbeatReceive 1 6) alone).fab.members = 1 := by decide +kernel
/-- R489: silent for 1 ms, with a doorbell waiting for it. -/
def silent : State := { inPod 0 with dq := { (inPod 0).dq with relay := [⟨1, 9, 0x100, 1, 0⟩] } }
theorem test_member_lost : bit silent.fab.members 1 = true ∧ 1000000 ≤ silent.aon.clock - tabGet 0 silent.fab.beats 1 ∧
    (after (.memberHeartbeatTimeout 1) silent).fab.members = 1 ∧ (after (.memberHeartbeatTimeout 1) silent).dq.relay = [] ∧
    (after (.memberHeartbeatTimeout 1) silent).dq.discarded = 1 := by decide +kernel
theorem test_time_request : (inPod 1).timeParent = some 1 ∧ (after (.timeRequestSend 7) (inPod 1)).out ≠ [] ∧
    (after (.timeRequestReceive 63 1 2 3) (inPod 0)).out ≠ [] := by decide +kernel
/-- R497: half the difference of the two legs, and the parent's own offset. -/
theorem test_time_response : (after (.timeResponseReceive 100 250 260 310 7) (inPod 1)).fab.offset = 57 ∧
    (after (.timeResponseReceive 100 250 260 310 7) (inPod 1)).fab.locked = false ∧
    (after (.timeResponseReceive 100 250 260 310 0) (inPod 1)).fab.locked = true := by decide +kernel
theorem test_time_lost : 1000000 ≤ (inPod 1).aon.clock - (inPod 1).fab.lastTime ∧
    (after .timeResponseTimeout { inPod 1 with fab := { (inPod 1).fab with locked := true } }).fab.locked = false := by decide +kernel

/-- A member that receives a shard from the head, its first frame missing and its second staged. -/
def joining : State :=
  let sh := { shard with reader := 1, mask := 3 }
  (inPod 1).setModel 15 fun m => { m with
    phase := .staging, opened := 1, openImage := some { image with mask := 3, shards := [sh] }, frames := [(frameKey 0 1, 1)] }
theorem test_frame_asked_for : (joining.model 15).shardNow 0 = some { shard with reader := 1, mask := 3 } ∧
    joining.takesShard { shard with reader := 1, mask := 3 } = true ∧ tabGet? (joining.model 15).frames (frameKey 0 0) = none ∧
    tabGet? (joining.model 15).frames (frameKey 0 1) = some 1 ∧ joining.parent { shard with reader := 1, mask := 3 } = some 1 ∧
    (after (.frameRequestTimeout 15 0 0) joining).out ≠ [] := by decide +kernel
theorem test_frame_round : (joining.model 15).distributing = true ∧ (joining.model 15).missing 0 { shard with reader := 1, mask := 3 } = [0] ∧
    (after (.frameRequestRound 15) joining).out ≠ [] := by decide +kernel

/-! ## Power, firmware (R331–R335, R507–R537, R558–R564) -/

theorem test_cap_set : svc.admits pf (.capSet 900) ∧ svc.admits pf (.capSet 3600) ∧ (after (.capSet pf 900) svc).pwr.cap = 900 ∧
    (after (.capSet pf 875) svc).pwr.cap = 3600 ∧ (after (.capSet pf 901) svc).pwr.cap = 3600 :=
  ⟨adm (by decide +kernel), adm (by decide +kernel), by decide +kernel⟩
/-- R519: matched mode sets the quota to the floor of the cap. -/
theorem test_matched_set : svc.admits pf (.matchedSet 1) ∧ svc.pwr.matched ≠ true ∧ svc.pwr.govClamp = false ∧ svc.pwr.coolant = 0 ∧
    (after (.matchedSet pf 1) svc).pwr.q = qFloor 3600 ∧ (after (.matchedSet pf 0) (after (.matchedSet pf 1) svc)).pwr.matched = false :=
  ⟨adm (by decide +kernel), by decide +kernel⟩
/-- The limiter runs in SERVICE and in DRAIN alone. -/
theorem test_limiting : svc.limiting = true ∧ draining.limiting = true ∧ retained.limiting = false ∧ svc.pwr.q = 1536 ∧ svc.pwr.pace = 8 := by decide +kernel
/-- R309: a BF16 allowance of the whole quota is 64. -/
theorem test_allowance : (svc.diePower 7).droop = false ∧ ((after (.allowanceWindowStart 511 [0]) svc).core 511).allowance = 64 := by decide +kernel
/-- R511: the correction stays within 15 % of the model. -/
theorem test_correction : (svc.diePower 7).senseOut = false ∧ ((after (.correctionUpdate 7 200 100) svc).diePower 7).correction = 1500 ∧
    ((after (.correctionUpdate 7 90 100) svc).diePower 7).correction = -1000 := by decide +kernel
/-- R512: the second interval above the limit raises the trim. -/
theorem test_trim : svc.liveLimit = 28800 ∧ (after (.governorTrim 3700) svc).pwr.overCount = 1 ∧ (after (.governorTrim 3700) svc).pwr.trim = 0 ∧
    (after (.governorTrim 3700) (after (.governorTrim 3700) svc)).pwr.trim = 800 := by decide +kernel
theorem test_governor : svc.pwr.govClamp = false ∧ 100000 ≤ svc.aon.clock - svc.pwr.govBeat ∧ (after .governorClamp svc).pwr.govClamp = true ∧
    (after (.governorHeartbeat 3) (after .governorClamp svc)).pwr.govClamp = false ∧
    (after (.governorHeartbeat 4) (after .governorClamp svc)).pwr.govClamp = true := by decide +kernel

/-- A die under its droop clamp. -/
def drooping : State := svc.setDiePower 7 fun x => { x with droop := true, droopsNow := 1, lastLow := 1000000000 }
theorem test_droop : (svc.die 7).retired = false ∧ ((after (.droopDetect 7) svc).diePower 7).droopsNow = 1 ∧ (svc.diePower 7).droop = false ∧
    ((after (.droopRelease 7) drooping).diePower 7).droop = true := by decide +kernel
/-- R524: released 1 µs after the last low reading. -/
theorem test_droop_release :
    ((after (.droopRelease 7) { drooping with aon := { drooping.aon with clock := drooping.aon.clock + 1000 } }).diePower 7).droop = false := by decide +kernel
theorem test_tulle : ((after (.tulleInterval 7 100 0) svc).diePower 7).filling = 0 ∧ ((after (.tulleInterval 7 100 5) svc).diePower 7).currents = [100] := by
  decide +kernel
/-- A die that may change its point: in matched mode; hot; cool below point 15. -/
def adjusting (f : State → State) : State := f (svc.setDie 7 fun x => { x with power := .active, point := 12 })
theorem test_point_matched :
    ((after (.voltagePointAdjust 7) (adjusting fun s => { s with pwr := { s.pwr with matched := true } })).die 7).ordered = some 15 := by decide +kernel
theorem test_point_hot : ((after (.voltagePointAdjust 7) (adjusting fun s => s.setDiePower 7 fun x => { x with thermalCeil := 1024 })).die 7).ordered = some 11 := by
  decide +kernel
theorem test_point_cool : (adjusting id).supervisorRuns = true ∧ ((adjusting id).die 7).ordered = none ∧
    ((after (.voltagePointAdjust 7) (adjusting id)).die 7).ordered = some 13 := by decide +kernel
/-- R508: a setpoint of nothing is below any fused voltage. -/
theorem test_rail_allowed : svc.guardRefuses 7 (.setRail 0) = false := by simp [State.guardRefuses]
theorem test_point_named : ((after (.regulatorCommand 3 7 (.namePoint 15)) svc).die 7).ordered = some 15 ∧
    ((after (.regulatorCommand 3 7 (.namePoint 16)) svc).die 7).ordered = none ∧ (after (.regulatorCommand 3 7 (.setLimit 1)) svc).aon.intake.length = 1 := by
  decide +kernel
/-- R528: one phase of sixteen is excluded. -/
theorem test_phase_fails : (svc.diePower 7).phasesOut = [] ∧ 9 ≤ (svc.diePower 7).phases ∧ ((after (.phaseFailure 7 15) svc).diePower 7).phasesOut = [15] := by
  decide +kernel
theorem test_sense_excluded : ((after (.currentSenseExcluded 7 1) svc).diePower 7).senseOut = true ∧
    ((after (.currentSenseExcluded 7 2) (after (.correctionUpdate 7 200 100) svc)).diePower 7).correction = 0 := by decide +kernel

/-- R532: at 105 °C a die runs at pace 4. -/
theorem test_thermal_sample : ((after (.thermalSample 7 [1680] [0]) svc).diePower 7).thermalPace = 4 ∧
    ((after (.thermalSample 7 [1679] [0]) svc).diePower 7).thermalPace = 8 ∧ ((after (.thermalSample 7 [0] [1600]) svc).diePower 7).thermalPace = 4 := by
  decide +kernel
/-- R533: each 1/16 °C above 70 °C takes 75/8 W off the live limit. -/
theorem test_coolant : (after (.coolantSample 400 1122 3000) svc).pwr.coolant = 150 ∧ (after (.coolantSample 400 1120 3000) svc).pwr.coolant = 0 := by
  decide +kernel
theorem test_trip : tripAt 11 = 1280 ∧ svc.pp.thermalHold = false ∧ (after (.thermalTrip 11 0 1280) svc).pp.thermalHold = true ∧
    (after (.thermalTrip 11 0 1279) svc).pp.state = .service ∧ (after (.thermalTrip 9 0 1840) svc).pp.state = .drain := by decide +kernel
/-- A tripped module one second later. -/
def cooled : State := { svc with
  pp := { svc.pp with state := .retain, thermalHold := true, thermalHoldSince := svc.aon.clock }
  aon := { svc.aon with clock := svc.aon.clock + 1000000000 } }
theorem test_trip_released : cooled.pp.thermalHold = true ∧ 1000000000 ≤ cooled.aon.clock - cooled.pp.thermalHoldSince ∧
    (after (.thermalHoldRelease [1360] [1360] 960) cooled).pp.thermalHold = false ∧
    (after (.thermalHoldRelease [1361] [1360] 960) cooled).pp.thermalHold = true ∧
    (after (.thermalHoldRelease [1360] [1360] 960) (after (.thermalTrip 11 0 1280) svc)).pp.thermalHold = true := by decide +kernel
/-- A reading of 1,200 W. -/
def reading : Telemetry := { meanW := 1200, peakW := 1300, imain := 2200, energyMj := 1200, dieW := [90] }
theorem test_telemetry : (after (.telemetryRefresh reading) drooping).pwr.meanW = 1200 ∧ ((after (.telemetryRefresh reading) drooping).diePower 7).droops = 1 ∧
    ((after (.telemetryRefresh reading) drooping).diePower 0).dieW = 90 ∧ (after (.telemetryRefresh reading) drooping).pwr.energyMj = 1200 := by decide +kernel

theorem test_fw_stage : svc.admits pf (.fwStage ⟨64, 64, none⟩) ∧ svc.cx.standbyReady = true ∧ svc.deferredOf (.host 0) < 16 ∧
    (after (.fwStage pf ⟨64, 64, none⟩) svc).cx.deferred.length = 1 := ⟨adm (by decide +kernel), by decide +kernel⟩
/-- A set being staged whose bytes hold none. -/
def fwStaging : State := after (.fwStage pf ⟨64, 64, none⟩) svc
theorem test_fw_stage_complete : fwStaging.item 0 = some ⟨0, pf, .fwStage ⟨64, 64, none⟩⟩ ∧ fwStaging.cx.stageItems = [] ∧
    fwStaging.cx.standbyReady = true ∧ setLayout (setBytes (zeros 64)) = false := by decide +kernel
/-- A staged set with a library. -/
def library : Library := { version := 2, gateSlot := 0, funcs := [], words := [], pages := [] }
def fwStaged : State := { svc with cx := { svc.cx with staged := some factorySet }, fleet := { svc.fleet with libStaged := some library } }
theorem test_library_written : fwStaged.bankBound = false ∧ fwStaged.supervisorRuns = true ∧ (after .libraryBankWrite fwStaged).fleet.bank1 = some library ∧
    (after .libraryBankWrite { fwStaged with fleet := { fwStaged.fleet with bankInForce := 1 } }).fleet.bank0 = some library := by decide +kernel
theorem test_fw_activate : fwStaged.admits pf .fwActivate ∧ fwStaged.deferredOf (.host 0) < 16 ∧ (after (.fwActivate pf) fwStaged).cx.activating = true :=
  ⟨adm (by decide +kernel), by decide +kernel⟩
/-- The activation, its library written. -/
def activating : State := after (.fwActivate pf) { svc with cx := { svc.cx with staged := some factorySet } }
theorem test_hand_over : activating.cx.activating = true ∧ activating.fleet.libStaged = none ∧ activating.supervisorRuns = true ∧
    activating.cx.active = 0 ∧ (after .fwActivateHandover activating).cx.active = 1 := by decide +kernel
/-- R564: the update goes to the slot that is not preferred. -/
def managed : State := inState .mgmtOnly
theorem test_pldm : managed.cfg.preferred = 0 ∧ managed.cfg.flashB.ok = true ∧
    (after (.pldmFirmwareUpdate { factorySet with setVersion := 9 }) managed).cfg.preferred = 1 ∧
    ((after (.pldmFirmwareUpdate { factorySet with setVersion := 9 }) managed).cfg.flashB.slot.map (·.setVersion)) = some 9 := by decide +kernel
theorem test_spdm : (after (.spdmRequest 0x84) managed).out = [.spdm (spdmResponse 0x84)] ∧ (after (.spdmRequest 0x84) svc).out = [] := by decide +kernel

/-! ## Complexes, the log, errors (R106–R116, R132, R241–R243, R540–R567) -/

theorem test_complex_beats : svc.complex svc.cx.active = .active ∧ (after (.complexHeartbeatWrite 1) svc).cx.dispBeat = 1000000000 ∧
    (after (.complexHeartbeatWrite 2) svc).cx.supBeat = 1000000000 ∧ (after (.complexHeartbeatWrite 3) svc).cx = svc.cx := by decide +kernel
/-- R111, R112: the standby takes over after 500 µs. -/
theorem test_complex_fails : svc.watched = true ∧ svc.beatAbsent = true ∧ (after (.complexFailure false) svc).cx.active = 1 ∧
    (after (.complexFailure false) svc).cx.adopting = true := by decide +kernel
/-- The module without a standby, and then with its active complex held in reset. -/
def single : State := after .standbyComplexFailure svc
def held : State := { single with cx := { single.cx with stateA := .heldInReset, adopting := true } }
theorem test_complex_held : single.cx.standbyReady = false ∧ single.watched = true ∧ (after (.complexFailure true) single).complex 0 = .heldInReset ∧ held.complex held.cx.active = .heldInReset ∧ held.ioPowered 0 = true ∧
    (after (.complexRestart true) held).complex 0 = .active ∧ (after (.complexRestart false) held).pp.state = .mgmtOnly := by decide +kernel
theorem test_adoption : (after (.complexRestart true) held).cx.adopting = true ∧ (after (.adoption ⟨true, []⟩) (after (.complexRestart true) held)).cx.adopting = false ∧
    (after (.adoption ⟨false, []⟩) (after (.complexRestart true) held)).pp.phase = 3 := by
  decide +kernel
theorem test_standby_restarts : single.supervisorRuns = true ∧ single.complex 1 = .heldInReset ∧ single.ioRetired 1 = false ∧
    (after (.standbyRestart true) single).cx.standbyReady = true := by decide +kernel
/-- R107: a line has one owner. -/
def ownedLine : State := { svc with cx := { svc.cx with l2 := [(9, ⟨some 5, [], true, zeros 64, [(5, zeros 64)], []⟩)] } }
theorem test_ownership : after (.ownershipRequest ⟨5, 0, some (zeros 64)⟩ 9 []) svc = ownedLine ∧
    (tabGet freshLine (after (.lineWriteback 9 ⟨5, true, count 64, true⟩ []) ownedLine).cx.l2 9).owner = none ∧
    (tabGet freshLine (after (.lineWriteback 9 ⟨5, true, count 64, true⟩ []) ownedLine).cx.l2 9).data = count 64 ∧
    (tabGet freshLine (after (.lineWriteback 9 ⟨5, true, count 64, false⟩ []) ownedLine).cx.l2 9).leaving = [⟨5, true, count 64⟩] ∧
    (tabGet freshLine (after (.lineWriteback 9 ⟨4, true, count 64, true⟩ []) ownedLine).cx.l2 9).owner = some 5 := by decide +kernel
/-- R107: of two requests in one cycle the lower core's is served first, so that the higher core ends as the owner; a shared copy takes
the owner's line. -/
theorem test_two_requests : (tabGet freshLine (after (.ownershipRequest ⟨3, 0, none⟩ 9 [⟨1, 0, none⟩]) svc).cx.l2 9).owner = some 3 ∧
    (tabGet freshLine (after (.ownershipRequest ⟨2, 2, none⟩ 9 []) ownedLine).cx.l2 9).sharers.contains 2 = true ∧
    (tabGet freshLine (after (.ownershipRequest ⟨2, 2, none⟩ 9 []) ownedLine).cx.l2 9).owner = none := by decide +kernel

/-- A record posted and not yet written. -/
def record : CometRec := { time := 1, boot := 1, code := 0x0101, severity := 1, device := 0, source := 0, ctag := 0, number := 0, payload := [] }
def posted : State := { svc with aon := { svc.aon with intake := [record], intakeLost := 2, intakeLostCode := 0x0101, logCount := 6 } }
theorem test_record_written : posted.aon.intake = [record] ∧ posted.aon.otherFit = true ∧ (after .cometRecordWrite posted).aon.logCount = 7 ∧
    (after .cometRecordWrite posted).aon.ring = [{ record with number := 6 }] ∧ (after .cometRecordWrite posted).aon.intake.length = 1 := by decide +kernel
/-- R550: a read by the BMC raises its mark. -/
theorem test_log_read : svc.admits bmc (.logRead 5 3) ∧ (after (.logRead bmc 5 3) svc).aon.bmcMark = 5 ∧ (after (.logRead pf 5 1) svc).aon.bmcMark = 0 :=
  ⟨adm (by decide +kernel), by decide +kernel⟩
theorem test_dump_region : svc.admits pf (.dumpRegionSet ⟨64, 2 ^ 28, none⟩) ∧
    (after (.dumpRegionSet pf ⟨64, 2 ^ 28, none⟩) svc).rel.dumpHost = some ⟨64, 2 ^ 28, none⟩ := ⟨adm (by decide +kernel), by decide +kernel⟩
/-- R566: a fatal error resets the module. -/
theorem test_fatal : svc.dumpWhere = 0 ∧ (after (.fatalError 1) svc).pp.phase = 3 ∧ (after (.fatalError 4) svc).pp.state = .startup := by decide +kernel
theorem test_audit : (tabGet freshBook svc.rel.books (bookKey (3, 5))).suspect = false ∧
    (tabGet freshBook (after (.audit [(3, 5)]) svc).rel.books (bookKey (3, 5))).suspect = true := by decide +kernel

/-- R541: the 257th corrected error of a core within an hour. -/
def erring : State := { svc with rel := { svc.rel with corrected := List.replicate 256 (.core 511, 1000000000) } }
theorem test_corrected : errorsIn ((.core 511, 1000000000) :: svc.rel.corrected) (.core 511) 1000000000 3600000000000 ≤ 256 ∧
    (after (.correctedError (.core 511)) svc).rel.corrected.length = 1 := by decide +kernel
theorem test_corrected_often : 256 < errorsIn ((.core 511, 1000000000) :: erring.rel.corrected) (.core 511) 1000000000 3600000000000 ∧
    ((after (.correctedError (.core 511)) erring).die 7).retiring = [15] := by decide +kernel
/-- No Supervisor runs while a complex is adopted. -/
def adoptingNow : State := { svc with cx := { svc.cx with adopting := true } }
theorem test_core_error : adoptingNow.ioPowered 0 = true ∧ adoptingNow.supervisorRuns = false ∧
    (after (.uncorrectableError (.coreControl 511)) adoptingNow).rel.uncorrected = [(.core 511, 1000000000)] := by decide +kernel
theorem test_memory_error : adoptingNow.siteOk (.memoryUnit 3) = true ∧ (after (.uncorrectableError (.memoryUnit 3)) adoptingNow).mem.poison = [3] := by
  decide +kernel
/-- A quad marked for retirement. -/
def marked : State := svc.setDie 7 fun x => { x with retiring := [15] }
theorem test_quad_spared : marked.quadHeld 7 15 = false ∧ marked.spareQuads 7 = [16, 17] ∧ 16 ≤ marked.dieCores 7 ∧ marked.aboveFloor = true ∧
    (after (.quadSpareMap 7 15) marked).quad 7 15 = some 16 := by decide +kernel
/-- A core that has been told to stop and has not. -/
def stubborn : State := svc.setCore 511 fun c => { c with stopOrdered := true, step := some (0, 0) }
theorem test_core_does_not_stop : (stubborn.core 511).freed = false ∧ ((after (.coreStopTimeout 511) stubborn).die 7).retiring = [15] := by decide +kernel
theorem test_lane_group : tabGet 0 (after (.meshLaneGroupFailure 13 1 16) svc).fleet.lanes 27 = 1 ∧ svc.rel.retired = [] := by decide +kernel
theorem test_edge : edgeEnds[13]? = some (9, 7) ∧ (after (.meshEdgeFailure 13) svc).fleet.edgesDown = [13] := by decide +kernel

/-! ## Mailboxes, registers, messages (R117–R158) -/

/-- An access of VF 255 through port A, and of the Supervisor. -/
def byVf : Access := ⟨masterOf 255, 0⟩
def bySup : Access := ⟨2, 0⟩
/-- Channel 511 claimed by VF 255, then sent, then taken. -/
def claimed : State := after (.lockClaim byVf ⟨511, 0, 8⟩) svc
def sent : State := after (.mbxSend byVf 511) claimed
def taken : State := after (.mbxTake bySup 511) sent
theorem test_claim : svc.accepts byVf = true ∧ svc.bound 511 byVf.master = true ∧ (svc.chan 511).owner = 0 ∧ claimed.out = [.readData (masterOf 255) 0] ∧
    (after (.lockClaim bySup ⟨511, 0, 8⟩) claimed).out.head? = some (.readData 2 (masterOf 255)) := by decide +kernel
/-- R119: a master outside the pair reads 0xFFFF and changes nothing. -/
theorem test_claim_denied : svc.bound 509 byVf.master = false ∧ (after (.lockClaim byVf ⟨509, 0, 8⟩) svc).out = [.readData (masterOf 255) 0xFFFF] ∧
    (after (.mbxSend byVf 509) svc).mbx = svc.mbx := by decide +kernel
theorem test_send : (claimed.chan 511).owner = byVf.master ∧ (claimed.chan 511).full = false ∧ (sent.chan 511).full = true ∧ (sent.chan 511).sent = 1 := by
  decide +kernel
theorem test_take : sent.accepts bySup = true ∧ sent.bound 511 2 = true ∧ (sent.chan 511).owner ≠ 2 ∧ (taken.chan 511).taken = true ∧
    ((after (.mbxDone bySup 511) taken).chan 511).owner = 0 ∧ ((after (.mbxTake byVf 511) sent).chan 511).taken = false := by decide +kernel
/-- R122, R123: an untaken message is withdrawn; once taken the race is lost. -/
theorem test_withdraw : (sent.chan 511).taken = false ∧ ((after (.mbxWithdraw byVf 511) sent).chan 511).withdrawn = true ∧
    (taken.chan 511).lastSender = byVf.master ∧ after (.mbxWithdraw byVf 511) taken = taken := by decide +kernel
theorem test_release : ((after (.lockRelease byVf 511) claimed).chan 511).owner = 0 ∧ ((after (.lockRelease bySup 511) claimed).chan 511).owner = masterOf 255 := by
  decide +kernel

/-- R120: the last byte of the buffer, and the interrupt enables of a channel. -/
theorem test_buffer_write : fnOf byVf.master = some 255 ∧ svc.bound (2 * 255 + 1) byVf.master = true ∧
    tabGet 0 ((after (.registerWrite byVf 0 (0x9000 + 255) 1 7) claimed).chan 511).buf 255 = 7 ∧
    (after (.registerWrite byVf 0 (0x9000 + 255) 1 7) svc).mbx = svc.mbx := by decide +kernel
theorem test_intctl : ((after (.registerWrite byVf 0 (0x9000 + 0x128) 8 3) svc).chan 511).msgEn = true := by decide +kernel
theorem test_flt_base : (svc.fn 255).fltEnable = false ∧ ((after (.registerWrite byVf 0 0x4000 8 0x7000) svc).fn 255).fltBase = 0x7000 ∧
    (after (.registerWrite byVf 0 0x4000 4 0x7000) svc).host.fns = [] := by decide +kernel
theorem test_reserved_write : after (.registerWrite byVf 0 0xA000 8 1) svc = svc := by decide +kernel
/-- R126, R129, R572: what reads return. -/
theorem test_register_reads : svc.readBar byVf 0 0x28 = 0xFF01FF ∧ svc.readBar byVf 0 0x18 = 0 ∧ svc.readBar byVf 0 8 = 1 ∧
    svc.readBar ⟨0x100, 0⟩ 0 0x100000 = 0 ∧ portDown.readBar byVf 0 8 = 2 ^ 64 - 1 ∧ svc.readBar ⟨0x100, 1⟩ 0 0x2000 = 1 := by decide +kernel
/-- R140: the pod window of a device that is no member reads all ones. -/
theorem test_pod_window_reads : 5 * 2 ^ 22 / 2 ^ 22 ≠ svc.fab.device ∧ bit svc.fab.members (5 * 2 ^ 22 / 2 ^ 22) = false ∧
    svc.readBar ⟨0x100, 1⟩ 4 (5 * 2 ^ 22) = 2 ^ 64 - 1 ∧ svc.readBar ⟨0x100, 1⟩ 4 (svc.fab.device * 2 ^ 22) = 0 := by decide +kernel
theorem test_version_register : svc.readBar byVf 0 0 = 2 * 2 ^ 48 + 1 * 2 ^ 40 + 4 * 2 ^ 32 + 8 := by decide +kernel

/-- A buffer that holds a message. -/
def bufferOf (m : List Byte) : Tab Byte := ((List.range m.length).zip m).filter fun e => e.2 != 0
/-- VF 255 sends a command that no VF may send, and one whose kind is wrong. -/
def sends (m : List Byte) : State := claimed.setChan 510 fun c => { c with owner := masterOf 255, full := true, lastSender := masterOf 255, buf := bufferOf m }
def vfHdr : CmdHdr := { pf with sender := .host 255 }
theorem test_message_refused : (sends [1, 0, 9]).nextMessage 0 = some (510, (sends [1, 0, 9]).chan 510) ∧
    (sends [1, 0, 9]).bound 510 2 = true ∧ ((sends [1, 0, 9]).chan 510).owner ≠ 2 ∧
    (match parseMessage (.host 255) 4 ((sends [1, 0, 9]).chan 510).message with
    | .inl e => decide (e.2 = (1, ST_MALFORMED))
    | .inr _ => false) = true := by decide +kernel
theorem test_message_taken : parseMessage (.host 255) 4 ((sends (cmdMessage vfHdr (.capsQuery 3))).chan 510).message = .inr (vfHdr, .capsQuery 3) := by
  decide +kernel
/-- An answer that waits for VF 255, and one for the BMC. -/
def answering : State :=
  { svc with cx := { svc.cx with answers := [⟨.host 255, 2, 1, vfHdr, ST_OK, [7]⟩, ⟨.bmc, 2, 1, bmc, ST_OK, [8]⟩] } }
theorem test_reply : answering.canReply = true ∧ (answering.chan 511).owner = 0 ∧ (answering.chan 511).full = false ∧
    ((after (.replyDelivery (.host 255)) answering).chan 511).full = true ∧ tabGet 0 ((after (.replyDelivery (.host 255)) answering).chan 511).buf 16 = 7 ∧
    (after (.replyDelivery .bmc) answering).out.length = 1 := by decide +kernel
theorem test_forwarded_command : (inPod 1).isHead = false ∧
    (inPod 1).takes (.relay 256) (messageAny (cmdMessage { bmc with sender := .relay 256 } (.capsQuery 0))) = true ∧
    parseMessage (.relay 256) 4 (cmdMessage { bmc with sender := .relay 256 } (.capsQuery 0)) = .inr ({ bmc with sender := .relay 256 }, .capsQuery 0) ∧
    (match parseMessage (.relay 0) 4 [1, 0, 9] with
    | .inl e => decide (e.2.2 = ST_MALFORMED)
    | .inr _ => false) = true := by decide +kernel
/-- The head, its PF's command to member 1 not yet answered. -/
def relaying : State := { inPod 0 with fab := { (inPod 0).fab with forwardedCmds := [⟨1, 0, pf, 1, false⟩] } }
theorem test_forwarded_reply : pf.tag = fieldAt (answerBytes ⟨.host 0, 2, 1, pf, ST_OK, []⟩) 8 4 ∧
    (after (.forwardedReplyReceive 1 0 (answerBytes ⟨.host 0, 2, 1, pf, ST_OK, []⟩)) relaying).fab.forwardedCmds = [] ∧
    (after (.forwardedReplyReceive 1 0 (answerBytes ⟨.host 0, 2, 1, pf, ST_OK, []⟩)) relaying).cx.answers.length = 1 := by decide +kernel
theorem test_mctp_message : svc.ioUp = true ∧ svc.bound 522 6 = true ∧ (svc.chan 522).owner = 0 ∧ ((after (.bmcMctpMessage [1]) svc).chan 522).owner = 6 := by
  decide +kernel

/-! ## Doorbells, the Dispatcher, steps (R139–R141, R173–R208) -/

/-- The PF's queue 64 of context 0, a ring of sixteen at 0x1000. -/
def ring : State :=
  { mapped1 with
    ctx := { mapped1.ctx with programs := [program1], caches := [(500, [⟨0, 0, entry⟩]), (0, [⟨0, 0, entry⟩]), (1, [⟨0, 0, entry⟩])] }
    dq := { mapped1.dq with
      groups := [(1, ⟨0, 0, 0⟩)], queues := [(64, { freshQueue with configured := true, cls := 3, log2 := 4, ringVa := 0x1000, slot := some 0 })] } }
def byPf : Access := ⟨0x100, 1⟩
theorem test_doorbell : ring.accepts byPf = true ∧ fnOf byPf.master = some 0 ∧ ring.pageGroup 0 1 = some 1 ∧ ring.group 64 = some ⟨0, 0, 0⟩ ∧
    ring.queueState 64 ≠ 0 ∧ (ring.queue 64).producer < 16 ∧ ((after (.doorbellWrite byPf 1 0 16) ring).queue 64).producer = 16 ∧
    ((after (.doorbellWrite byPf 1 0 17) ring).queue 64).producer = 0 := by decide +kernel
/-- R178: a value below the producer index is refused. -/
theorem test_doorbell_low : ((after (.doorbellWrite byPf 1 0 16) ring).queue 64).producer = 16 ∧
    ((after (.doorbellWrite byPf 1 0 15) (after (.doorbellWrite byPf 1 0 16) ring)).queue 64).producer = 16 := by decide +kernel
theorem test_pod_doorbell : (inPod 0).accepts byPf = true ∧ (inPod 0).memberUp 1 = true ∧
    (after (.podWindowDoorbell byPf 1 1023 63 9) (inPod 0)).dq.relay.map (fun r => (r.member, r.queue, r.value)) = [(1, 65535, 9)] := by decide +kernel
theorem test_pod_doorbell_lost : (inPod 0).memberUp 2 = false ∧ (after (.podWindowDoorbell byPf 2 1023 63 9) (inPod 0)).dq.discarded = 1 := by decide +kernel
theorem test_relay_forward : silent.nextForward 1 = some ⟨1, 9, 0x100, 1, 0⟩ ∧ silent.memberUp 1 = true ∧ silent.dq.switches = [] ∧
    (after (.relayForward 1) silent).dq.relay = [] ∧ tabGet 0 (after (.relayForward 1) silent).dq.inFlight 1 = 1 ∧
    tabGet 0 (after (.relayCreditReturn 1) (after (.relayForward 1) silent)).dq.inFlight 1 = 0 := by decide +kernel
theorem test_forwarded_doorbell : (inPod 1).isHead = false ∧ (after (.forwardedDoorbellReceive 0x100 65535 1 1) (inPod 1)).out ≠ [] := by decide +kernel
theorem test_mirror : (tabGet freshMirror (after (.mirrorUpdate 63 65535 { freshMirror with completed := 5 }) (inPod 0)).dq.mirrors (mirrorKey 63 65535)).completed = 5 := by
  decide +kernel

/-- A latched queue without a slot. -/
def latched : State := ring.setQueue 64 fun x => { x with slot := none, latched := true }
theorem test_round_maps : latched.dispatching = true ∧ latched.isHead = true ∧ latched.dq.steps = [] ∧
    ((after .dispatchRound latched).queue 64).slot = some 0 := by decide +kernel
/-- A descriptor of a step of program 1 (R181). -/
def descBytes : List Byte := leBytes 2 1 ++ zeros 2 ++ leBytes 4 1 ++ [0xFF, 0] ++ leBytes 2 0xFFFF ++ zeros 36 ++ leBytes 8 0x10000 ++ zeros 72
/-- It stands in the ring, and its doorbell has come. -/
def readable : State := { ring.setQueue 64 (fun x => { x with producer := 1 }) with mem := ring.mem.writeN 0x10001000 descBytes }
theorem test_round_reads : (readable.queue 64).slot.isSome = true ∧ (readable.queue 64).latched = false ∧ (readable.queue 64).reading = false ∧
    (match readable.stage dispUnit 0 ((readable.queue 64).descVa) 128 1 (some (64, 0)) 9 0 with
    | .ok _ ps => !partsHost ps
    | _ => false) = true ∧ ((after .dispatchRound readable).queue 64).reading = true := by decide +kernel
/-- The descriptor's read under way. -/
def reading1 : State := readable.setQueue 64 fun x => { x with reading := true }
theorem test_descriptor_read : reading1.supervisorRuns = true ∧ reading1.host.reads = [] ∧
    (match reading1.xlateNow dispUnit 0 0x1000 128 1 with
    | .ok ps => !partsHost ps && (reading1.partsPoison ps).isNone &&
        (reading1.descStatus (reading1.readParts ps) (reading1.stepOf 64 0 0 0 (reading1.readParts ps))).isNone
    | _ => false) = true ∧ ((after (.descriptorReadComplete 64 (.ok (zeros 128))) reading1).queue 64).consumed = 1 := by decide +kernel
/-- The step may be placed with its program, bound to no epoch. -/
def placed (s : State) : Bool :=
  match s.launchWay (reading1.stepOf 64 0 0 0 descBytes) with
  | .place p w a => decide (p = program1 ∧ w = 0 ∧ a = 0)
  | _ => false
/-- The step read. -/
def awaiting : State := after (.descriptorReadComplete 64 (.ok (zeros 128))) reading1
def waitingStep : StepRec := reading1.stepOf 64 0 0 0 descBytes
theorem test_step_waits : awaiting.dq.steps = [waitingStep] ∧ placed awaiting = true ∧ awaiting.slicesFree waitingStep program1 = true ∧
    awaiting.chooseCores [] waitingStep program1 = some [4] ∧ waitingStep.cond = .awaiting ∧ waitingStep.ended = none ∧ waitingStep.index = 0 := by decide +kernel
/-- The round wakes its core where no queue has more to say. -/
theorem test_round_wakes : (after .dispatchRound { awaiting with dq := { awaiting.dq with queues := [] } }).fleet.waking = [.core 0] := by decide +kernel
/-- Its core awake. -/
def launchable : State := awaiting.setCore 4 fun c => { c with power := .active }
theorem test_launch : launchable.step? 64 0 = some waitingStep ∧ launchable.awaits waitingStep = true ∧ placed launchable = true ∧
    launchable.chooseCores (launchable.takenAhead 64 0) waitingStep program1 = some [4] ∧ launchable.combinersFree program1 [4] = true ∧ (launchable.core 4).power = .active ∧
    ((after (.stepLaunch 64 0) launchable).core 4).step = some (64, 0) ∧ ((after (.stepLaunch 64 0) launchable).core 4).tag = some 0 := by decide +kernel
/-- The step on its core, its registers zero. -/
def runStep : StepRec :=
  { queue := 64, index := 0, ctag := 0, fn := 0, program := 1, model := none, adapter := none, wantW := 0, wantA := 0, depValid := false, depQueue := 0
    depCount := 0, argsVa := 0, argsLen := 0, saveVa := 0x10000, userTag := 0, inlineArgs := zeros 32, cond := .running, readAt := 1000000000
    promoted := false, launchTime := 1000000000, epochW := 0, epochA := 0, libBank := 0, bank := 0, cores := [4], launchSeq := 0, preemptedBy := none
    saved := [], coresHeld := false, faults := [], faultStatus := 0, interrupted := false, kindNoted := false, ended := none, endTime := 0
    writeBack := true }
theorem test_launched : (after (.stepLaunch 64 0) launchable).dq.steps = [runStep] := by decide +kernel
def running : State :=
  let s := ring.setQueue 64 fun x => { x with producer := 1, consumed := 1 }
  { s with
    dq := { s.dq with steps := [runStep] }
    fleet := { s.fleet with
      cores := [(4, { freshCore with power := .active, step := some (64, 0), tag := some 0 })], dies := [(0, { freshDie with power := .active })] } }
/-- R187: a slot idle for 1 ms passes to a parked queue of its class. -/
def parked : State :=
  { ring with dq := { ring.dq with queues := ring.dq.queues ++ [(65, { freshQueue with configured := true, cls := 3, log2 := 4, latched := true })] } }
theorem test_slot_passes : (parked.queue 64).slot = some 0 ∧ parked.readSteps 64 = [] ∧ 1000000 ≤ parked.aon.clock - (parked.queue 64).clearSince ∧
    (parked.queueOrder fun _ y => y.latched && y.slot.isNone && y.cls == 3) = [65] ∧ ((after (.idleSlotHandover 64) parked).queue 65).slot = some 0 := by
  decide +kernel
/-- R189: a BACKGROUND step is promoted after 100 ms. -/
theorem test_promotion : (awaiting.queue 64).cls = 3 ∧
    ((after (.classPromotion 64 0) { awaiting with aon := { awaiting.aon with clock := 1100000000 } }).step? 64 0).map (·.promoted) = some true ∧
    ((after (.classPromotion 64 0) { awaiting with aon := { awaiting.aon with clock := 1099999999 } }).step? 64 0).map (·.promoted) = some false := by
  decide +kernel
/-- A victim whose core is free again. -/
def savedCore : SavedCore :=
  { regs := { zeroRegs with x := [(1, 5)] }, pc := 3, loops := [], extents := [], dropped := [], mark := 0, ended := false, rel := 0, group := 0
    recInvalid := false, recSched := false, recTile := false }
def victim : State :=
  { ring with dq := { ring.dq with steps := [{ waitingStep with cond := .preempted, cores := [0], saved := [(0, savedCore)] }] } }
theorem test_relaunch : victim.dispatching = true ∧ (victim.step? 64 0).any victim.preempterGone = true ∧ (victim.core 0).step = none ∧
    ((after (.victimRelaunch 64 0) victim).core 0).pc = 3 ∧ ((after (.victimRelaunch 64 0) victim).core 0).regs.x = [(1, 5)] := by decide +kernel
/-- The core at its end. -/
def ending : State := running.setCore 4 fun c => { c with ended := true }
theorem test_end_report : (ending.core 4).reported = false ∧ (ending.core 4).outstanding = 0 ∧ (ending.core 4).gather = [] ∧
    ending.dq.steps.map (fun u => (u.cores, u.cond, u.ended)) = [([4], .running, none)] ∧ (ending.queue 64).completed = 0 ∧
    ((after (.coreEndReport 4) ending).queue 64).completed = 1 ∧ (after (.coreEndReport 4) ending).dq.steps = [] := by decide +kernel
/-- The same with a second core that still runs. -/
def halfEnded : State :=
  { ending.setCore 1 (fun c => { c with step := some (64, 0) }) with dq := { ending.dq with steps := ending.dq.steps.map fun u => { u with cores := [4, 1] } } }
theorem test_end_waits : (halfEnded.core 1).reported = false ∧ ((after (.coreEndReport 4) halfEnded).core 4).reported = true ∧
    (after (.coreEndReport 4) halfEnded).dq.steps.length = 1 := by decide +kernel

/-! ## Walks and host reads (R134, R219–R225, R279, R571) -/

/-- A walk of context 0 for an address. -/
def walking (va : Nat) (held : Bool) : State := { mapped1 with ctx := { mapped1.ctx with walks := [⟨9, 0, va, 1, none, 1, 36, held⟩] } }
theorem test_walk : (walking 0x1FFFFF false).tableWalk 0 0x1FFFFF = some (0, entry) ∧ (after (.rangeWalkComplete 9) (walking 0x1FFFFF false)).ctx.walks = [] ∧
    tabGet [] (after (.rangeWalkComplete 9) (walking 0x1FFFFF false)).ctx.caches 9 = [⟨0, 0, entry⟩] := by decide +kernel
theorem test_walk_finds_nothing : (walking 0x200000 false).tableWalk 0 0x200000 = none ∧ (after (.rangeWalkComplete 9) (walking 0x200000 false)).ctx.caches = [] := by
  decide +kernel
theorem test_walk_held : after (.rangeWalkComplete 9) (walking 0 true) = walking 0 true := by decide +kernel
/-- An ATS request outstanding, and a cached page. -/
def atsAsking : State := { svc with host := { svc.host with atsAsked := [(1, 5, 7)], atc := [⟨1, 5, 6, 0x1000⟩, ⟨0, 5, 6, 0x2000⟩] } }
theorem test_ats_answer : (after (.atsTranslationCompletion 1 5 7 0 0x3000) atsAsking).host.atc.head? = some ⟨1, 5, 7, 0x3000⟩ ∧
    (after (.atsTranslationCompletion 1 5 7 1 0) atsAsking).host.atsRefused = [((1, 5, 7), 1)] := by decide +kernel
theorem test_ats_invalidation : (atsAsking.port 1).up = true ∧ atsAsking.host.atsInval = [] ∧ atsAsking.atsBusy 1 = false ∧
    (after (.atsInvalidationRequest 1 5 6 1) atsAsking).host.atc = [⟨0, 5, 6, 0x2000⟩] ∧ (after (.atsInvalidationRequest 1 5 7 1) atsAsking).host.atc.length = 2 := by
  decide +kernel
/-- Outstanding reads: a core's load and a descriptor. -/
def hostReading : State :=
  { ring.setQueue 64 (fun x => { x with reading := true, producer := 1 }) with
    host := { ring.host with reads := [⟨4, 0, 0, 64, 8, 999500001, .load 3, none, 0, 0, false, 0⟩, ⟨5, 0, 0, 64, 128, 999500000, .load 3, none, 0, 0, true, 8⟩,
      ⟨6, 0, 0, 64, 128, 999500000, .descriptor 64, none, 0, 0, false, 0⟩] } }
theorem test_host_read : (hostReading.outstanding 4).map (·.length) = some 8 ∧
    ((after (.hostReadCompletion 4 0 false (count 8)) hostReading).host.reads.map (·.data)) = [some (count 8), none, none] := by decide +kernel
theorem test_host_read_fails : (hostReading.core 3).step = none ∧ (after (.hostReadCompletion 4 1 false (count 8)) hostReading).host.reads.length = 2 := by decide +kernel
/-- R571: 500 µs without a completion. -/
theorem test_host_timeout : 500000 ≤ hostReading.aon.clock - 999500000 ∧ hostReading.aon.clock - 999500001 < 500000 ∧
    (after (.hostCompletionTimeout 5) hostReading).host.reads.length = 2 ∧ (after (.hostCompletionTimeout 4) hostReading).host.reads.length = 3 := by decide +kernel
theorem test_descriptor_completion : (hostReading.outstanding 6).map (·.purpose) = some (.descriptor 64) ∧ hostReading.supervisorRuns = true ∧
    (zeros 128).length = 128 := by decide +kernel
/-- A function whose ring has one free entry and one record held. -/
def holding : State :=
  svc.setFn 255 fun h => { h with held := [svc.fltBlank], fltEnable := true, fltLog2 := 4, fltProducer := 16, fltConsumer := 1, fltBase := 0x8000 }
theorem test_held_record : holding.fltReady 255 = true ∧ (holding.fn 255).beyond = [] ∧ ((after (.heldRecordFlush 255) holding).fn 255).fltProducer = 17 ∧
    (after (.heldRecordFlush 255) holding).out.length = 1 ∧
    (after (.heldRecordFlush 255) (holding.setFn 255 fun h => { h with fltConsumer := 0 })).out = [] := by decide +kernel
/-- The core of the running step, its registers zero, has missed bundle 0 and is allowed to issue. -/
def missing : State := running.setCore 4 fun c => { c with fetchMiss := some 0, allowance := 64, regs := zeroRegs }
theorem test_fetch : missing.mayIssue 4 = true ∧ (missing.coreStep? 4).isSome = true ∧ missing.fetchers 4 = [4] ∧
    (match missing.readVa (quadUnit 4) 0 256 32 3 (.fetch 4 0) (some (64, 0)) 1 4 with
    | .bytes u _ => decide (u.fleet = missing.fleet)
    | _ => false) = true ∧ ((after (.fetchComplete 4) missing).core 4).fetchMiss = none := by decide +kernel


/-! ## The control slot of a core (R243–R250) -/

/-- Core 4 with some registers, its next bundle holding one operation alone. -/
def at4 : SlotCtx := ⟨4, 0, false, false⟩
def word4 (k : SlotKey) : Nat := k.word at4 * 2 ^ slotBase k.slot
def issuing (k : SlotKey) (r : CoreRegs) : State :=
  running.setCore 4 fun c => { c with
    allowance := 64, spent := 0, regs := r, issue := none, branch := none, slots := 0, pc := 0, loops := [], gather := [], acc := []
    active := none, shadow := none, fetchBuf := [(0, word4 k)] }
/-- Readiness, as a Boolean. -/
def ready (s : State) (k : SlotKey) (b : Nat) : Bool :=
  s.mayIssue 4 && (decide ((s.core 4).here = some b) && (!(liveSlots b).isEmpty && (nextSlot b (s.core 4).slots k.slot &&
    (k.fits at4 (slotWord b k.slot) && ((moreSlots b k.slot == at4.more) && ((s.holdsBundle 4 b).isNone && ((s.core 4).src.goes 0 false && decide ((s.die 0).power = .active))))))))
theorem slot_ready {s : State} {k : SlotKey} {b : Nat} (x : ready s k b = true) : s.slotReady at4 k b := by
  simp only [ready, Bool.and_eq_true, decide_eq_true_eq, Bool.not_eq_true', beq_iff_eq, Option.isNone_iff_eq_none] at x
  exact ⟨⟨⟨x.1, x.2.1, x.2.2.1, x.2.2.2.1, x.2.2.2.2.1, x.2.2.2.2.2.1⟩, x.2.2.2.2.2.2.2.2, fun _ => x.2.2.2.2.2.2.1⟩, x.2.2.2.2.2.2.2.1⟩
/-- Registers with small numbers in them. -/
def xs : CoreRegs := { x := [(1, 5), (2, 3), (3, 2 ^ 64 - 1), (4, 2 ^ 63), (5, 0x4000)], p := [(1, true)], v := [] }
/-- What a core holds after an operation, its registers `r` before it. -/
def ran (k : SlotKey) (c : Instr) (r : CoreRegs) : CoreSt := (after c (issuing k r)).core 4

/-- The premises of the control slot's statement, for each operation. -/
theorem test_control_ready : ∀ k ∈ [aluKey 0 6 1 2 false 0, aluKey 5 6 1 0 true 64, liKey 6 1 false 0x1234, cmpKey 2 4 3 1 false 0, rdidKey 6 3 0,
    brKey 31 0 false (-1), loopKey 0 1 false 2 0, endPartKey, safeptKey 7], ready (issuing k xs) k (word4 k) = true := by decide +kernel
theorem test_control_witness : (issuing endPartKey xs).slotReady at4 endPartKey (word4 endPartKey) := slot_ready (by decide +kernel)
theorem test_control_step : ((issuing endPartKey xs).coreStep? 4).isSome = true ∧ ((issuing endPartKey xs).core 4).stopOrdered = false ∧
    (issuing endPartKey xs).checksSchedule 4 = false ∧ (issuing endPartKey xs).mem.wf = true := by decide +kernel

/-- R249: wrap, a signed shift, a minimum with a sign; the shift by 64 has no result. -/
theorem test_alu_values : aluValue 0 (2 ^ 64 - 1) 2 = some 1 ∧ aluValue 1 3 5 = some (2 ^ 64 - 2) ∧ aluValue 7 (2 ^ 63) 63 = some (2 ^ 64 - 1) ∧
    aluValue 9 (2 ^ 64 - 1) 5 = some (2 ^ 64 - 1) ∧ aluValue 11 (2 ^ 64 - 1) 5 = some 5 ∧ aluValue 8 (2 ^ 63) 3 = some (2 ^ 63) ∧
    aluValue 5 1 64 = none := by decide +kernel
theorem test_alu : (ran (aluKey 0 6 1 2 false 0) (.alu at4 0 6 1 2 false 0) xs).regs.x? 6 = 8 ∧
    (ran (aluKey 1 3 1 2 true (-1)) (.alu at4 1 3 1 2 true (-1)) xs).regs.x? 3 = 6 ∧
    (ran (aluKey 0 0 1 2 false 0) (.alu at4 0 0 1 2 false 0) xs).regs.x? 0 = 0 := by decide +kernel
theorem test_li : (ran (liKey 3 1 false 0x1234) (.li at4 3 1 false 0x1234) xs).regs.x? 3 = 0x12340000 ∧
    (ran (liKey 3 1 true 0x1234) (.li at4 3 1 true 0x1234) xs).regs.x? 3 = 0xFFFFFFFF1234FFFF := by decide +kernel
/-- Condition 2 is signed below, condition 4 unsigned below. -/
theorem test_cmp : (ran (cmpKey 2 2 3 1 false 0) (.cmp at4 2 2 3 1 false 0) xs).regs.p? 2 = true ∧
    (ran (cmpKey 2 4 3 1 false 0) (.cmp at4 2 4 3 1 false 0) xs).regs.p? 2 = false := by decide +kernel
theorem test_rdid : (ran (rdidKey 6 0 0) (.rdid at4 6 0 0) xs).regs.x? 6 = 4 := by decide +kernel
theorem test_br : (ran (brKey 31 0 false 9) (.br at4 31 0 false 9) xs).pc = 9 ∧ (ran (brKey 31 0 false 9) (.br at4 31 0 false 9) xs).regs.x? 31 = 1 ∧
    (ran (brKey 0 1 true 0) (.br at4 0 1 true 0) xs).pc = 5 := by decide +kernel
theorem test_loop : (ran (loopKey 0 1 false 2 0) (.loop at4 0 1 false 2 0) xs).loops = [(0, ⟨1, 2, 5⟩)] ∧
    (ran (loopKey 0 0 false 2 0) (.loop at4 0 0 false 2 0) xs).pc = 3 := by decide +kernel
theorem test_loop_end : ({ ran (loopKey 0 1 false 2 0) (.loop at4 0 1 false 2 0) xs with pc := 2 }.endBundle).pc = 1 := by decide +kernel
theorem test_end : (ran endPartKey (.endPart at4) xs).ended = true ∧ (after (.endPart at4) (issuing endPartKey xs)).dq.steps.length = 1 := by decide +kernel
theorem test_safept : (ran (safeptKey 7) (.safept at4 7) xs).lastSafept = some 7 ∧ (ran (safeptKey 7) (.safept at4 7) xs).halted = false := by decide +kernel

/-! ## Sync objects, barriers, and the memory slot (R247–R274) -/

/-- The same with a free sync object of the context under handle 3, a die barrier at handle 2, and bytes in scratchpads and memory. -/
def freeObj : SyncObj := { count := 5, owner := some 0, step := some (64, 0), barrier := false, sense := true, arrived := false, recSense := true }
def die1 : BarrierRec := ⟨9, 1, 2, 0, 0⟩
def synced (k : SlotKey) : State :=
  let s := (issuing k { xs with v := [(1, (List.range 64).map fun i => BitVec.ofNat 32 i)] }).setCore 4 fun c =>
    { c with sync := [(2, { freeObj with barrier := true }), (3, freeObj)] }
  { s with
    ctx := { s.ctx with programs := [{ program1 with barriers := [die1] }] }
    mem := (s.mem.writeN (scratchPa 4 0x4000) (count 128)).writeN (scratchPa 5 0x10) [0xFE, 0xFF] }
def withObj (k : SlotKey) (c : Instr) : State := after c (synced k)

theorem test_slots_ready : ∀ k ∈ [waitKey 3 1 2 false 0, setcKey 3 2 false 0, signalKey 3 0 0 0 7, arriveKey 2, enqKey 1 0 5 0, ldsKey 6 5 0 3 false 8,
    ldsKey 6 0 1 1 false 0x200010, ldsKey 6 0 2 2 false 0x100, ldvKey 6 5 0 0, ldvsKey 6 5 0 3 0, stsKey 3 5 0 3 0x40, stvKey 1 5 0 0x100,
    ldtKey 5 5 0 64 64, flushKey, fenceKey, touchKey 0 0x100], ready (synced k) k (word4 k) = true := by decide +kernel
theorem test_slots_step : ((synced flushKey).coreStep? 4).map (fun u => (u.ctag, u.bank, u.queue, u.index)) = some (0, 0, 64, 0) ∧
    (synced flushKey).checksSchedule 4 = false ∧ (synced flushKey).mem.wf = true ∧ ((synced flushKey).core 4).gather = [] ∧
    (synced flushKey).fab.device < 64 ∧ ((synced flushKey).die 0).retired = false ∧ ((synced flushKey).engine 0 0).queue = [] ∧
    ((synced flushKey).engine 0 0).inHand = none ∧ ((synced flushKey).core 5).tag = none := by decide +kernel
theorem test_wait : ((withObj (waitKey 3 1 2 false 0) (.wait at4 3 1 2 false 0)).syncObj 4 3).count = 2 ∧
    ((withObj (waitKey 3 0 2 false 0) (.wait at4 3 0 2 false 0)).syncObj 4 3).count = 5 := by decide +kernel
/-- R262: five is short of six, and the bundle is held. -/
theorem test_wait_holds : (synced (waitKey 3 0 0 true 6)).holdsBundle 4 (word4 (waitKey 3 0 0 true 6)) = some true ∧
    ((synced (waitKey 3 0 0 true 6)).core 4).issue = none ∧
    ((withObj (waitKey 3 0 0 true 6) (.wait at4 3 0 0 true 6)).core 4).waiting = true := by decide +kernel
theorem test_setc : ((withObj (setcKey 3 2 false 0) (.setc at4 3 2 false 0)).syncObj 4 3).count = 3 := by decide +kernel
theorem test_signal : (withObj (signalKey 3 0 0 0 7) (.signal at4 3 0 0 0 7)).fleet.signals = [⟨0, 0, 0, 64, 0, 4, 131, 7⟩] := by decide +kernel
theorem test_arrive : (synced (arriveKey 2)).coreStep? 4 = some ((synced (arriveKey 2)).dq.steps.headD runStep) ∧
    (synced (arriveKey 2)).barrierOf ((synced (arriveKey 2)).dq.steps.headD runStep) 2 = some die1 ∧
    (withObj (arriveKey 2) (.arrive at4 2)).fleet.arrivals = [⟨0, 0, 0, 9, 1, 0, 0, 4⟩] := by decide +kernel
theorem test_enq : ((withObj (enqKey 1 0 5 0) (.enq at4 1 0 5 0)).engine 0 0).queue.map (·.bytes) = [count 64] ∧
    tabGet 0 ((withObj (enqKey 1 0 5 0) (.enq at4 1 0 5 0)).core 4).credits 16 = 1 := by decide +kernel

/-- Signals and arrivals in flight, one core's entry at its die. -/
def flying (o : Nat) : State :=
  { synced flushKey with fleet := { (synced flushKey).fleet with signals := [⟨0, 0, 0, 64, 0, 4, o, 7⟩] } }
theorem test_signal_adds : (tabGet? (flying 131).ctx.ctxs 0).map (·.owner) = some 0 ∧ ((flying 131).syncObj 4 3).owner = some 0 ∧
    ((after (.signalApply 0) (flying 131)).syncObj 4 3).count = 12 := by decide +kernel
theorem test_signal_blocked : ((flying 132).syncObj 4 4).owner ≠ some 0 ∧
    (({ flying 132 with dq := { (flying 132).dq with steps := [] } }).step? 64 0) = none ∧
    ((after (.signalApply 0) { flying 132 with dq := { (flying 132).dq with steps := [] } }).die 0).blocked = 1 := by decide +kernel
def arrived (cores : List Nat) : State :=
  let s := synced flushKey
  { s.setDie 0 (fun d => { d with combiners := [⟨0, 0, 0, 9, 64, 0, 1, 0, 0, 0⟩] }) with
    dq := { s.dq with steps := s.dq.steps.map fun u => { u with cores := cores } }
    fleet := { (s.setDie 0 (fun d => { d with combiners := [⟨0, 0, 0, 9, 64, 0, 1, 0, 0, 0⟩] })).fleet with arrivals := [⟨0, 0, 0, 9, 1, 0, 0, 4⟩] } }
theorem test_barrier_full : ((arrived [4]).matchEntry 0 ⟨0, 0, 0, 9, 1, 0, 0, 4⟩).map (·.cores) = some 0 ∧
    (((arrived [4]).matchEntry 0 ⟨0, 0, 0, 9, 1, 0, 0, 4⟩).bind (arrived [4]).combinerBarrier).map (·.scope) = some 1 ∧
    (((arrived [4]).matchEntry 0 ⟨0, 0, 0, 9, 1, 0, 0, 4⟩).bind (arrived [4]).combinerStep).map (·.coresOn 0) = some 1 ∧
    (after (.barrierArrival 0) (arrived [4])).fleet.releases.length = 1 := by decide +kernel
theorem test_barrier_short : (((arrived [4, 5]).matchEntry 0 ⟨0, 0, 0, 9, 1, 0, 0, 4⟩).bind (arrived [4, 5]).combinerStep).map (·.coresOn 0) = some 2 ∧
    (after (.barrierArrival 0) (arrived [4, 5])).fleet.releases = [] ∧
    ((after (.barrierArrival 0) (arrived [4, 5])).die 0).combiners.map (·.cores) = [1] := by decide +kernel
theorem test_barrier_release : let s := { arrived [4] with fleet := { (arrived [4]).fleet with releases := [(0, ⟨0, 0, 0, 9, 1, 0, 0, 4⟩)] } }
    (after (.barrierReleaseReceive 0 ⟨0, 0, 0, 9, 1, 0, 0, 4⟩) s).fleet.releases = [] ∧
    ((after (.barrierReleaseReceive 0 ⟨0, 0, 0, 9, 1, 0, 0, 4⟩) s).syncObj 4 2).sense = false := by decide +kernel
theorem test_gather : let s := (synced flushKey).setCore 4 fun c => { c with gather := [⟨2, [(5, 0xAB)], 0⟩] }
    (after (.gatherBufferWriteback 4 2) s).mem.read (scratchPa 4 133) = 0xAB ∧ ((after (.gatherBufferWriteback 4 2) s).core 4).gather = [] := by
  decide +kernel

theorem test_lds : ((withObj (ldsKey 6 5 0 3 false 8) (.lds at4 6 5 0 3 false 8)).core 4).regs.x? 6 = 0x100F0E0D0C0B0A09 ∧
    addrOf xs 5 8 = 0x4008 := by decide +kernel
/-- A neighbour's bytes with the sign, its scratchpad of the same context. -/
theorem test_lds_quad : let s := (synced (ldsKey 6 0 1 1 false 0x200010)).setCore 5 fun c => { c with tag := some 0 }
    ready s (ldsKey 6 0 1 1 false 0x200010) (word4 (ldsKey 6 0 1 1 false 0x200010)) = true ∧ (s.core 5).tag = some 0 ∧
    ((after (.lds at4 6 0 1 1 false 0x200010) s).core 4).regs.x? 6 = 0xFFFE := by decide +kernel
theorem test_lds_range : (match ((synced (ldsKey 6 0 2 2 false 0x10000)).inIssue 4).readVa (quadUnit 4) 0 0x10000 4 1 (.load 4) (some (64, 0)) 1 4 with
    | .bytes _ w => decide (w = zeros 4)
    | _ => false) = true ∧ ((withObj (ldsKey 6 0 2 2 false 0x10000) (.lds at4 6 0 2 2 false 0x10000)).core 4).regs.x? 6 = 0 := by decide +kernel
theorem test_ldv : (((withObj (ldvKey 6 5 0 0) (.ldv at4 6 5 0 0)).core 4).regs.v? 6).take 2 = [0x04030201, 0x08070605] := by decide +kernel
theorem test_ldvs : (((withObj (ldvsKey 6 5 2 4 0) (.ldvs at4 6 5 2 4 0)).core 4).regs.v? 6).take 3 = [0x04030201, 0x14131211, 0x24232221] := by decide +kernel
theorem test_sts : (withObj (stsKey 2 5 0 1 2) (.sts at4 2 5 0 1 2)).ownRead 4 0x4000 6 = [1, 2, 3, 0, 5, 6] ∧
    (withObj (stsKey 2 5 0 1 2) (.sts at4 2 5 0 1 2)).mem.read (scratchPa 4 0x4002) = 3 := by decide +kernel
theorem test_stv : (withObj (stvKey 1 0 0 0x100) (.stv at4 1 0 0 0x100)).mem.read (scratchPa 4 0x108) = 2 ∧
    (((synced flushKey).srcOf 4).v? 1).length = 64 := by decide +kernel
/-- R257's blocks of 32 rows; its rows do not meet and no row is named twice. -/
theorem test_ldt_rows : rowsMeet (ldtRows 0x4000 64 32) (ldtRows 0x8000 64 32) = false ∧ rowsMeet (ldtRows 0x4000 64 32) (ldtRows 0x47C0 64 32) = true ∧
    (ldtRows 0x8000 64 32).Nodup ∧ (synced (ldtKey 5 5 0 64 64)).mem.wf = true := by decide +kernel
/-- A line waiting in the gather buffer. -/
def gathered (k : SlotKey) : State := (synced k).setCore 4 fun c => { c with gather := [⟨2, [(5, 0xAB)], 0⟩] }
theorem test_flush : ready (gathered flushKey) flushKey (word4 flushKey) = true ∧ ((after (.flush at4) (gathered flushKey)).core 4).gather = [] ∧
    (after (.flush at4) (gathered flushKey)).mem.read (scratchPa 4 133) = 0xAB := by decide +kernel
theorem test_fence : ready (gathered fenceKey) fenceKey (word4 fenceKey) = true ∧ ((after (.fence at4) (gathered fenceKey)).core 4).gather = [] ∧
    (after (.fence at4) (gathered fenceKey)).mem.read (scratchPa 4 133) = 0xAB := by decide +kernel
theorem test_touch : ((withObj (touchKey 0 0x100) (.touch at4 0 0x100)).core 4).regs.x? 5 = 0x4000 ∧
    ((withObj (touchKey 0 0x100) (.touch at4 0 0x100)).core 4).pc = 1 := by decide +kernel

/-! ## The matrix slot and the vector slot (R289–R306) -/

/-- Lanes of 1.0, of 2.0 and of −3.0, and addresses. -/
def vs : CoreRegs :=
  { x := [(1, 4), (5, 0x4000), (7, 0x8000)], p := []
    v := [(1, List.replicate 64 0x3F800000), (2, List.replicate 64 0x40000000), (3, List.replicate 64 0xC0400000)] }
/-- BF16 1.0, 2.0 at 0x4000, a tile of one column and one element, 3.0, and row 4 of the accumulator at 5.0. -/
def mat (k : SlotKey) : State :=
  let s := (issuing k vs).setCore 4 fun c => { c with
    active := some ⟨0, false, 128, 1, 1, [[0x4040]], []⟩, acc := [(4, List.replicate 64 0x40A00000)] }
  { s with mem := s.mem.writeN (scratchPa 4 0x4000) [0x80, 0x3F, 0, 0x40] }
def matRan (k : SlotKey) (c : Instr) : CoreSt := (after c (mat k)).core 4
def v0 (k : SlotKey) (c : Instr) (d : Nat) : List Lane := ((matRan k c).regs.v? d).take 1

theorem test_matrix_ready : ∀ k ∈ [mldwKey 5 0 0 false false 0 4 1 128, mmulKey 5 0 0 false false false 4 1 1, mstKey 7 1 0 true 4 1, mzeroKey 1 2,
    varithKey 4 1 2 0, vfmaKey 4 1 2 3 0, vcmpKey 4 1 2 2, vselKey 4 1 2 3, vredKey 4 1 0, vcvtKey 4 1 0 0, vcvtmxKey 8 1 0 9 0, vaccKey 4 0 1,
    vmovKey 4 0x1234], ready (mat k) k (word4 k) = true := by decide +kernel
theorem test_matrix_state : (mat (mzeroKey 1 2)).checksSchedule 4 = false ∧ ((mat (mzeroKey 1 2)).core 4).shadow = none ∧
    (mat (mzeroKey 1 2)).mem.wf = true ∧ depthOf 0 0 = 128 := by decide +kernel
theorem test_mldw : ((matRan (mldwKey 5 0 0 false false 0 4 1 128) (.mldw at4 5 0 0 false false 0 4 1 128)).shadow.map fun t =>
    (t.ncols, t.kvalid, (t.cols.headD []).take 3)) = some (1, 128, [0x3F80, 0x4000, 0]) := by decide +kernel
theorem test_mldw_waits : ((after (.mldw at4 5 0 0 false false 0 4 1 128) ((mat (mldwKey 5 0 0 false false 0 4 1 128)).setCore 4
    fun c => { c with shadow := c.active })).core 4).pc = 0 := by decide +kernel
/-- 5 + 1·3 in column 0, column 1 as it was; without a tile NaN. -/
theorem test_mmul : ((matRan (mmulKey 5 0 0 false false false 4 1 1) (.mmul at4 5 0 0 false false false 4 1 1)).accRow 4).take 2 = [0x41000000, 0x40A00000] := by
  decide +kernel
theorem test_mmul_no_tile : ((after (.mmul at4 5 0 0 false false false 4 1 1) ((mat (mmulKey 5 0 0 false false false 4 1 1)).setCore 4
    fun c => { c with active := none })).core 4).recTile = true ∧ ((after (.mmul at4 5 0 0 false false false 4 1 1)
    ((mat (mmulKey 5 0 0 false false false 4 1 1)).setCore 4 fun c => { c with active := none })).core 4).accRow 4 = List.replicate 64 0x7FC00000 := by
  decide +kernel
theorem test_mst : (after (.mst at4 7 1 0 true 4 1) (mat (mstKey 7 1 0 true 4 1))).mem.readN (scratchPa 4 0x8000) 2 = [0xA0, 0x40] ∧
    ((after (.mst at4 7 1 0 true 4 1) (mat (mstKey 7 1 0 true 4 1))).core 4).accRow 4 = List.replicate 64 0 := by decide +kernel
theorem test_mzero : (matRan (mzeroKey 1 2) (.mzero at4 1 2)).accRow 4 = List.replicate 64 0 ∧
    (matRan (mzeroKey 1 2) (.mzero at4 1 2)).accRow 6 = ((mat (mzeroKey 1 2)).core 4).accRow 6 := by decide +kernel
theorem test_varith : v0 (varithKey 4 1 2 0) (.varith at4 4 1 2 0) 4 = [0x40400000] ∧ v0 (varithKey 4 1 3 2) (.varith at4 4 1 3 2) 4 = [0xC0400000] := by
  decide +kernel
/-- 1·2 − 3 (R306). -/
theorem test_vfma : v0 (vfmaKey 4 1 2 3 0) (.vfma at4 4 1 2 3 0) 4 = [0xBF800000] := by decide +kernel
theorem test_vcmp : v0 (vcmpKey 4 1 2 2) (.vcmp at4 4 1 2 2) 4 = [0xFFFFFFFF] ∧ v0 (vcmpKey 4 2 1 2) (.vcmp at4 4 2 1 2) 4 = [0] := by decide +kernel
theorem test_vsel : v0 (vselKey 4 1 2 3) (.vsel at4 4 1 2 3) 4 = [0x3F800000] ∧ v0 (vselKey 4 1 2 0) (.vsel at4 4 1 2 0) 4 = [0x40000000] := by decide +kernel
theorem test_vred : ((matRan (vredKey 4 1 0) (.vred at4 4 1 0)).regs.v? 4).take 2 = [0x42800000, 0] := by decide +kernel
/-- Sixty-four lanes of BF16 1.0 into the lower half. -/
theorem test_vcvt : v0 (vcvtKey 4 1 0 0) (.vcvt at4 4 1 0 0) 4 = [0x3F803F80] := by decide +kernel
theorem test_vacc : v0 (vaccKey 4 0 1) (.vacc at4 4 0 1) 4 = [0x40A00000] ∧
    ((matRan (vaccKey 2 2 1) (.vacc at4 2 2 1)).accRow 4).take 1 = [0x40E00000] := by decide +kernel
theorem test_vmov : v0 (vmovKey 4 0x1234) (.vmov at4 4 0x1234) 4 = [0x1234] := by decide +kernel
/-- R288: 1.0 under E4M3's largest exponent, 8: the scale byte is 127 − 8 and the code that of 256. -/
theorem test_mx_block : mxBlock 2 none (List.replicate 32 0x3F800000) = (119, List.replicate 32 0x78) := by decide +kernel
theorem test_vcvtmx : v0 (vcvtmxKey 8 1 0 9 0) (.vcvtmx at4 8 1 0 9 0) 8 = [0x78787878] ∧
    (8 : Nat) % 32 ≠ 9 % 32 ∧ (vs.v? 4).length = 64 := by decide +kernel

/-! ## Engines and Function Units (R271–R273, R312–R339) -/

/-- A header (R272): kind, format and length, no signal. -/
def hdr (kind fmt len : Nat) : List Byte := leBytes 1 kind ++ leBytes 1 fmt ++ leBytes 2 len ++ zeros 4 ++ leBytes 4 0xFFFFFFFF ++ zeros 4
/-- A library whose function 9 is x·x + p0. -/
def squares : Library := { version := 2, gateSlot := 0, funcs := [⟨9, 0, 2, 0, 0, []⟩], words := [0x08010000, 0], pages := [[0x40000000, 0x40400000]] }
def desc (idx : Nat) (b : List Byte) : QDesc := ⟨idx, 4, 64, 0, 0, 0, b⟩
/-- An engine of die 0 with a descriptor of the running step; 2.0 at 0x10000 and 3.0 at 0x11000 of its context. -/
def working (idx : Nat) (b : List Byte) : State :=
  let s := running.setEngine 0 idx fun x => { x with queue := [desc idx b] }
  let r := s.setCore 4 fun c => { c with regs := zeroRegs, outstanding := 1, credits := [(creditKey (engineKind idx) (engineInst idx), 1)] }
  { r with
    ctx := { r.ctx with caches := [(200 + idx, [⟨0, 0, entry⟩])] }
    fleet := { r.fleet with bank0 := some squares }
    dq := { r.dq with steps := r.dq.steps.map fun u => { u with libBank := 0 } }
    mem := (r.mem.writeN 0x10010000 (leBytes 4 0x40000000)).writeN 0x10011000 (leBytes 4 0x40400000) }
/-- `engineReady`, as a Boolean. -/
def engReady (s : State) (idx : Nat) (d : QDesc) (t : StepRec) : Bool :=
  decide ((s.engine 0 idx).queue = [d]) && (s.engineRuns ⟨0, idx⟩ && (decide (s.step? d.queue d.step = some t) &&
    (t.served ((s.engine 0 idx).inHand == some d) && d.headerOk)))
theorem engine_ready {s : State} {idx : Nat} {d : QDesc} {t : StepRec} (x : engReady s idx d t = true) : s.engineReady ⟨0, idx⟩ d [] t := by
  simp only [engReady, Bool.and_eq_true, decide_eq_true_eq] at x
  exact ⟨x.1, x.2.1, x.2.2.1, x.2.2.2.1, x.2.2.2.2⟩
/-- Whether an engine reads and translates what a statement's premises name. -/
def reads1 (s : State) (idx : Nat) (l : List (Nat × Nat)) : Bool :=
  match l with
  | [] => true
  | x :: r => (if x.2 = 0 then true else match s.readVa (200 + idx) 0 x.1 x.2 1 (.engine 0 idx) (some (64, 0)) (engineKind idx + 1) (Eng.agent ⟨0, idx⟩) with
    | .bytes _ _ => true
    | _ => false) && reads1 s idx r
def dests1 (s : State) (idx : Nat) (l : List (Nat × Nat)) : Bool :=
  match l with
  | [] => true
  | x :: r => (if x.2 = 0 then true else match s.stage (200 + idx) 0 x.1 x.2 2 (some (64, 0)) (engineKind idx + 1) (Eng.agent ⟨0, idx⟩) with
    | .ok _ _ => true
    | _ => false) && dests1 s idx r

def fuBytes (fmt src2 fn : Nat) : List Byte :=
  hdr 1 fmt 64 ++ leBytes 8 0x10000 ++ leBytes 8 src2 ++ leBytes 8 0x12000 ++ leBytes 4 1 ++ leBytes 2 fn ++ [5, 5] ++ leBytes 4 0x3F800000 ++
    zeros 12
def fu1 : State := working 0 (fuBytes 1 0 9)
def fu2 : State := working 0 (fuBytes 2 0x11000 0)
def step1 (s : State) : StepRec := (s.step? 64 0).getD runStep
theorem test_fu_ready : engReady fu1 0 (desc 0 (fuBytes 1 0 9)) (step1 fu1) = true ∧ fuOk (desc 0 (fuBytes 1 0 9)) (fuDesc (desc 0 (fuBytes 1 0 9))) = true ∧
    (fu1.engine 0 0).badBanks = [] ∧ reads1 fu1 0 [(0x10000, 4)] = true ∧ dests1 fu1 0 [(0x12000, 4)] = true ∧ overlap 0x10000 4 0x12000 4 = false ∧
    (step1 fu1).cond = .running := by decide +kernel
theorem test_fu_witness : fu1.engineReady ⟨0, 0⟩ (desc 0 (fuBytes 1 0 9)) [] (step1 fu1) := engine_ready (by decide +kernel)
/-- 2·2 + 1, and its descriptor has left. -/
theorem test_fu_elementwise : (after (.fuElementwise 0 0) fu1).mem.readN 0x10012000 4 = leBytes 4 0x40A00000 ∧
    ((after (.fuElementwise 0 0) fu1).engine 0 0).queue = [] := by decide +kernel
theorem test_fu_credit : tabGet 0 ((after (.fuElementwise 0 0) fu1).core 4).credits 16 = 0 ∧ ((after (.fuElementwise 0 0) fu1).core 4).outstanding = 0 := by
  decide +kernel
/-- (2·2 + 1) · 3. -/
theorem test_fu_gate : engReady fu2 0 (desc 0 (fuBytes 2 0x11000 0)) (step1 fu2) = true ∧
    fuOk (desc 0 (fuBytes 2 0x11000 0)) (fuDesc (desc 0 (fuBytes 2 0x11000 0))) = true ∧ gateFn fu2.fleet.bank0 0 = 9 ∧
    (after (.fuFusedGate 0 0) fu2).mem.readN 0x10012000 4 = leBytes 4 0x41700000 := by decide +kernel
theorem test_fu_refused : engReady (working 0 (fuBytes 3 0 9)) 0 (desc 0 (fuBytes 3 0 9)) (step1 fu1) = true ∧
    ((after (.fuElementwise 0 0) (working 0 (fuBytes 3 0 9))).engine 0 0).queue = [] := by decide +kernel

/-- A lane that holds 2.0, 3.0 and 1.0, its function's constants 2.0 and 3.0. -/
def lane1 : FuLane := ⟨0, 0, 5⟩
def laned : State := fu1.setEngine 0 0 fun x =>
  { x with lanes := [(5, [0x40000000, 0x40400000, 0x3F800000, 0, 0, 0, 0, 0])], func := some ⟨9, 0, 2, 0, 0, [0, 0xFFFF]⟩ }
def lane (c : Instr) : List Lane := tabGet [] ((after c laned).engine 0 0).lanes 5
theorem test_lane : laned.engineRuns ⟨0, 0⟩ = true ∧ (laned.lanePages lane1).map (·.k) = some [0x40000000, 0x40400000] ∧
    (laned.lanePages lane1).map (fun p => (p.tables.getD 0 none).isSome && (p.tables.getD 1 none).isNone) = some true := by decide +kernel
/-- z3 := −(z0·z1) + z2, and its sum refused: the product alone. -/
theorem test_fma : zGet (lane (.fma lane1 3 0 1 2 true false false)) 3 = 0xC0A00000 ∧ zGet (lane (.fma lane1 3 0 1 2 false false true)) 3 = 0x40C00000 := by
  decide +kernel
theorem test_ldc : zGet (lane (.ldc lane1 3 1)) 3 = 0x40400000 := by decide +kernel
/-- With r = 1/C: n is the nearest integer to z0·K[i+2], K past its end reading zero. -/
theorem test_rred : zGet (lane (.rred lane1 3 0 4 0)) 4 = 0 ∧ zGet (lane (.rred lane1 3 0 4 0)) 3 = 0x40000000 := by decide +kernel
theorem test_tlu : zGet (lane (.tlu lane1 3 0 0 30 1)) 3 = 0x40400000 := by decide +kernel
/-- (K[0])·z0 + K[1]: 2·2 + 3. -/
theorem test_horn : zGet (lane (.horn lane1 3 0 1 0)) 3 = 0x40E00000 := by decide +kernel
theorem test_fld : zGet (lane (.fld lane1 3 0 1 0 0)) 3 = 1 ∧ zGet (lane (.fld lane1 3 1 0 1 0)) 3 = 0x3FC00000 := by decide +kernel
theorem test_csel : zGet (lane (.csel lane1 3 0 1 2 false 0 0)) 3 = 0x3F800000 := by decide +kernel
theorem test_micro_end : tabGet 0 ((after (.microEnd lane1 1) laned).engine 0 0).result 5 = 0x40400000 := by decide +kernel
theorem test_bank_rewrite : let s := fu1.setEngine 0 0 fun x => { x with badBanks := [0, 1] }
    s.supervisorRuns = true ∧ ((after (.libraryBankRewrite 0 0 0) s).engine 0 0).badBanks = [1] := by decide +kernel

/-! ## Row Statistics Units and the Sampling Engine (R340–R410) -/

/-- One row of 2.0 and 3.0 at 0x10000; records at 0x13000, outputs at 0x12000, merged records at 0x14000. -/
def rsuBytes (fmt src dst aux mode flags outFmt : Nat) : List Byte :=
  hdr 2 fmt 128 ++ leBytes 8 src ++ leBytes 8 dst ++ leBytes 8 0x13000 ++ leBytes 8 aux ++ zeros 16 ++ leBytes 4 1 ++ leBytes 4 2 ++
    leBytes 4 64 ++ leBytes 4 64 ++ zeros 8 ++ [5, BitVec.ofNat 8 outFmt, BitVec.ofNat 8 mode, BitVec.ofNat 8 flags] ++ zeros 36
def rsu (b : List Byte) : State :=
  let s := working 8 b
  { s with mem := s.mem.writeN 0x10010000 (leBytes 4 0x40000000 ++ leBytes 4 0x40400000) }
/-- The premises of the five formats but for the operands' own addresses. -/
def rsuReady (fmt src dst aux mode flags outFmt : Nat) : Bool :=
  let b := rsuBytes fmt src dst aux mode flags outFmt
  let x := rsuDesc (desc 8 b)
  engReady (rsu b) 8 (desc 8 b) (step1 (rsu b)) && (rsuOk (desc 8 b) x && (!rsuClash x && ((desc 8 b).format == fmt &&
    (reads1 (rsu b) 8 (x.recIn :: rowsAt x.src x.srcPitch x.rows x.inRow) &&
      dests1 (rsu b) 8 ((x.stats, x.rows * 16) :: rowsAt x.dst x.dstPitch x.rows x.outRow)))))
theorem test_row_update : rsuReady 1 0x10000 0x12000 0 0 1 5 = true := by decide +kernel
theorem test_row_normalise : rsuReady 2 0x10000 0x12000 0 0 0 5 = true := by decide +kernel
theorem test_row_merge : rsuReady 3 0 0 0x14000 0 0 5 = true := by decide +kernel
theorem test_norm_apply : rsuReady 5 0x10000 0x12000 0 2 0 5 = true := by decide +kernel
/-- The sum of the squares of 2 and 3, of two elements, of kind 2. -/
theorem test_moments : rsuReady 4 0x10000 0 0 2 1 0 = true ∧
    (after (.moments 0 0) (rsu (rsuBytes 4 0x10000 0 0 2 1 0))).mem.readN 0x10013000 16 =
      leBytes 4 0x41500000 ++ zeros 4 ++ leBytes 4 2 ++ leBytes 4 2 := by decide +kernel
/-- Two records of kind 1 merge where the greater maximum is −∞: nothing is scaled. -/
theorem test_merge_record : let f := rsuFns none false
    (rowMerge f ⟨0xFF800000, 0, 1, 1⟩ ⟨0xFF800000, 0, 2, 1⟩ [] []).1 = ⟨0xFF800000, 0, 3, 1⟩ := by decide +kernel

/-- A row of four logits, greedy, its largest that of token 2 (R397, R400); the bank's functions stand in for EXP, LOG and RECIP. -/
def samBytes (fmt draft tokens drafts : Nat) : List Byte :=
  hdr 4 fmt 128 ++ leBytes 8 0x10000 ++ leBytes 8 0x13000 ++ leBytes 8 0x12000 ++ zeros 8 ++ leBytes 8 draft ++ leBytes 8 tokens ++
    leBytes 4 4 ++ leBytes 4 1 ++ leBytes 4 64 ++ [5, BitVec.ofNat 8 drafts] ++ zeros 50
def params : List Byte := leBytes 8 1 ++ zeros 12 ++ zeros 4 ++ leBytes 4 0x3F800000 ++ zeros 4 ++ zeros 4 ++ leBytes 4 0x3F800000 ++ zeros 24
def sam (b : List Byte) : State :=
  let s := working 14 b
  { s with
    fleet := { s.fleet with bank0 := some { squares with funcs := [⟨1, 0, 2, 0, 0, []⟩, ⟨3, 0, 2, 0, 0, []⟩, ⟨4, 0, 2, 0, 0, []⟩] } }
    mem := (s.mem.writeN 0x10010000 ([0, 0x40000000, 0x40400000, 0x3F800000].flatMap (leBytes 4))).writeN 0x10013000 params }
def samReady (fmt draft tokens drafts : Nat) : Bool :=
  let b := samBytes fmt draft tokens drafts
  let x := samDesc (desc 14 b)
  engReady (sam b) 14 (desc 14 b) (step1 (sam b)) && (samOk (desc 14 b) x && ((desc 14 b).format == fmt &&
    (reads1 (sam b) 14 ((x.params, 64 * x.rows) :: rowsAt x.logits x.pitch (x.rows * (x.drafts + 1)) (x.vocab * elemBytes x.inFmt) ++
      rowsAt x.tokens 64 x.rows (4 * x.drafts)) && dests1 (sam b) 14 ((x.slots fmt).map fun i => (x.result + 64 * i, 64)))))
theorem test_sample_ready : samReady 1 0 0 0 = true := by decide +kernel
theorem test_sample_rows : (after (.sampleRows 0) (sam (samBytes 1 0 0 0))).mem.readN 0x10012000 4 = leBytes 4 2 := by decide +kernel
/-- R406: a draft token that the target would not take (token 1) is replaced. -/
theorem test_verify_ready : samReady 2 0x14000 0x15000 1 = true := by decide +kernel
theorem test_verify_drafts : (after (.verifyDrafts 0) (sam (samBytes 2 0x14000 0x15000 1))).mem.readN 0x10012000 4 = leBytes 4 2 ∧
    (after (.verifyDrafts 0) (sam (samBytes 2 0x14000 0x15000 1))).mem.read 0x10012030 = 0 := by decide +kernel

/-! ## Expert routing (R414–R432) -/

/-- A table of one layer and one expert with its replica here: rows of 64 bytes, sixteen slots a source. -/
def table1 : Placement := ⟨3, 1, 64, 16, [⟨[[(0, 0)]]⟩]⟩
def routing (b : List Byte) : State :=
  let s := working 12 b
  { s with
    wt := { s.wt with placements := [(15, table1)] }
    dq := { s.dq with steps := s.dq.steps.map fun u => { u with model := some 15 } } }
def match1 : SeMatch := seMatch table1 runStep 7 0
def seReady (s : State) (b : List Byte) : Bool :=
  engReady s 12 (desc 12 b) (step1 s) && (decide ((s.engine 0 12).side = []) && (decide (s.seTable (step1 s) = some table1) && s.maskReached table1))

def openBytes : List Byte :=
  hdr 3 2 128 ++ leBytes 8 0x20000 ++ leBytes 8 0x28000 ++ leBytes 8 0x2A000 ++ leBytes 4 7 ++ zeros 2 ++ [1, 2] ++ leBytes 4 64 ++ leBytes 4 1 ++ zeros 72
theorem test_queue_open_ready : seReady (routing openBytes) openBytes = true ∧ openOk (desc 12 openBytes) table1 = true ∧
    (routing openBytes).entryOf match1 = none ∧ table1.queueBytes = 3136 ∧
    dests1 (routing openBytes) 12 [(0x20000, 3136), (0x28000, 1024), (0x2A000, 32)] = true := by decide +kernel
/-- The queue open, and sub-step 0 granted to the one member. -/
def openHere : State := after (.queueOpen 0 0) (routing openBytes)
theorem test_queue_open : (openHere.entryOf match1).map (fun x => (x.subStep, x.ready, x.outRowBytes)) = some (0, false, 64) ∧
    (openHere.grantOf match1 0).map (·.mask) = some 1 := by decide +kernel

def scatterBytes : List Byte :=
  hdr 3 1 128 ++ leBytes 8 0x10000 ++ leBytes 8 0x11000 ++ leBytes 8 0x12000 ++ leBytes 8 0 ++ leBytes 8 0x13000 ++ leBytes 4 1 ++ leBytes 4 0 ++
    leBytes 4 64 ++ leBytes 4 64 ++ zeros 4 ++ leBytes 4 7 ++ zeros 4 ++ [5, 1, 1, 0] ++ zeros 40
def scattering : State := openHere.setEngine 0 12 fun x => { x with queue := [desc 12 scatterBytes] }
theorem test_scatter_ready : seReady scattering scatterBytes = true ∧ scatterOk (desc 12 scatterBytes) (scatterDesc (desc 12 scatterBytes)) table1 = true ∧
    (scatterDesc (desc 12 scatterBytes)).scoring = true ∧ scattering.granted table1 match1 0 = true ∧
    scattering.itemsOf ⟨0, 12⟩ (desc 12 scatterBytes) = [] ∧ reads1 scattering 12 [(0x10000, 4), (0x11000, 64)] = true ∧
    dests1 scattering 12 [(0x12000, 128), (0x13000, 96)] = true := by decide +kernel
/-- Its row has gone to slot 0, and its lane has reported. -/
theorem test_scatter : let t := after (.scatter 0 0) scattering
    (t.engine 0 12).queue = [] ∧ (t.entryOf match1).map (fun x => (x.reports, (tabGet freshCount x.counts 0).received)) = some ([(0, 0)], 1) := by
  decide +kernel

/-- The entry as ready with a spill count in its reports; a QUEUE_RELEASE of an action. -/
def relBytes (act : Nat) : List Byte := hdr 3 3 64 ++ leBytes 4 7 ++ zeros 2 ++ [BitVec.ofNat 8 act] ++ zeros 41
def releasing (act spill : Nat) : State :=
  let s := openHere.setEngine 0 12 fun x => { x with queue := [desc 12 (relBytes act)] }
  s.modEntry match1 fun x => { x with ready := true, reports := [(0, spill)] }
theorem test_release_next : seReady (releasing 1 1) (relBytes 1) = true ∧
    ((after (.queueReleaseNext 0 0) (releasing 1 1)).entryOf match1).map (fun x => (x.subStep, x.ready)) = some (1, false) := by decide +kernel
theorem test_release_close : ((releasing 2 0).entryOf match1).map (fun x => (x.queue, x.step, x.spillTotal)) = some (64, 0, 0) ∧
    (after (.queueReleaseClose 0 0) (releasing 2 0)).wt.entries = [] := by decide +kernel
/-- A refusal ends the step, and with it the entry. -/
theorem test_release_refused : ((after (.queueReleaseNext 0 0) (releasing 1 0)).engine 0 12).queue = [] ∧
    (after (.queueReleaseNext 0 0) (releasing 1 0)).wt.entries = [] ∧ (after (.queueReleaseClose 0 0) (releasing 2 1)).wt.entries = [] := by decide +kernel

/-- RETURN of one row, its handle naming this member's home 0. -/
def returnBytes : List Byte :=
  hdr 3 4 64 ++ leBytes 8 0x11000 ++ leBytes 8 0x16000 ++ leBytes 4 1 ++ leBytes 4 64 ++ leBytes 4 8 ++ leBytes 4 7 ++ zeros 16
def returning : State := openHere.setEngine 0 12 fun x => { x with queue := [desc 12 returnBytes] }
theorem test_return : seReady returning returnBytes = true ∧ reads1 returning 12 [(0x16000, 8), (0x11000, 64)] = true ∧
    (after (.returnRows 0 0) returning).mem.readN 0x10028000 4 = leBytes 4 0x40400000 ∧ ((after (.returnRows 0 0) returning).engine 0 12).queue = [] := by
  decide +kernel

/-- What other members send: a grant, a slot write, a report, a row. -/
def grant2 : GrantMsg := ⟨match1, 1, 0, 0⟩
theorem test_se_grant : openHere.pp.state = .service ∧ openHere.grantOf match1 1 = none ∧ openHere.fab.device = 0 ∧
    ((after (.grantReceive grant2) openHere).grantOf match1 1).map (·.mask) = some 1 ∧
    ((after (.grantReceive { grant2 with granter := 3, subStep := 0 }) openHere).grantOf match1 0).map (·.mask) = some 9 := by decide +kernel
def kept (sub dest : Nat) : State := { openHere with wt := { openHere.wt with keptGrants := [⟨match1, sub, 0, dest⟩] } }
theorem test_grant_resend : (openHere.entryOf match1).map (·.subStep) = some 0 ∧ (after (.grantResend 0) (kept 0 1)).wt.keptGrants = [] ∧
    (after (.grantResend 0) (kept 0 1)).out.length = openHere.out.length + 1 ∧
    (after (.grantResend 0) { kept 0 1 with wt := { (kept 0 1).wt with entries := [] } }).wt.keptGrants = [] := by decide +kernel
def slotWrite : SlotWrite := ⟨match1, 0, 1, 0, 0, 1, 0, count 128, 9⟩
theorem test_slot_write : (openHere.entryFor match1 (some 0)).isSome = true ∧ table1.share 0 1 = (1, 1) ∧ (table1.layer 0).count 0 = 1 ∧
    (after (.slotWriteReceive slotWrite) openHere).mem.readN (0x10020000 + 64 + 0x440 + 128) 3 = [1, 2, 3] ∧
    ((after (.slotWriteReceive slotWrite) openHere).entryOf match1).map (·.fill) = some [(1, 1)] := by decide +kernel
def closed : State := { openHere with wt := { openHere.wt with entries := [] } }
theorem test_slot_write_blocked : closed.entryOf match1 = none ∧ (after (.slotWriteReceive slotWrite) closed).wt = closed.wt ∧
    (after (.slotWriteReceive slotWrite) closed).out.length = closed.out.length + 1 := by decide +kernel
def report (l : Nat) : LaneReport := ⟨match1, 0, l, 0, 0, 9⟩
theorem test_report : ((after (.reportReceive (report 3)) openHere).entryOf match1).map (·.reports) = some [(3, 0)] ∧
    ((after (.reportReceive (report 3)) openHere).entryOf match1).map (·.ready) = some false := by decide +kernel
/-- The sixteenth. -/
theorem test_report_last : let s := openHere.modEntry match1 fun x => { x with reports := (List.range 15).map fun i => (i, 0) }
    ((after (.reportReceive (report 15)) s).entryOf match1).map (·.ready) = some true := by decide +kernel
def row : ReturnRow := ⟨match1, 0, 0, 0, count 64, 9⟩
theorem test_return_row : (openHere.entryFor match1 none).map (fun x => (x.homeRows, x.outRowBytes, x.core)) = some (1, 64, 4) ∧
    (after (.returnRowReceive row) openHere).mem.readN 0x10028000 3 = [1, 2, 3] ∧
    (after (.returnRowReceive row) openHere).fleet.signals.map (·.value) = [1] := by decide +kernel

/-! ## Movers, KV blocks, weights, streams and pool upkeep (R363–R385, R445–R449, R492–R495) -/

/-- A mover with a descriptor, the pool with two zeroed frames beside the held block, which is record 1. -/
def pool1 : Pool := { newPool 0x20000000 262144 14 0 (count 64) with recs := [(1, block)], frames := [(1, .own), (2, .zeroed), (3, .zeroed)] }
def moving (b : List Byte) : State :=
  let s := working 16 b
  { s with
    kv := { s.kv with pools := [(0, pool1)] }
    mem := (s.mem.writeN 0x10020000 (leBytes 4 1)).writeN 0x10021000 (leBytes 4 1 ++ zeros 4) }
def mvReady (b : List Byte) : Bool := engReady (moving b) 16 (desc 16 b) (step1 (moving b))
def kvBytes (act amount seq res : Nat) : List Byte :=
  hdr 5 0x12 64 ++ leBytes 8 0x20000 ++ leBytes 8 seq ++ leBytes 8 res ++ leBytes 4 1 ++ [BitVec.ofNat 8 act, 0, BitVec.ofNat 8 amount, 0] ++ zeros 16
def alloc1 : List Byte := kvBytes 1 0 7 0x22000
theorem test_alloc : mvReady alloc1 = true ∧ kvOk (desc 16 alloc1) (kvDesc (desc 16 alloc1)) = true ∧
    dests1 (moving alloc1) 16 [(0x20000, 4), (0x22000, 8)] = true ∧
    (pool1.alloc ((moving alloc1).newRec 0 7 0) 1).map (·.1) = some [2] ∧
    ((after (.alloc 0 0) (moving alloc1)).pool? 0).map (fun p => (p.record 2).sequence) = some 7 := by decide +kernel
/-- R371: three blocks are more than the pool has. -/
theorem test_alloc_short : (pool1.alloc ((moving alloc1).newRec 0 7 0) 3).isNone = true := by decide +kernel
theorem test_free : mvReady (kvBytes 2 0 0 0) = true ∧ reads1 (moving (kvBytes 2 0 0 0)) 16 [(0x20000, 4)] = true ∧
    ((after (.free 0 0) (moving (kvBytes 2 0 0 0))).pool? 0).map (fun p => (p.record 1).state) = some .free := by decide +kernel
theorem test_share : kvOk (desc 16 (kvBytes 3 2 0 0)) (kvDesc (desc 16 (kvBytes 3 2 0 0))) = true ∧
    ((after (.share 0 0) (moving (kvBytes 3 2 0 0))).pool? 0).map (fun p => (p.record 1).count) = some 3 := by decide +kernel
theorem test_list : (moving alloc1).holdFault 0 0 1 true = none ∧ tabGet? pool1.recs (handleRec 1) = some block ∧
    ((moving alloc1).holdFault 0 1 1 true).isSome = true := by decide +kernel

/-- The table names record 1 of this member. -/
def copyBytes (fmt : Nat) : List Byte :=
  hdr 5 fmt 64 ++ leBytes 8 0x21000 ++ leBytes 8 0x10000 ++ leBytes 4 0 ++ leBytes 4 1 ++ leBytes 4 0 ++ leBytes 4 64 ++ leBytes 4 64 ++ zeros 12
theorem test_gather_ready : mvReady (copyBytes 0x10) = true ∧ copyOk (desc 16 (copyBytes 0x10)) (copyDesc (desc 16 (copyBytes 0x10))) = true ∧
    reads1 (moving (copyBytes 0x10)) 16 [(0x21000, 8)] = true ∧ dests1 (moving (copyBytes 0x10)) 16 [(0x10000, 64)] = true ∧
    (moving (copyBytes 0x10)).gatherFault (step1 (moving (copyBytes 0x10))) (copyDesc (desc 16 (copyBytes 0x10))) ⟨1, 0, false, false⟩ = none ∧
    ((moving (copyBytes 0x10)).gatherFault (step1 (moving (copyBytes 0x10))) (copyDesc (desc 16 (copyBytes 0x10))) ⟨1, 0, false, true⟩).isSome = true ∧
    after (.gather 0 0) (moving (copyBytes 0x10)) ≠ moving (copyBytes 0x10) := by decide +kernel
/-- The block written. -/
def stored : State := after (.put 0 0) (moving (copyBytes 0x11))
theorem test_put : mvReady (copyBytes 0x11) = true ∧ (stored.engine 0 16).queue = [] := by decide +kernel
/-- R376: handle 0 brings zeros. -/
def gatherNone : State := { moving (copyBytes 0x10) with mem := (working 16 []).mem.writeN 0x10010000 (count 4) }
theorem test_gather_zeros : (tableEntries 1 (zeros 8)).map (·.2.handle) = [0] ∧ gatherNone.mem.readN 0x10010000 4 = count 4 ∧
    (after (.gather 0 0) gatherNone).mem.readN 0x10010000 4 = zeros 4 ∧ ((after (.gather 0 0) gatherNone).engine 0 16).queue = [] := by decide +kernel
def asked (ctag : Nat) : GatherReq := ⟨3, 0, ctag, 1, 0, 64, 9⟩
theorem test_remote_gather : ((tabGet? (moving alloc1).ctx.ctxs 0).any (fun c => c.owner == 0)) = true ∧
    (moving alloc1).entryFault 0 0 1 0 64 true = none ∧ (moving alloc1).blockGood 1 0 64 = true ∧
    ((after (.remoteGatherRequest (asked 0)) (moving alloc1)).out.length = (moving alloc1).out.length + 1) ∧
    ((tabGet? (moving alloc1).ctx.ctxs 5).any (fun c => c.owner == 0)) = false ∧
    ((after (.remoteGatherRequest (asked 5)) (moving alloc1)).out.length = (moving alloc1).out.length + 1) := by decide +kernel

/-- Model 15 in service at epoch 1, its shard in expanded form, and the step bound to it; epoch 2 open where a swap is under way. -/
def modelled (b : List Byte) (epoch : Nat) : State :=
  let s := moving b
  let i : Image := { image with shards := [{ shard with form := 0 }] }
  let t := s.setModel 15 fun m => { m with resident := true, service := 1, image := some i, opened := 2, openImage := some i, phase := .staging }
  { t with
    dq := { t.dq with steps := t.dq.steps.map fun u => { u with model := some 15, epochW := epoch } }
    mem := t.mem.writeN 0x30000000 (count 64) }
def gateBytes : List Byte := hdr 5 0x13 64 ++ zeros 48
theorem test_gate : engReady (modelled gateBytes 1) 16 (desc 16 gateBytes) (step1 (modelled gateBytes 1)) = true ∧
    (modelled gateBytes 1).layerCount (step1 (modelled gateBytes 1)) = 1 ∧ (modelled gateBytes 1).boundNew (step1 (modelled gateBytes 1)) = false ∧
    ((after (.gate 0 0) (modelled gateBytes 1)).engine 0 16).queue = [] := by decide +kernel
theorem test_gate_waits : (modelled gateBytes 2).boundNew (step1 (modelled gateBytes 2)) = true ∧
    (modelled gateBytes 2).frontierOf (step1 (modelled gateBytes 2)) = 0 ∧
    ((after (.gate 0 0) (modelled gateBytes 2)).die 0).gates = [desc 16 gateBytes] := by decide +kernel
def wloadBytes : List Byte := hdr 5 0x14 64 ++ leBytes 8 0x12000 ++ leBytes 8 0 ++ leBytes 4 0 ++ leBytes 4 64 ++ zeros 24
theorem test_wload : wloadOk (desc 16 wloadBytes) (wloadDesc (desc 16 wloadBytes)) (step1 (modelled wloadBytes 1)) = true ∧
    ((modelled wloadBytes 1).boundImage (step1 (modelled wloadBytes 1))).isSome = true ∧
    (after (.wload 0 0) (modelled wloadBytes 1)).mem.readN 0x10012000 3 = [1, 2, 3] := by decide +kernel

def sendBytes (mode dst : Nat) : List Byte :=
  hdr 5 0x15 64 ++ leBytes 8 0x10000 ++ leBytes 8 dst ++ leBytes 4 64 ++ leBytes 4 (if mode = 2 then 7 else 0) ++
    [BitVec.ofNat 8 mode, 0, 0, 0, 0] ++ zeros 19
theorem test_send_write : mvReady (sendBytes 1 0x12000) = true ∧ sendOk (desc 16 (sendBytes 1 0x12000)) (sendDesc (desc 16 (sendBytes 1 0x12000))) = true ∧
    (after (.sendRemoteWrite 0 0) (moving (sendBytes 1 0x12000))).mem.readN 0x10012000 4 = leBytes 4 0x40000000 := by decide +kernel
theorem test_send_stream : sendOk (desc 16 (sendBytes 2 0)) (sendDesc (desc 16 (sendBytes 2 0))) = true ∧
    ((after (.sendReduceStream 0 0) (moving (sendBytes 2 0))).engine 0 24).ingress.map (fun c => (c.source, c.key, c.last)) = [(0, 7, true)] := by
  decide +kernel
/-- From another member: a write through the relay's cache, and a stream's chunk. -/
def relayed : State := let s := moving alloc1
  { s with ctx := { s.ctx with caches := s.ctx.caches ++ [(relayUnit 0, [⟨0, 0, entry⟩])] } }
def rwrite (ctag : Nat) : RemoteWrite := ⟨3, 0, ctag, 0x12000, count 64, 9⟩
theorem test_remote_write : relayed.ownsCtag 0 0 = true ∧ relayed.ownsCtag 0 5 = false ∧
    (match relayed.xlateNow (relayUnit 0) 0 0x12000 64 2 with
    | .ok ps => relayed.canWrite (relayed.context 0) ps
    | _ => false) = true ∧ (after (.remoteWriteReceive (rwrite 0)) relayed).mem.readN 0x10012000 3 = [1, 2, 3] ∧
    (after (.remoteWriteReceive (rwrite 5)) relayed).out.length = relayed.out.length + 1 := by decide +kernel
def chunk (src : Nat) : ReduceChunk := ⟨src, 0, 0, 7, 0, 0, (List.replicate 64 (leBytes 4 0x3F800000)).flatten, true, 9⟩
theorem test_reduce_chunk : (relayed.die 0).retired = false ∧ (relayed.engine 0 24).retired = false ∧
    ((after (.reduceChunkReceive (chunk 1)) relayed).engine 0 24).ingress = [chunk 1] := by decide +kernel
/-- The stream of member 1 and the own 2.0 and zeros. -/
def reduceBytes : List Byte :=
  hdr 6 1 64 ++ leBytes 8 0x10000 ++ leBytes 8 0x12000 ++ leBytes 8 3 ++ leBytes 4 64 ++ leBytes 4 7 ++ [5, 5] ++ zeros 14
def reducing : State := (working 24 reduceBytes).setEngine 0 24 fun x => { x with ingress := [chunk 1] }
theorem test_reduce_ready : engReady reducing 24 (desc 24 reduceBytes) (step1 reducing) = true ∧
    reduceOk (desc 24 reduceBytes) (reduceDesc (desc 24 reduceBytes)) 0 = true ∧ (takeStreams 0 7 [] [chunk 1]).1 = [chunk 1] ∧
    ((streamOf [chunk 1] 1).2, (streamOf [chunk 1] 1).1.length) = (true, 256) ∧ bitList 64 3 = [0, 1] ∧
    reads1 reducing 24 [(0x10000, 256)] = true ∧ dests1 reducing 24 [(0x12000, 256)] = true := by decide +kernel
theorem test_reduce : (after (.reduce 0 0) reducing).mem.readN 0x10012000 8 = leBytes 4 0x40400000 ++ leBytes 4 0x3F800000 := by decide +kernel

/-- Upkeep: a frame that awaits scrub; a block of a pool with a partner, all of its frames taken; a move begun. -/
theorem test_scrub : pool1.total = 16 ∧ (((List.range pool1.total).drop pool1.tableFrames).find? (fun f => (tabGet .scrub pool1.frames f) == .scrub)).isSome = true := by
  decide +kernel
def partnered (moves : List (Nat × Nat × Nat)) (b : KvRec) : State :=
  let s := moving alloc1
  { s with kv := { s.kv with pools :=
      [(0, { pool1 with recs := [(1, b)], frames := [(1, .own)], moves := moves, outflow := true }),
       (32, { newPool 0x8000000000 262144 14 1 (count 64) with frames := [(1, .zeroed)] })] } }
theorem test_move_begin : let s := partnered [] block
    s.supervisorRuns = true ∧ s.recLive block = true ∧ s.policyMoves 0 1 block = true ∧ partnerOf 0 = 32 ∧ homeOf 0 block = 0 ∧
    (s.pool? 32).bind (·.moveTarget (halfOf block.framePa / 4)) = some 1 ∧
    ((after (.tierMoveBegin 0 1) s).pool? 0).map (fun p => (p.record 1).moving) = some true := by decide +kernel
/-- R382: written meanwhile, the copy begins again. -/
theorem test_move_again : let s := partnered [(1, 0, 0)] { block with moving := true, moveFrame := 1, putGen := 1 }
    s.poisonAt block.framePa 16384 = false ∧ ((after (.tierMoveCommit 0 1) s).pool? 0).map (·.moves) = some [(1, 1, 1)] := by decide +kernel
theorem test_move_commit_ready : let s := partnered [(1, 0, 0)] { block with moving := true, moveFrame := 1 }
    (s.pool? 0).map (fun p => (p.moves, (p.record 1).putGen, (p.record 1).inPartner)) = some ([(1, 0, 0)], 0, false) ∧ (s.pool? 32).isSome = true ∧
    s.pp.state = .service := by decide +kernel
theorem test_stale_sweep : let b := { block with incarnation := 1 }
    (partnered [] b).recStale b = true ∧ ((after (.staleSweep 0) (partnered [] b)).pool? 0).map (·.recs) = some [] := by decide +kernel
/-- R365: the patrol goes on, and rewrites a half that lost its contents. -/
def lostHalf : State := { svc with tiers := { svc.tiers with halves := tabMod (freshHalf 0) svc.tiers.halves 0 fun x => { x with lost := true } } }
theorem test_patrol : (match locate 64 with
    | .tier h o => decide (h = 0 ∧ o = 64)
    | _ => false) = true ∧ 64 < svc.halfBytes 0 ∧ (svc.half 0).lost = false ∧ (after (.patrolScrub 1) svc).tiers.patrol = 2 := by decide +kernel
theorem test_patrol_rewrites : lostHalf.supervisorRuns = true ∧ (lostHalf.half 0).lost = true ∧
    ((after (.patrolScrub 1) lostHalf).half 0).lost = false := by decide +kernel

/-! ## Published vectors of the standards that the rules name (log entry 20) -/

def ascii (l : List Nat) : List Byte := l.map (BitVec.ofNat 8)
/-- The check values of CRC-32C and of CRC-64 of ECMA-182, for the digits 1 to 9. -/
theorem test_crc : crc32c (ascii [49, 50, 51, 52, 53, 54, 55, 56, 57]) = 0xE3069283 ∧ crc64 (ascii [49, 50, 51, 52, 53, 54, 55, 56, 57]) = 0x6C40DF5F0B497347 := by
  decide +kernel
/-- FIPS 180-4, for the message abc. -/
theorem test_sha : (sha256 (ascii [97, 98, 99])).take 8 = ascii [0xBA, 0x78, 0x16, 0xBF, 0x8F, 0x01, 0xCF, 0xEA] ∧
    (sha384 (ascii [97, 98, 99])).take 8 = ascii [0xCB, 0x00, 0x75, 0x3F, 0x45, 0xA3, 0x5E, 0x8B] := by decide +kernel
/-- FIPS 197, appendix C.3. -/
theorem test_aes : let k := aesKeys (ascii (List.range 32))
    aesEnc k ((List.range 16).map (17 * ·)) = [0x8E, 0xA2, 0xB7, 0xCA, 0x51, 0x67, 0x45, 0xBF, 0xEA, 0xFC, 0x49, 0x90, 0x4B, 0x49, 0x60, 0x89] := by
  decide +kernel

/-! ## Reset, messages, memory, and well-formedness -/

theorem test_reset : State.reset.pending = [] ∧ State.reset.mem.wf = true ∧ State.reset.pp.state = .off := by decide +kernel
/-- R168: the six words of a MODULE_RESET, written out from R144. -/
theorem test_message : cmdMessage bmc (.moduleReset 2) = leBytes 2 (cmdOpcode (.moduleReset 2)) ++ [1, 0, 1, 4] ++ leBytes 2 8 ++ leBytes 4 7 ++
    [0, 0, 0xFF, 0] ++ [2, 0, 0, 0, 0, 0, 0, 0] := by decide +kernel
/-- The round trip's premises, for the longest message. -/
def longest : Command := .rangeMap 4095 16383 (List.replicate 6 ⟨2 ^ 52, 4096, 8192, 1, 7, 15⟩)
theorem test_round_trip : (cmdPayload longest).length = 200 ∧ (Instr.rangeMap pf 4095 16383 (List.replicate 6 ⟨2 ^ 52, 4096, 8192, 1, 7, 15⟩)).wellFormed = true ∧
    (match parseMessage pf.sender 4 (cmdMessage pf longest) with
    | .inr r => decide (r.1 = pf) && cmdPayload r.2 == cmdPayload longest
    | .inl _ => false) = true := by decide +kernel
/-- One bit in a reserved byte, and the message is malformed. -/
theorem test_reserved : (match parseMessage pf.sender 4 ((cmdMessage pf (.moduleReset 2)).set 17 1) with
    | .inl e => e.2.2
    | .inr _ => 0) = ST_MALFORMED := by decide +kernel
theorem test_table_words : decodeTableWord 0 0 = none ∧ State.reset.withFetchWord 8 1 = State.reset := ⟨rfl, rfl⟩

/-- An ill-formed term for each check, and the same within its bounds. -/
theorem test_headers : (∀ h ∈ [pf, vf, bmc, ⟨.relay 256, 2 ^ 32 - 1, 255, 255, 255⟩], CmdHdr.wellFormed h = true) ∧
    (∀ h ∈ [⟨.host 256, 7, 1, 4, 0xFF⟩, ⟨.relay 257, 7, 1, 4, 0xFF⟩, ⟨.gone, 7, 1, 4, 0xFF⟩, ⟨.bmc, 2 ^ 32, 1, 4, 0xFF⟩, ⟨.bmc, 7, 256, 4, 0xFF⟩,
      ⟨.bmc, 7, 1, 256, 0xFF⟩, ⟨.bmc, 7, 1, 4, 256⟩], CmdHdr.wellFormed h = false) := by decide +kernel
theorem test_records : Access.wellFormed ⟨65535, 1⟩ = true ∧ Access.wellFormed ⟨65536, 1⟩ = false ∧ Access.wellFormed ⟨0, 2⟩ = false ∧
    FuLane.wellFormed ⟨7, 7, 63⟩ = true ∧ FuLane.wellFormed ⟨8, 7, 63⟩ = false ∧ FuLane.wellFormed ⟨7, 8, 63⟩ = false ∧ FuLane.wellFormed ⟨7, 7, 64⟩ = false ∧
    SeMatch.wellFormed ⟨255, 4095, 0, 0, 0, 0⟩ = true ∧ SeMatch.wellFormed ⟨256, 0, 0, 0, 0, 0⟩ = false ∧ SeMatch.wellFormed ⟨0, 4096, 0, 0, 0, 0⟩ = false ∧
    SeMatch.wellFormed ⟨0, 0, 2 ^ 32, 0, 0, 0⟩ = false ∧ IdentRec.wellFormed ⟨9, 7, 1, 0, 17, 0, 2, 3, 0, false⟩ = true ∧
    IdentRec.wellFormed ⟨9, 7, 1, 0, 18, 0, 2, 3, 0, false⟩ = false ∧ IdentRec.wellFormed ⟨9, 7, 1, 0, 17, 16, 2, 3, 0, false⟩ = false ∧
    IdentRec.wellFormed ⟨2 ^ 64, 7, 1, 0, 17, 0, 2, 3, 0, false⟩ = false := by decide +kernel
theorem test_units : (∀ u ∈ [UnitRef.core 511, .slice 7 47, .die 7, .quad 7 15, .engine 7 25, .channel 31 31, .half 31, .rowBlock 7 47 511, .laneGroup 13 1 16,
    .edge 13, .link 17, .ioDie 1], u.wellFormed = true) ∧ (∀ u ∈ [UnitRef.core 512, .slice 7 48, .slice 8 0, .die 8, .quad 7 16, .engine 7 26, .channel 32 0,
    .channel 0 32, .half 32, .rowBlock 7 47 512, .laneGroup 14 0 0, .laneGroup 0 2 0, .laneGroup 0 0 17, .edge 14, .link 18, .ioDie 2], u.wellFormed = false) := by
  decide +kernel
/-- R246: a core or predicate that does not exist, a field too wide, a reserved bit, a value out of its range. -/
theorem test_slots : (∀ k ∈ [aluKey 12 31 31 31 false 0, aluKey 0 1 2 0 true (-(2 ^ 31)), mmulKey 1 0 0 false true false 4 1 1024, endPartKey],
      slotWellFormed at4 k = true) ∧ slotWellFormed ⟨512, 0, false, false⟩ endPartKey = false ∧ slotWellFormed ⟨4, 8, false, false⟩ endPartKey = false ∧
    slotWellFormed at4 (aluKey 0 32 0 0 false 0) = false ∧ slotWellFormed at4 (aluKey 13 1 2 3 false 0) = false ∧
    slotWellFormed at4 (aluKey 0 1 2 0 true (2 ^ 31)) = false ∧ slotWellFormed at4 (aluKey 0 1 2 0 true (-(2 ^ 31) - 1)) = false := by decide +kernel
/-- Check 4 of R149, one command for each kind of field. -/
theorem test_malformed : (∀ i ∈ [Instr.ctxDestroy bmc 4095, .capSet bmc 65535, .portDefine bmc 31 (2 ^ 18 - 1), .kvHint pf 0 63 3 0, .logRead bmc 0 255],
      i.wellFormed = true) ∧ (∀ i ∈ [Instr.ctxDestroy bmc 4096, .capSet bmc 65536, .portDefine bmc 32 0, .portDefine bmc 0 (2 ^ 18), .kvHint pf 0 64 0 0,
      .kvHint pf 0 0 4 0, .logRead bmc 0 256, .settingWrite bmc 65536 0, .sitekeyEnrol bmc [] [], .dieReset bmc 256, .memGrant bmc 256 0 0,
      .ctxCreate pf 3 0 none 0, .rangeMap pf 0 0 [⟨0, 0, 0, 3, 0, 0⟩], .keySlotSet pf 0 [], .stepResume pf 0 65536 0, .qgroupAssign pf 1024 0 0 0,
      .queueConfigure pf 0 4 0 0, .programUnload pf 0 (2 ^ 32), .poolCreate pf 64 14 0 0 0, .poolDestroy pf 64, .kvAccept pf 0 (2 ^ 32) 0,
      .epochBegin pf 256 0 ⟨0, 0, none⟩, .adapterLoad pf 0 65536 0 0 0 0, .placementApply pf 256 ⟨0, 0, none⟩, .planLoad pf ⟨2 ^ 64, 0, none⟩,
      .podStateSet pf 4, .matchedSet bmc 2], i.wellFormed = false) := by decide +kernel
/-- One command for each bound on the numbers of the others. -/
theorem test_numbers : ∀ i ∈ [Instr.perstAssert 2, .coreClockSwitch 8, .idleDemoteGated 512, .wakeComplete (.die 8), .ctxDestroyComplete 4096,
      .stepAbortComplete 65536 0, .switchReceive 16 1, .podStateReceive 4, .mbxSend ⟨0, 0⟩ 544, .registerWrite ⟨0, 0⟩ 1 0 8 0,
      .registerWrite ⟨0, 0⟩ 0 0 3 0, .registerWrite ⟨0, 0⟩ 0 0 1 256, .msixUnmask 256 none, .tdiError 0, .doorbellWrite ⟨0, 0⟩ 1024 0 0,
      .doorbellWrite ⟨0, 0⟩ 0 64 0, .podWindowDoorbell ⟨0, 0⟩ 64 0 0 0, .relayForward 64, .fetchComplete 512, .gatherBufferWriteback 0 32768,
      .fuElementwise 0 8, .rowUpdate 0 4, .sampleRows 8, .scatter 0 2, .gather 0 8, .reduce 0 2, .frameScrub 64, .layerCopy 16, .weightFrameReceive 0 16384 0 0 [],
      .linkTrainingStageEnd 18, .flitReceive 0 [], .forwardStoredMessage 4 0, .heartbeatReceive 64 0], i.wellFormed = false := by decide +kernel
theorem test_numbers_more : ∀ i ∈ [Instr.allowanceWindowStart 512 [], .droopRelease 8, .phaseFailure 26 0, .phaseFailure 0 16, .thermalTrip 12 0 0,
      .ownershipRequest ⟨6, 0, none⟩ 0 [], .quadSpareMap 0 16, .meshLaneGroupFailure 14 0 0, .fatalError 0, .fatalError 6, .perstDeassert 2, .tdispRequest 0 0,
      .tdispRequest 1 3, .ideKmRequest 0 9 [], .ldc lane1 8 0, .ldc lane1 0 1024, .tlu lane1 0 0 4 0 1, .tlu lane1 0 0 0 0 11, .horn lane1 0 0 17 0,
      .fld lane1 0 0 0 10 0, .csel lane1 0 0 0 0 false 6 0, .rred lane1 0 0 8 0, .fma lane1 0 0 0 8 false false false, .microEnd lane1 8],
    i.wellFormed = false := by decide +kernel

set_option maxRecDepth 100000

/-! ## Clauses of the power path, of ports and of a start (R42–R92) -/

/-- R44: after an overvoltage the stage closes below 59.0 V, after a break once MAIN_SENSE is remade, with main good or not. -/
theorem test_other_recloses : (after (.hotSwapReclose false 58999) (after (.hotSwapOvervoltage 60001) svc)).pp.hotSwap = .closed ∧
    (after (.hotSwapReclose false 59000) (after (.hotSwapOvervoltage 60001) svc)).pp.hotSwap = .overvoltage ∧
    (after (.hotSwapReclose true 54000) (after .mainSenseBreak svc)).pp.mainSense = true ∧ stby.pp.hotSwap = .closed ∧
    (after (.hotSwapOvervoltage 60001) stby).pp.mainCeased = true ∧ (after (.hotSwapOvercurrent 110001) stby).pp.mainCeased = true := by
  decide +kernel
/-- A Mover with a descriptor in hand. -/
def moverBusy : State :=
  after .pwrfailNAssert (svc.setEngine 2 19 fun e => { e with inHand := some ⟨19, 128, 64, 0, 0, 0, []⟩ })
/-- R49, R50: a warned DRAIN waits for an engine, for 1.5 ms. -/
theorem test_drain_waits_for_engine : moverBusy.movingEngines = [0x800 + 2 * 32 + 19] ∧ (after .drainComplete moverBusy).pp.state = .drain ∧
    (after .drainForced { moverBusy with aon := { moverBusy.aon with clock := moverBusy.aon.clock + 1500000 } }).pp.warned = false ∧
    (after .drainComplete draining).tiers.selfRefresh = true := by decide +kernel
/-- RETAIN with a step that was interrupted. -/
def interrupted : State :=
  { inState .retain with dq := { svc.dq with steps := [{ svc.stepOf 64 0 0 0 [] with cond := .running, interrupted := true }] } }
/-- R51: it ends with ST_POWERFAIL as SERVICE is back. -/
theorem test_powerfail_ends : (interrupted.step? 64 0).any (fun x => x.interrupted && x.ended.isNone) = true ∧
    (after .retainExit interrupted).dq.steps.all (fun x => x.ended == some ST_POWERFAIL) = true := by decide +kernel
/-- A posted write of a fault record on port A. -/
def faultPosted : Posted := ⟨255, none, 0x7000, count 64, 0, .fault (svc.fltBlank)⟩
def posting : State := svc.setPort 0 fun x => { x with posted := [faultPosted] }
/-- R135: it is sent again on port B, with WRITE_ERROR. -/
theorem test_post_resent : (posting.port 1).on 255 = true ∧ ((after (.hostPortLinkDown ⟨0, 1⟩) posting).fn 255).fltWriteError = true ∧
    (after (.hostPortLinkDown ⟨0, 1⟩) posting).out = [.hostWrite 1 255 none 0x7000 (count 64) 0] := by decide +kernel
/-- R81: an FLR of the PF clears VF Enable. -/
theorem test_flr_of_pf : (after (.flr 0) svc).host.portA.vfs = 0 ∧ (after (.flr 0) svc).host.portB.memOn 1 = false := by decide +kernel
theorem test_unmask_sends_nothing : (State.reset).fnPort 2 = none ∧ (after (.msixUnmask 2 none) State.reset).out = [] := by decide +kernel

/-- R59, R60: the share is elected once while the always-on domain is powered. -/
theorem test_phases_1_to_3 : (after (.startPhaseEnd passed) (phase 1)).pp.phase = 2 ∧ (phase 2).aon.elected = false ∧
    (after (.startPhaseEnd { passed with iaPass := false }) { phase 2 with aon := { svc.aon with elected := true } }).cx.active = 0 ∧
    (after (.startPhaseEnd passed) { phase 2 with pp := { (phase 2).pp with mainGood := false } }).pp.state = .standby ∧
    (after (.startPhaseEnd passed) (phase 3)).pp.phase = 4 := by decide +kernel
/-- A start whose preferred slot, or each slot, holds no set. -/
def slotless (both : Bool) : State :=
  { phase 4 with cfg := { svc.cfg with flashA := { svc.cfg.flashA with slot := none }, flashB := { svc.cfg.flashB with slot := if both then none else some factorySet } } }
/-- R89: the preferred set, else the other, else management only. -/
theorem test_phase_4 : ((phase 4).slotSet 0).isSome = true ∧ (after (.startPhaseEnd passed) (phase 4)).cfg.startedFrom = 0 ∧
    (slotless false).slotSet 0 = none ∧ (after (.startPhaseEnd passed) (slotless false)).cfg.startedFrom = 1 ∧
    (slotless true).slotSet 1 = none ∧ (after (.startPhaseEnd passed) (slotless true)).pp.state = .mgmtOnly := by decide +kernel
theorem test_phases_5_to_7 : (phase 5).cfg.siteBytes = none ∧ (after (.startPhaseEnd passed) (phase 5)).cfg.bindingLocked = true ∧
    ({ phase 5 with cfg := svc.cfg.storeSite (zeros 160) }).cfg.siteBytes = some (zeros 160) ∧
    (after (.startPhaseEnd passed) { phase 5 with cfg := svc.cfg.storeSite (zeros 160) }).cfg.site = none ∧
    (phase 6).aboveFloor = true ∧ (List.range 8).all (fun d => (phase 6).dieStacks d != 0 && decide (16 ≤ (phase 6).dieCores d)) = true ∧
    (after (.startPhaseEnd passed) (phase 6)).pp.phase = 7 ∧ (after (.startPhaseEnd passed) (phase 7)).pp.phase = 8 ∧
    (after (.startPhaseEnd passed) { phase 7 with cx := { svc.cx with stateB := .heldInReset } }).pp.phase = 9 := by decide +kernel
/-- R91: a unit that fails in phase 0x6 is retired. -/
theorem test_phase_6_failure :
    UnitRef.engine 7 25 ∈ (after (.startPhaseEnd { passed with failedUnits := [.engine 7 25] }) (phase 6)).rel.retired := by decide +kernel
theorem test_phase_8 : (phase 8).ioRetired 0 = false ∧ (after (.startPhaseEnd passed) (phase 8)).complex 1 = .standby ∧
    (after (.startPhaseEnd { passed with otherOk := false }) (phase 8)).ioRetired 1 = true ∧
    (after (.startPhaseEnd { passed with otherOk := false }) (phase 8)).pp.phase = 9 := by decide +kernel
/-- R71: a die follows its last core; a core reserved for URGENT work stays above OFF. -/
theorem test_floor_of_power : awake.idleLong 511 = true ∧ ((after (.idleDemoteGated 511) awake).die 7).power ≠ .active ∧
    (svc.reservedCores 0).contains 0 = true ∧ svc.belowFloor (.core 0) .off = true ∧
    after (.powerStateOrder (.core 0) .off) svc = svc := by decide +kernel
theorem test_rail_ready : (svc.setDie 7 fun x => { x with ordered := some 15 }).railReady 7 15 = true := by decide +kernel
/-- R99, R101: a removal without a key, and a length that no layer has. -/
theorem test_site_refusals : svc.admits pf (.sitekeyEnrol 2 (zeros 96) (zeros 96)) ∧ svc.admits pf (.sitelayerWrite ⟨64, 159, none⟩) ∧
    (after (.sitekeyRemove pf (zeros 96)) svc).cx.answers.map (·.status) = [ST_DENIED] ∧
    (after (.sitelayerWrite pf ⟨64, 159, none⟩) svc).cx.answers.map (·.status) = [ST_RANGE] :=
  ⟨adm (by decide +kernel), adm (by decide +kernel), by decide +kernel⟩
/-! ## Clauses of the commands on steps, programs and epochs (R134, R170, R195, R234, R454–R464) -/

/-- The suspended step with core 5 given to another step, or with its record waiting beyond the 64 that its function holds. -/
def coreTaken : State := suspended.setCore 5 fun c => { c with step := some (65, 0) }
def recordWaiting : State := suspended.setFn 0 fun h => { h with beyond := [{ suspended.fltBlank with queue := 64, stepIndex := 0 }] }
theorem test_resume_waits : coreTaken.admits pf (.stepResume 0 64 0) ∧ coreTaken.ownCtx (.host 0) 0 false = .inr (coreTaken.context 0) ∧
    (coreTaken.step? 64 0).any (fun x => !coreTaken.coresFree x && !coreTaken.recordWaits x) = true ∧
    ((after (.stepResume pf 0 64 0) coreTaken).step? 64 0).map (·.cond) = some .preempted := ⟨adm (by decide +kernel), by decide +kernel⟩
theorem test_resume_refused : (recordWaiting.step? 64 0).any recordWaiting.recordWaits = true ∧
    (after (.stepResume pf 0 64 0) recordWaiting).cx.answers.getLast?.map (·.status) = some ST_STATE ∧
    (after (.stepResume pf 0 64 0) (stepped .running)).cx.answers.getLast?.map (·.status) = some ST_STATE := by decide +kernel
/-- The suspended step with what core 5 saved. -/
def savedStep : State :=
  { coreTaken.setCore 5 (fun c => { c with step := none, tag := some 1 }) with dq := { suspended.dq with steps := [{ step0 .suspended with
      saved := [(5, savedCore)] }] } }
/-- R234: the core goes on from what it saved. -/
theorem test_resume_restores : (savedStep.step? 64 0).any savedStep.coresFree = true ∧
    ((after (.stepResume pf 0 64 0) savedStep).core 5).pc = 3 ∧ ((after (.stepResume pf 0 64 0) savedStep).core 5).regs.x? 1 = 5 ∧
    ((after (.stepResume pf 0 64 0) savedStep).core 5).tag = some 0 := by decide +kernel
theorem test_abort_again : (after (.stepAbort pf 0 64 0) (stepped .aborting)).cx.answers.getLast?.map (·.status) = some ST_OK ∧
    ((after (.stepAbort pf 0 64 0) (stepped .aborting)).step? 64 0).map (·.cond) = some .aborting := by decide +kernel
/-- A context whose 256 handles are taken. -/
def fullHandles : State := { loading with ctx := { loading.ctx with programs := List.replicate 256 program1 } }
theorem test_handles_full : fullHandles.handlesOf 0 = 256 ∧ fullHandles.admits pf (.programLoad 0 0 384) ∧
    (after (.programLoad pf 0 0 384) fullHandles).cx.answers.getLast?.map (·.status) = some ST_NOSPACE :=
  ⟨by decide +kernel, adm (by decide +kernel), by decide +kernel⟩
/-- R464: an epoch whose first layer is in service somewhere is restored. -/
def swapping : State := staging.setModel 15 fun m => { m with phase := .staging, frontier := 1, service := 1, image := some image }
theorem test_epoch_restores : swapping.admits pf (.epochAbort 15 1) ∧ (swapping.model 15).swapping = true ∧ (swapping.model 15).highest = 1 ∧ swapping.pfPort.isSome = true ∧
    ((after (.epochAbort pf 15 1) swapping).model 15).phase = .restoring := ⟨adm (by decide +kernel), by decide +kernel⟩
theorem test_switch_received : ((after (.switchReceive 15 1) opened).model 15).phase = .checking ∧
    ((after (.switchReceive 15 1) opened).model 15).cuts = opened.dq.queues.map (fun q => (q.1, q.2.producer)) := by decide +kernel
/-- R455: tables that fail a check end the epoch. -/
theorem test_image_refused : (match checking.checkImage 15 (zeros 576) with | .inl _ => true | .inr _ => false) = true ∧
    ((after (.epochCommitCheck 1 (.ok (zeros 576))) checking).model 15).phase = .none_ := by decide +kernel
/-! ## Clauses of placement, distribution, plans, links and pod time (R418, R451–R459, R468–R490) -/

/-- A table with a part on member 1 too; and the member to which the head sent it. -/
def farBytes : List Byte :=
  leBytes 4 0x50584C50 ++ [1, 15] ++ leBytes 2 1 ++ leBytes 4 3 ++ leBytes 4 112 ++ leBytes 8 3 ++ leBytes 4 64 ++ leBytes 2 16 ++ zeros 34
    ++ (leBytes 2 1 ++ zeros 2 ++ leBytes 4 0 ++ zeros 8) ++ (leBytes 2 1 ++ zeros 14 ++ leBytes 4 0 ++ zeros 12)
def placingFar : State := { placing with fab := (inPod 0).fab }
theorem test_placement_sent : (match placingFar.checkPlacement 15 112 farBytes with
    | .inr p => decide (placingFar.placeFar p = [1])
    | .inl _ => false) = true ∧ (tabGet? (after (.placementApplyInstall 0 (.ok farBytes) false) placingFar).wt.placeJobs 15).isSome = true ∧
    (after (.placementApplyInstall 0 (.ok farBytes) false) placingFar).placement? 15 = none ∧ (inPod 1).item 0 = none ∧
    (tabGet? (after (.placementApplyInstall 0 (.ok farBytes) false) (inPod 1)).wt.stagedTables 15).isSome = true := by decide +kernel
/-- The staged layer with its store's memory lost. -/
def blocked : State := staged.setHalf (halfOf shard.storePa) fun h => { h with channels := 0 }
/-- R26, R458: the layer is copied, or where its memory is lost it is not. -/
theorem test_layer_copy : (image.layerShards 0).all (fun y => (staged.copyBlock y.2).isNone) = true ∧
    ((after (.layerCopy 15) staged).model 15).phase = .copying ∧
    (image.layerShards 0).any (fun y => (blocked.copyBlock y.2).isSome) = true ∧
    ((after (.layerCopy 15) blocked).model 15).phase = .staging := by decide +kernel
/-- An epoch of two layers, and a member with its layer copied. -/
def twoLayers : State := reported.setModel 15 fun m => { m with openImage := some { image with layers := image.layers ++ image.layers } }
def memberCopied : State := joining.setModel 15 fun m => { m with phase := .copying }
theorem test_next_layer : (twoLayers.model 15).podCommitted = 0 ∧ ((after (.podLayerCommit 15) twoLayers).model 15).podCommitted = 1 ∧
    ((after (.podLayerCommit 15) twoLayers).model 15).phase = .staging ∧ (after (.podLayerCommit 15) twoLayers).cx.journal.map (·.opcode) = [0x0502] ∧
    memberCopied.isHead = false ∧ ((after (.layerCommit 15) memberCopied).out).any (fun o => o == .packet 1 7 (.layerReport 15 0)) = true := by
  decide +kernel
/-- R453: a frame whose CRC fails is asked of the parent, or read again from host memory by its reader. -/
theorem test_frame_again : (staging.takesShard shard) = true ∧ shard.reader = staging.fab.device ∧ staging.pfPort = some 0 ∧
    (after (.weightFrameReceive 15 0 0 0 (zeros 4096)) staging).host.reads.map (·.purpose) = [.shard 15 0] ∧
    (after (.weightFrameReceive 15 0 0 0 (zeros 4096)) joining).out.any (fun o => o == .packet 1 7 (.frameRequest 15 0 0)) = true := by decide +kernel

theorem test_pod_state_refused : (inPod 0).podChangeOk 0 = false ∧ (after (.podStateSet pf 0) (inPod 0)).cx.answers.map (·.status) = [ST_STATE] ∧
    (after (.podStateSet pf 1) (inPod 0)).cx.answers.map (·.status) = [ST_OK] ∧
    (after (.podStateSet pf 1) (inPod 0)).out = [] := by decide +kernel
/-- A member that has not committed for 10 ms. -/
theorem test_plan_unreached : planPatience ≤ headDone.aon.clock - headDone.fab.dispatchedAt ∧
    (after (.planLoadComplete 0) { headDone with fab := { headDone.fab with committed := 1 } }).cx.answers.map (·.status) = [ST_ACCEPTED, ST_UNREACHED] := by
  decide +kernel
/-- A port with a direct flit that has not been acknowledged. -/
def busyPort : State := ported.setLink 0 fun x => { x with replay := [leBytes 8 (2 ^ 62 + 7 * 2 ^ 59) ++ zeros 248] }
theorem test_port_removing : busyPort.portQuiet ⟨1, 1, false, [], [], 0, []⟩ = false ∧
    (after (.portRemove pf 0) busyPort).fab.ports.map (fun p => p.2.removing) = [true] := by decide +kernel
/-- R471, R541: versions that do not agree; a retransmission counts the eighth time; a link failed for 24 h is retired. -/
def longFailed : State :=
  let s := svc.setLink 17 fun x => { x with state := .failed, failedSince := 1, failedFrom := some 0 }
  { s with aon := { s.aon with clock := 86400000000000 } }
theorem test_link_clauses : (inPod 0).linkVerdict 0 { ident with lowest := 4 } = .mgmtOnly ∧
    after (.linkRetrain 0 1) ((inPod 0).setLink 0 fun x => { x with sameRetries := 7 }) = (inPod 0).setLink 0 (fun x => { x with sameRetries := 7 }) ∧
    ((after (.linkRetrain 0 1) ((inPod 0).setLink 0 fun x => { x with sameRetries := 8 })).link 0).state = .training ∧
    ((after (.linkRetryTimer 17) longFailed).link 17).retired = true ∧ longFailed.supervisorRuns = true := by decide +kernel
/-- R205: a member that was lost is asked for its mirror before it is admitted. -/
def backAgain : State := { alone with fab := { alone.fab with unrefreshed := 2 } }
theorem test_mirror_asked : bit backAgain.fab.unrefreshed 1 = true ∧ (after (.heartbeatReceive 1 5) backAgain).fab.members = 1 ∧
    (after (.heartbeatReceive 1 5) backAgain).out.any (fun o => o == .packet 1 0 .mirrorAsk) = true ∧
    (after (.heartbeatReceive 1 5) (inPod 0)).fab.members = 3 := by decide +kernel
/-! ## Clauses of power, firmware, complexes, the log and mailboxes (R12, R113–R125, R510–R537, R549–R564) -/

/-- R512, R519, R533: with coolant too warm a cap does not raise the quota; a cooler module's trim falls. -/
def warm : State := { svc with pwr := { svc.pwr with matched := true, coolant := 75, q := 5, trim := 800, overCount := 1 } }
theorem test_cap_when_warm : (after (.capSet pf 3600) warm).pwr.q = min 5 (qFloor 3600) ∧ 800 * 30 < 98 * warm.liveLimit ∧
    (after (.governorTrim 30) warm).pwr.trim = 720 ∧ (after (.governorTrim 30) warm).pwr.overCount = 0 := by decide +kernel
/-- R309, R523: a droop clamp halves an allowance, and an unwarned DRAIN leaves none. -/
theorem test_allowance_clamped : ((after (.allowanceWindowStart 511 [0]) drooping).core 511).allowance = 32 ∧
    ((after (.allowanceWindowStart 511 [0]) { svc with pp := { svc.pp with state := .drain } }).core 511).allowance = 0 := by decide +kernel
/-- R525: more than 10 ms of clamps within the second leave one record. -/
def longClamp : State := (svc.setDiePower 7 fun x => { x with
  droop := true, droopSince := 1000000000, lastLow := 1000000000, droopSecond := 1, droopTime := 0, droopRecorded := false })
def longAt (t : Nat) : State := { longClamp with aon := { longClamp.aon with clock := t } }
theorem test_droop_recorded : (after (.droopRelease 7) (longAt 1010000001)).aon.intake.map (·.code) = [0x0208] ∧
    ((after (.droopRelease 7) (longAt 1010000001)).diePower 7).droopRecorded = true ∧
    (after (.droopRelease 7) (longAt 1010000000)).aon.intake = [] := by decide +kernel
/-- R508: a command that the guard lets through does nothing under a governor clamp. -/
theorem test_guard_clamped : let s := after .governorClamp svc
    s.masterRuns 3 = true ∧ s.guardRefuses 7 (.namePoint 15) = false ∧ after (.regulatorCommand 3 7 (.namePoint 15)) s = s := by decide +kernel
/-- R528, R529: the eighth phase of a die that fails; the second of a memory rail. -/
def phased : State := svc.setDiePower 7 fun x => { x with phasesOut := List.range 8 }
theorem test_phase_retires : (phased.diePower 7).phases = 8 ∧ (after (.phaseFailure 7 15) phased).rel.retired.contains (.die 7) = true ∧
    ((after (.phaseFailure 7 15) { phased with cx := { phased.cx with adopting := true } }).diePower 7).currentCeil = 0 ∧
    tabGet 0 (after (.phaseFailure 23 0) svc).pwr.railPhases 23 = 1 ∧
    (railUnits 23).all (after (.phaseFailure 23 1) (after (.phaseFailure 23 0) svc)).rel.retired.contains = true := by decide +kernel
/-- R532: the ceiling of a die that warms begins with a record. -/
theorem test_ceiling_recorded : hottest [1600] = some 1600 ∧ hottest [1600, 80] = some 1600 ∧ thermalCeiling 1600 < 1536 ∧
    (after (.thermalSample 7 [1600] [0]) svc).aon.intake.map (·.code) = [0x0208] ∧
    (after (.thermalSample 7 [1440] [0]) svc).aon.intake = [] := by decide +kernel
/-- R533, R537: the inlet above 40 °C is recorded once in a minute. -/
theorem test_inlet_recorded : (after (.coolantSample 641 641 3000) svc).aon.intake.map (·.code) = [0x0209] ∧
    (after (.coolantSample 641 641 3000) (after (.coolantSample 641 641 3000) svc)).aon.intake.length = 1 ∧
    (after (.coolantSample 640 640 3000) svc).aon.intake = [] := by decide +kernel

/-- R562: a set that cannot be read, and one that does not pass. -/
theorem test_stage_ends : fwStaging.bufferData 0 .poisoned ≠ .ok [] ∧
    (after (.fwStageComplete 0 (.failed 1 2)) fwStaging).cx.answers.map (·.status) = [ST_ACCEPTED, ST_HOSTIO] ∧
    fwStaging.stageStatus (setBytes (zeros 64)) ≠ ST_OK ∧
    (after (.fwStageComplete 0 (.ok (zeros 64))) fwStaging).cx.answers.map (·.status) =
      [ST_ACCEPTED, fwStaging.stageStatus (setBytes (zeros 64))] := by decide +kernel
/-- R115: an adoption sends the reply that was committed and not sent. -/
def unreplied : State := 
  { adoptingNow with cx := { adoptingNow.cx with journal := [⟨0, pf, 1, none, true, false, ST_OK, [7]⟩] } }
theorem test_adoption_replies : unreplied.cx.adopting = true ∧ unreplied.cx.waiting = [] ∧
    (after (.adoption ⟨true, []⟩) unreplied).cx.answers = [⟨.host 0, 2, 1, pf, ST_OK, [7]⟩] := by decide +kernel
theorem test_standby_stays : ((after (.standbyRestart false) single).complex 1) = .heldInReset ∧ (svc.complex 1) = .standby ∧
    (after .standbyComplexFailure svc).cx.standbyReady = false := by decide +kernel
/-- R546, R550: a record as severe as the setting asks is told to the BMC in STANDBY, and else raises vector 3 of the PF. -/
def severe (m : ModuleState) : State := { inState m with aon := { svc.aon with intake := [{ record with severity := 4 }] } }
theorem test_severe_record : (svc.setting 8 ≤ 4) ∧ (after .cometRecordWrite (severe .standby)).out = [.mctp (cometBytes { record with severity := 4 })] ∧
    (after .cometRecordWrite ((severe .service).setFn 0 fun h => { h with vecs := List.replicate 4 ⟨64, 9, false, false⟩ })).out = [.msix 0 3 0 64 9] := by decide +kernel
/-- R12: a claim of one byte of the lock register of an owned channel; R127: what ends on channel 523 goes to the BMC. -/
theorem test_claim_byte : (after (.lockClaim bySup ⟨511, 1, 1⟩) claimed).out.head? = some (.readData 2 (masterOf 255 / 256)) := by decide +kernel
/-! ## Clauses of blocks, weights, streams, upkeep and reads (R12, R149, R157, R363–R385, R445–R449, R492–R495) -/

/-- R371, R372, R378: no pool, a block named by another context, and a count that would pass 65,535. -/
def poolless : State := { moving alloc1 with kv := { (moving alloc1).kv with pools := [] } }
theorem test_alloc_refused : (after (.alloc 0 0) poolless).step? 64 0 ≠ poolless.step? 64 0 ∧
    (State.kvList (step1 (moving alloc1)) 3 65535 0 [1] (moving alloc1)).isLeft = true ∧
    (State.kvList { step1 (moving alloc1) with ctag := 1 } 2 0 0 [1] (moving alloc1)).isLeft = true := by decide +kernel
/-- R375: a row of another member's block is asked for; answered, it is written; refused, the step ends. -/
def farRow : State := { moving (copyBytes 0x10) with
  mem := (moving (copyBytes 0x10)).mem.writeN 0x10021000 (leBytes 4 1 ++ leBytes 4 65)
  fab := (inPod 0).fab }
def rowAsked : State := after (.gather 0 0) farRow
def rowAnswered (a : RemoteAns) : State := rowAsked.takeAnswer (farRow.itemTag ⟨0, 16⟩ 0) a
theorem test_gather_far : farRow.elsewhere ⟨1, 1, true, false⟩ = true ∧ farRow.adjacent 1 = true ∧
    (rowAsked.itemsOf ⟨0, 16⟩ (desc 16 (copyBytes 0x10))).map (fun y => (y.row, y.answer.isSome)) = [(0, false)] ∧
    (rowAsked.engine 0 16).inHand = some (desc 16 (copyBytes 0x10)) ∧ after (.gather 0 0) rowAsked = rowAsked := by decide +kernel
theorem test_gather_answered : let t := after (.gather 0 0) (rowAnswered ⟨ST_OK, 0, 0, 0, 0, 0, count 64⟩)
    t.mem.readN 0x10010000 3 = [1, 2, 3] ∧ (t.engine 0 16).inHand = none := by decide +kernel
/-- R445: GATE finds its table full. -/
theorem test_gate_full : let s := (modelled gateBytes 2).setDie 0 fun x => { x with gates := List.replicate 512 (desc 16 gateBytes) }
    512 ≤ (s.die 0).gates.length ∧ after (.gate 0 0) s = s := by decide +kernel
/-- R447: WLOAD of a layer that its step's mark has passed is refused. -/
def passedMark : State := (modelled wloadBytes 1).setCore 4 fun c => { c with mark := 1 }
theorem test_wload_refused : (passedMark.core 4).mark = 1 ∧ (after (.wload 0 0) passedMark).mem.readN 0x10012000 3 = passedMark.mem.readN 0x10012000 3 ∧
    (after (.wload 0 0) passedMark).step? 64 0 ≠ passedMark.step? 64 0 := by decide +kernel
/-- R492: a SEND to another member, and its acknowledgement. -/
def toMember : List Byte := hdr 5 0x15 64 ++ leBytes 8 0x10000 ++ leBytes 8 0x12000 ++ leBytes 4 64 ++ zeros 4 ++ [1, 1, 0, 0, 0] ++ zeros 19
def sending : State := { moving toMember with fab := (inPod 0).fab }
def sentFar : State := after (.sendRemoteWrite 0 0) sending
theorem test_send_far : (sendDesc (desc 16 toMember)).device = 1 ∧ sendOk (desc 16 toMember) (sendDesc (desc 16 toMember)) = true ∧
    sending.reaches 1 = true ∧ (sentFar.engine 0 16).inHand = some (desc 16 toMember) ∧ after (.sendRemoteWrite 0 0) sentFar = sentFar ∧
    ((after (.sendRemoteWrite 0 0) (sentFar.takeAnswer (sending.itemTag ⟨0, 16⟩ 0) (kvNo ST_OK 0))).engine 0 16).inHand = none := by decide +kernel
/-- R494, R495: REDUCE waits for member 1's stream; one too long is malformed. -/
def unreduced : State := reducing.setEngine 0 24 fun x => { x with ingress := [] }
def overlong : State := reducing.setEngine 0 24 fun x => { x with ingress := [{ chunk 1 with bytes := zeros 257 }] }
theorem test_reduce_waits : ((after (.reduce 0 0) unreduced).engine 0 24).inHand = some (desc 24 reduceBytes) ∧
    after (.reduce 0 0) (after (.reduce 0 0) unreduced) = after (.reduce 0 0) unreduced ∧
    ((after (.reduce 0 0) overlong).engine 0 24).ingress = [] := by decide +kernel
/-- R363, R382: a move that has failed twice is abandoned, one outside SERVICE too, and a block lost meanwhile is recorded. -/
theorem test_move_ends : let b := { block with moving := true, moveFrame := 1, putGen := 1 }
    ((after (.tierMoveCommit 0 1) (partnered [(1, 0, 2)] b)).pool? 0).map (fun p => (p.moves, (p.record 1).moving)) = some ([], false) ∧
    ((after (.tierMoveCommit 0 1) { partnered [(1, 0, 0)] b with pp := (inState .drain).pp }).pool? 0).map (·.moves) = some [] ∧
    ((after (.tierMoveCommit 0 1) { partnered [(1, 0, 0)] b with mem := { (partnered [(1, 0, 0)] b).mem with poison := [block.framePa / 64] } }).pool? 0).map
      (fun p => (p.record 1).state) = some .lost := by decide +kernel
/-- R12: a narrow read brings the bytes that it addresses. -/
theorem test_narrow_read : svc.readBytes byVf 0 0x2A 1 = svc.readBar byVf 0 0x28 / 65536 % 256 ∧ svc.readBytes byVf 0 0x2A 1 = 255 := by decide +kernel
/-- R147, R154: behind a command that waits another is held; a deferred one that is forwarded counts too. -/
def waitingCmd : State := { invalidating with cx := { invalidating.cx with waiting := [⟨9, pf, .rangeInvalidateAll 0⟩] } }
theorem test_command_held : waitingCmd.channelWaits (.host 0) = true ∧ (after (.capsQuery pf 28) waitingCmd).cx.held.map (·.cmd) = [.capsQuery 28] := by
  decide +kernel
theorem test_forward_busy : let s := { inPod 0 with fab := { (inPod 0).fab with forwardedCmds := List.replicate 16 ⟨1, 0, pf, 0x0803, true⟩ } }
    s.deferredOf (.host 0) = 16 ∧ (after (.fwActivate { pf with target := 1 }) s).cx.answers.map (·.status) = [ST_BUSY] := by decide +kernel

end Sys2Proof.Tests
end

section
/-! PROOFS. A change of VAUX and its goodness (R45, R56, R58): the module is told of a change by a record, and of nothing else. -/

namespace Sys2Proof.Machine

/-- The state once VAUX at `mv` has ceased to be good: the power path's account of it, and record 0x0107. -/
def State.vauxLost (s : State) (mv : Nat) : State :=
  { s with pp := { s.pp with vauxGood := false, vauxMv := mv, vauxCeasedAt := s.aon.clock } }.comet 0x0107 2 s.aon.lead none [mv]

/-- The state once VAUX at `mv` is good again: the power path's account of it, and record 0x0108. -/
def State.vauxBack (s : State) (mv : Nat) : State :=
  { s with pp := { s.pp with vauxGood := true, vauxMv := mv } }.comet 0x0108 1 s.aon.lead none [mv]

/-- That VAUX ceases to be good is seen by a powered always-on domain to which VAUX was good, at a voltage outside R45's range. -/
theorem exec_vauxCeasesGood (mv : Nat) (s : State) :
    exec (.vauxCeasesGood mv) s = .next
      (if s.pp.aonPowered = true ∧ s.pp.vauxGood = true ∧ (mv < 10800 ∨ 13200 < mv) then s.vauxLost mv else s) := by
  change execVauxCeasesGood mv s = _
  simp only [execVauxCeasesGood, State.vauxLost, Bool.and_eq_true, decide_eq_true_eq, and_assoc]

/-- That VAUX is good again is seen by a powered always-on domain to which VAUX was not good, at a voltage within R45's range. -/
theorem exec_vauxGoodAgain (mv : Nat) (s : State) :
    exec (.vauxGoodAgain mv) s = .next
      (if s.pp.aonPowered = true ∧ s.pp.vauxGood = false ∧ 10800 ≤ mv ∧ mv ≤ 13200 then s.vauxBack mv else s) := by
  change execVauxGoodAgain mv s = _
  simp only [execVauxGoodAgain, State.vauxBack, Bool.and_eq_true, Bool.not_eq_true', decide_eq_true_eq, and_assoc]

/-- A record is posted to the always-on domain's log and reaches no other part of the state. -/
theorem State.comet_frame (s : State) (c v i : Nat) (t : Option Nat) (p : List Nat) :
    s.comet c v i t p = { s with aon := (s.comet c v i t p).aon } := rfl

theorem State.vauxLost_frame (s : State) (mv : Nat) :
    s.vauxLost mv = { s with
      aon := (s.vauxLost mv).aon
      pp := { s.pp with
        vauxGood := (s.vauxLost mv).pp.vauxGood, vauxMv := (s.vauxLost mv).pp.vauxMv
        vauxCeasedAt := (s.vauxLost mv).pp.vauxCeasedAt } } :=
  State.comet_frame ..

theorem State.vauxBack_frame (s : State) (mv : Nat) :
    s.vauxBack mv = { s with
      aon := (s.vauxBack mv).aon
      pp := { s.pp with vauxGood := (s.vauxBack mv).pp.vauxGood, vauxMv := (s.vauxBack mv).pp.vauxMv } } :=
  State.comet_frame ..

/-- Settles O56: a change that is seen writes VAUX's own fields and a record, and one that is not seen leaves the state as it was. -/
theorem vauxChangesNoModuleState : Obligations.VauxChangesNoModuleState := by
  intro s mv
  constructor
  · refine ⟨_, exec_vauxCeasesGood mv s, ?_, fun hpowered hgood hmv => if_pos ⟨hpowered, hgood, hmv⟩⟩
    split
    · exact s.vauxLost_frame mv
    · rfl
  · refine ⟨_, exec_vauxGoodAgain mv s, ?_, fun hpowered hbad hlow hhigh => if_pos ⟨hpowered, hbad, hlow, hhigh⟩⟩
    split
    · exact s.vauxBack_frame mv
    · rfl

end Sys2Proof.Machine
end

section
/-! PROOFS. How a Phoger command is checked, in order, and how many deferred ones a sender may have outstanding (R149, R151, R154, R157). -/

namespace Sys2Proof.Machine

/-! ### What counts toward the 16 of R154 -/

/-- The commands that R154 counts: deferred ones accepted here, and those forwarded to a member. -/
def State.outstandingCmds (s : State) : List Deferred × List Forwarded := (s.cx.deferred, s.fab.forwardedCmds)

/-- A sender's count depends on the outstanding commands alone. -/
theorem State.deferredOf_congr {s t : State} (h : t.outstandingCmds = s.outstandingCmds) (x : Sender) : t.deferredOf x = s.deferredOf x := by
  obtain ⟨hd, hf⟩ := Prod.mk.inj (show (_, _) = (_, _) from h)
  rw [State.deferredOf, State.deferredOf, hd, hf]

/-! Sends on the fabric. -/

theorem pumpLink_outstandingCmds (l n : Nat) : ∀ s : State, (State.pumpLink l n s).outstandingCmds = s.outstandingCmds := by
  induction n with
  | zero => intro s; rfl
  | succ n ih =>
    intro s
    unfold State.pumpLink
    split
    · rfl
    · exact ih _

theorem State.toLink_outstandingCmds (s : State) (l vc n : Nat) (b : List Byte) : (s.toLink l vc n b).outstandingCmds = s.outstandingCmds := by
  unfold State.toLink
  dsimp only
  split
  · exact pumpLink_outstandingCmds _ _ _
  · rfl

theorem State.forwardAt_outstandingCmds (s : State) (h i : Nat) : (s.forwardAt h i).outstandingCmds = s.outstandingCmds := by
  unfold State.forwardAt
  repeat' split
  · rfl
  · rfl
  · rfl
  · exact State.toLink_outstandingCmds _ _ _ _ _

theorem State.dealOne_outstandingCmds {s t : State} {m : DirectMsg} (h : s.dealOne m = some t) : t.outstandingCmds = s.outstandingCmds := by
  obtain ⟨p, _, hp⟩ := List.exists_of_findSome?_eq_some h
  obtain ⟨l, _, rfl⟩ := Option.map_eq_some_iff.mp hp
  exact State.toLink_outstandingCmds _ _ _ _ _

theorem dealAll_outstandingCmds (l : List DirectMsg) : ∀ left (s : State), (dealAll l left s).outstandingCmds = s.outstandingCmds := by
  induction l with
  | nil => intro _ s; rfl
  | cons m r ih =>
    intro left s
    unfold dealAll
    split
    · exact ih _ _
    · split
      · next h => exact (ih _ _).trans (State.dealOne_outstandingCmds h)
      · exact ih _ _

/-- A packet that leaves is no command forwarded: the head notes that itself. -/
theorem State.send_outstandingCmds (s : State) (dest vc : Nat) (p : Packet) : (s.send dest vc p).outstandingCmds = s.outstandingCmds := by
  unfold State.send
  split
  · exact State.forwardAt_outstandingCmds _ _ _
  · exact dealAll_outstandingCmds _ _ _

/-! The effects of deferred commands up to their acceptance. -/

theorem State.askBuffer_outstandingCmds (s : State) (f : Nat) (b : Hbuf) : (s.askBuffer f b).outstandingCmds = s.outstandingCmds := by
  unfold State.askBuffer
  split <;> rfl

theorem State.abandonMove_outstandingCmds (s : State) (p r : Nat) : (s.abandonMove p r).outstandingCmds = s.outstandingCmds := by
  unfold State.abandonMove
  split
  · rfl
  · dsimp only
    split <;> rfl

theorem State.destroyKv_outstandingCmds (s : State) (ctag : Nat) : (s.destroyKv ctag).outstandingCmds = s.outstandingCmds := by
  unfold State.destroyKv
  refine (forEach_frame State.outstandingCmds _ (fun t (o : Offer) => t.endOffer o.number) (fun _ _ => rfl) _).trans ?_
  exact forEach_frame State.outstandingCmds _ (fun t (m : Nat × Nat) => t.abandonMove m.1 m.2) (fun _ _ => State.abandonMove_outstandingCmds ..) s

theorem State.mirrorOut_outstandingCmds (s : State) (q : Nat) : (s.mirrorOut q).outstandingCmds = s.outstandingCmds := by
  unfold State.mirrorOut
  split
  · rfl
  · exact s.send_outstandingCmds _ _ _

theorem State.markDying_outstandingCmds (s : State) (ctag : Nat) : (s.markDying ctag).outstandingCmds = s.outstandingCmds := by
  unfold State.markDying
  refine (forEach_frame State.outstandingCmds _ _ (fun t g => ?_) _).trans (State.destroyKv_outstandingCmds _ _)
  exact forEach_frame State.outstandingCmds _ _ State.mirrorOut_outstandingCmds t

theorem State.forwardSwitch_outstandingCmds (s : State) (m : Nat) : (s.forwardSwitch m).outstandingCmds = s.outstandingCmds := by
  unfold State.forwardSwitch
  split
  · rfl
  · exact State.send_outstandingCmds _ _ _ _

theorem State.takeSwitch_outstandingCmds (s : State) (n e : Nat) : (s.takeSwitch n e).outstandingCmds = s.outstandingCmds := by
  unfold State.takeSwitch
  dsimp only
  split <;> rfl

/-- What a command comes to keeps the outstanding commands where it is accepted: it joins them by its acceptance alone. -/
def CmdRes.keepsOutstanding (s : State) (r : CmdRes) : Prop :=
  match r with
  | .accept u => u.outstandingCmds = s.outstandingCmds
  | _ => True

theorem cmdEpochCommit_keepsOutstanding (n e : Nat) (s : State) : (cmdEpochCommit n e s).keepsOutstanding s := by
  unfold cmdEpochCommit
  split
  · trivial
  split
  · trivial
  have sent (t : State) : (forEach s.otherMembers t fun s d => s.forwardSwitch d).outstandingCmds = t.outstandingCmds :=
    forEach_frame State.outstandingCmds _ _ State.forwardSwitch_outstandingCmds t
  dsimp only [CmdRes.keepsOutstanding]
  split
  · exact (State.askBuffer_outstandingCmds _ _ _).trans ((State.takeSwitch_outstandingCmds _ _ _).trans (sent _))
  · exact (State.takeSwitch_outstandingCmds _ _ _).trans (sent _)

theorem cmdCtxDestroy_keepsOutstanding (h : CmdHdr) (t : Nat) (s : State) : (cmdCtxDestroy h t s).keepsOutstanding s := by
  unfold cmdCtxDestroy
  split
  · trivial
  · exact s.markDying_outstandingCmds t

/-- An enrolment or removal is done or refused, whatever the signature's check comes to. -/
theorem cmdSitekeyEnrol_keepsOutstanding (a : Nat) (k g : List Byte) (s : State) : (cmdSitekeyEnrol a k g s).keepsOutstanding s := by
  unfold cmdSitekeyEnrol
  generalize ecdsaOk Config.ersovikKey (leBytes 8 s.cfg.serial) g = removal
  split
  · split <;> trivial
  next old _ =>
    generalize ecdsaOk old k g = replacement
    repeat' split
    all_goals trivial

/-- The own checks and effect of any command keep the outstanding ones: of the commands that are accepted, only a context's destruction
and an epoch's commit send on the way, and the others accept a state that differs in neither count. -/
theorem cmdEffect_keepsOutstanding (h : CmdHdr) (c : Command) (s : State) : (cmdEffect h c s).keepsOutstanding s := by
  cases c with
  | sitekeyEnrol a k g => exact cmdSitekeyEnrol_keepsOutstanding a k g s
  | epochCommit n e => exact cmdEpochCommit_keepsOutstanding n e s
  | ctxDestroy t => exact cmdCtxDestroy_keepsOutstanding h t s
  | _ =>
    simp only [cmdEffect, cmdCapsQuery, cmdSettingRead, cmdSettingWrite, cmdSitelayerWrite, cmdModuleSuspend,
      cmdModuleResume, cmdModuleStop, cmdModuleStart, cmdModuleReset, cmdDieReset, cmdMemGrant, cmdMemRevoke, cmdCtxCreate,
      cmdRangeMap, cmdRangeInvalidateAll, cmdKeySlotSet, cmdStepResume, cmdStepAbort, cmdQgroupAssign, cmdQgroupRelease,
      cmdQueueConfigure, cmdProgramLoad, cmdProgramUnload, cmdPoolCreate, cmdPoolDestroy, cmdKvOffer, kvOffer, kvCancel,
      State.offerRefused, cmdKvAccept, cmdKvHint, cmdEpochBegin, cmdEpochAbort, cmdAdapterLoad, cmdAdapterUnload,
      cmdPlacementApply, cmdPlanLoad, cmdPortDefine, cmdPortRemove, cmdPodStateSet, cmdCapSet, cmdMatchedSet, cmdLogRead,
      cmdDumpRegionSet, cmdFwStage, cmdFwActivate]
    repeat' split
    all_goals trivial

/-! ### What a command that is taken comes to -/

/-- Every Phoger command of the block is its command, run by the checks of its own and its effect. -/
theorem exec_of_phoger {i : Instr} {h : CmdHdr} {c : Command} (hi : i.phoger = some (h, c)) (s : State) :
    exec i s = .next (s.command h c (cmdEffect h c)) := by
  cases i
  all_goals cases hi
  all_goals rfl

section Taken

variable {s : State} {h : CmdHdr} {c : Command}

/-- A command whose sender's messages are taken does not reach the management endpoint (R148). -/
theorem State.command_of_takes (ht : s.takes h.sender (cmdAny c) = true) (hg : h.sender ≠ .gone) (eff : State → CmdRes) :
    s.command h c eff = if s.channelWaits h.sender then s.holdCmd h c else s.judgeCmd h c eff := by
  have hs : ¬((s.pp.state = .standby ∨ s.pp.state = .mgmtOnly) ∧ h.sender = .bmc) := by
    rintro ⟨hp | hp, _⟩ <;> simp [State.takes, hp] at ht
  have hg' : (h.sender == Sender.gone) = false := by simpa using hg
  simp [State.command, State.runCmd, hs, ht, hg']

/-- Checks 1 to 6: the first that fails gives the status. -/
theorem State.judgeCmd_of_fails {st : Nat} (hc : s.checkSender h c = some st) (eff : State → CmdRes) :
    s.judgeCmd h c eff = s.refuseCmd h c st := by
  simp only [State.judgeCmd, hc]

theorem State.judgeCmd_of_far (hc : s.checkSender h c = none) (hf : s.isSelf h.target = false) (eff : State → CmdRes) :
    s.judgeCmd h c eff = s.forwardCmd h c := by
  simp [State.judgeCmd, hc, hf]

theorem State.judgeCmd_of_state (hc : s.checkSender h c = none) (hf : s.isSelf h.target = true) (hs : s.checkState c = false)
    (eff : State → CmdRes) : s.judgeCmd h c eff = s.refuseCmd h c ST_STATE := by
  simp [State.judgeCmd, hc, hf, hs]

/-! Check 10, here and at the head of a forwarded command. -/

theorem State.settleCmd_accept_busy (u : State) (n : 16 ≤ s.deferredOf h.sender) :
    s.settleCmd h c (.accept u) = s.refuseCmd h c ST_BUSY := if_pos n

theorem State.forwardCmd_of_busy (hd : deferredOps.contains (cmdOpcode c) = true) (n : 16 ≤ s.deferredOf h.sender) :
    s.forwardCmd h c = s.refuseCmd h c ST_BUSY := if_pos ⟨hd, n⟩

/-- The head's note of a command that it has forwarded (R157). -/
def forwardNote (h : CmdHdr) (c : Command) : Forwarded := ⟨h.target, relayFn h.sender, h, cmdOpcode c, false⟩

/-- The state once a command's message has left for the member that it names. -/
def State.relayCmd (s : State) (h : CmdHdr) (c : Command) : State :=
  (s.journal h (cmdOpcode c) (some c) true ST_ACCEPTED []).send h.target 3 (.command (relayFn h.sender) (cmdMessage h c))

/-- The state once a command has left and is noted, after those forwarded before it. -/
def State.noteRelayed (s : State) (h : CmdHdr) (c : Command) : State :=
  { s.relayCmd h c with fab := { (s.relayCmd h c).fab with forwardedCmds := s.fab.forwardedCmds ++ [forwardNote h c] } }

theorem State.relayCmd_outstandingCmds : (s.relayCmd h c).outstandingCmds = s.outstandingCmds := State.send_outstandingCmds _ _ _ _

theorem State.noteRelayed_outstandingCmds :
    (s.noteRelayed h c).outstandingCmds = (s.cx.deferred, s.fab.forwardedCmds ++ [forwardNote h c]) :=
  congrArg (Prod.mk · _) (congrArg Prod.fst State.relayCmd_outstandingCmds)

theorem State.forwardCmd_of_room (n : deferredOps.contains (cmdOpcode c) = false ∨ s.deferredOf h.sender < 16) :
    s.forwardCmd h c = s.noteRelayed h c := by
  have hn : ¬(deferredOps.contains (cmdOpcode c) = true ∧ 16 ≤ s.deferredOf h.sender) := by
    rintro ⟨hd, hb⟩
    rcases n with n | n
    · exact Bool.false_ne_true (n.symm.trans hd)
    · omega
  have hf : (s.relayCmd h c).fab.forwardedCmds = s.fab.forwardedCmds := congrArg Prod.snd State.relayCmd_outstandingCmds
  rw [State.noteRelayed, ← hf]
  exact if_neg hn

/-- One more deferred command accepted is one more outstanding. -/
theorem State.deferredOf_of_accepted {t : State} {id : Nat}
    (e : t.outstandingCmds = (s.cx.deferred ++ [Deferred.mk id h c], s.fab.forwardedCmds)) :
    t.deferredOf h.sender = s.deferredOf h.sender + 1 := by
  obtain ⟨hd, hf⟩ := Prod.mk.inj (show (_, _) = (_, _) from e)
  simp only [State.deferredOf, hd, hf, List.filter_append, List.length_append, List.filter_cons, beq_self_eq_true, if_true, List.filter_nil,
    List.length_singleton]
  omega

/-- One more deferred command forwarded is one more outstanding. -/
theorem State.deferredOf_of_forwarded {t : State} (hd : deferredOps.contains (cmdOpcode c) = true)
    (e : t.outstandingCmds = (s.cx.deferred, s.fab.forwardedCmds ++ [forwardNote h c])) :
    t.deferredOf h.sender = s.deferredOf h.sender + 1 := by
  obtain ⟨hc, hf⟩ := Prod.mk.inj (show (_, _) = (_, _) from e)
  simp [State.deferredOf, hc, hf, forwardNote, List.filter_append, -List.contains_eq_mem, hd, Nat.add_assoc]

theorem State.answer_outstandingCmds (op k st : Nat) (p : List Byte) : (s.answer h op k st p).outstandingCmds = s.outstandingCmds := by
  unfold State.answer
  split <;> rfl

theorem State.acceptCmd_outstandingCmds : (s.acceptCmd h c).outstandingCmds =
    (s.cx.deferred ++ [Deferred.mk s.cx.nextId h c], s.fab.forwardedCmds) := by
  rw [State.acceptCmd, State.outstandingCmds, State.askFor_cx, State.askFor_fab]
  exact State.answer_outstandingCmds _ _ _ _

theorem State.acceptCmd_deferredOf {u : State} (e : cmdEffect h c s = .accept u) :
    (u.acceptCmd h c).deferredOf h.sender = s.deferredOf h.sender + 1 := by
  have hu : u.outstandingCmds = s.outstandingCmds := by
    simpa only [e, CmdRes.keepsOutstanding] using cmdEffect_keepsOutstanding h c s
  rw [State.deferredOf_of_accepted State.acceptCmd_outstandingCmds, State.deferredOf_congr hu]

/-- A refusal writes the journal and an answer (R115, R151). -/
theorem State.refuseCmd_sameButCx (st : Nat) : (s.refuseCmd h c st).sameButCx s := by
  unfold State.refuseCmd State.refuseAs State.answer
  split <;> rfl

theorem State.refuseCmd_outstandingCmds (st : Nat) : (s.refuseCmd h c st).outstandingCmds = s.outstandingCmds :=
  State.answer_outstandingCmds _ _ _ _

theorem State.refuseCmd_answers (hg : h.sender ≠ .gone) (st : Nat) :
    (s.refuseCmd h c st).cx.answers = s.cx.answers ++ [Answer.mk h.sender 2 (cmdOpcode c) h st []] :=
  State.answers_answer hg _ _ _ _

end Taken

/-- Settles O57: a command that is taken is held or judged, each check in its order has a lemma of its own, and what a sender has
outstanding grows by the one command accepted or forwarded, since no effect or send on the way touches what R154 counts. -/
theorem commandsAreCheckedAndLimited : Obligations.CommandsAreCheckedAndLimited := by
  intro i s h c hi ht hg
  have run : exec i s = .next (if s.channelWaits h.sender then s.holdCmd h c else s.judgeCmd h c (cmdEffect h c)) := by
    rw [exec_of_phoger hi, State.command_of_takes ht hg]
  refine ⟨fun hw => ⟨by rw [run, if_pos hw], rfl, rfl⟩, fun hw => ?_⟩
  have judged : exec i s = .next (s.judgeCmd h c (cmdEffect h c)) := by rw [run, hw]; rfl
  refine ⟨fun st hc => ?_, fun hc hf => ?_, fun hc hf hs => ?_, fun u ha he => ⟨fun hn => ?_, fun hn => ?_⟩, fun st => ?_⟩
  · rw [judged, State.judgeCmd_of_fails hc]
  · rw [judged, State.judgeCmd_of_far hc hf]
    refine ⟨fun hd hn => by rw [State.forwardCmd_of_busy hd hn], fun hn => ⟨s.noteRelayed h c, s.relayCmd h c, ?_, rfl, rfl, fun hd => ?_⟩⟩
    · rw [State.forwardCmd_of_room hn]
    · exact State.deferredOf_of_forwarded hd State.noteRelayed_outstandingCmds
  · rw [judged, State.judgeCmd_of_state hc hf hs]
  · rw [exec_of_phoger hi, State.command_of_admits ha, he, State.settleCmd_accept_busy u hn]
  · rw [exec_of_phoger hi, State.command_of_admits ha, he, State.settleCmd_accept u hn]
    exact ⟨rfl, State.acceptCmd_deferredOf he⟩
  · exact ⟨State.refuseCmd_sameButCx st, congrArg Prod.fst (State.refuseCmd_outstandingCmds st), State.refuseCmd_answers hg st⟩

end Sys2Proof.Machine
end

section
/-! PROOFS. ALU, LI, CMP and RDID of the control slot: the words that they compute, and the one register that each writes (R246, R249,
R250). -/

namespace Sys2Proof.Machine

/-! ### Signed words and the thirteen functions of ALU -/

theorem toSigned_toNat {n : Nat} (x : BitVec n) : toSigned n x.toNat = x.toInt := by
  have hmsb : bit x.toNat (n - 1) = x.msb := by
    rw [BitVec.msb_eq_getLsbD_last, ← BitVec.testBit_toNat, Nat.testBit_eq_decide_div_mod_eq]
    rfl
  have hmod : (x.toNat : Int) % 2 ^ n = x.toNat := Int.emod_eq_of_lt (Int.natCast_nonneg _) (by exact_mod_cast x.isLt)
  rw [BitVec.toInt_eq_msb_cond, toSigned, hmsb, hmod]
  push_cast
  rfl

theorem ofSigned_eq_toNat_ofInt (n : Nat) (v : Int) : ofSigned n v = (BitVec.ofInt n v).toNat := by
  rw [BitVec.toNat_ofInt, Int.natCast_pow]
  rfl

theorem exists_word {n a : Nat} (h : a < 2 ^ n) : ∃ x : BitVec n, x.toNat = a := ⟨BitVec.ofNatLT a h, BitVec.toNat_ofNatLT a h⟩

section Alu

variable (x y : BitVec 64) {k : Nat}

theorem aluValue_add : aluValue 0 x.toNat y.toNat = some (x + y).toNat := by
  rw [BitVec.toNat_add]
  rfl

theorem aluValue_sub : aluValue 1 x.toNat y.toNat = some (x - y).toNat := by
  have hy := y.isLt
  rw [BitVec.toNat_sub, ← Nat.sub_add_comm (Nat.le_of_lt hy), Nat.add_comm]
  rfl

theorem aluValue_and : aluValue 2 x.toNat y.toNat = some (x &&& y).toNat := by
  rw [BitVec.toNat_and]
  rfl

theorem aluValue_or : aluValue 3 x.toNat y.toNat = some (x ||| y).toNat := by
  rw [BitVec.toNat_or]
  rfl

theorem aluValue_xor : aluValue 4 x.toNat y.toNat = some (x ^^^ y).toNat := by
  rw [BitVec.toNat_xor]
  rfl

theorem aluValue_shl (h : k < 64) : aluValue 5 x.toNat k = some (x <<< k).toNat := by
  rw [BitVec.toNat_shiftLeft, Nat.shiftLeft_eq]
  exact if_pos h

theorem aluValue_shr (h : k < 64) : aluValue 6 x.toNat k = some (x >>> k).toNat := by
  rw [BitVec.toNat_ushiftRight, Nat.shiftRight_eq_div_pow]
  exact if_pos h

theorem aluValue_sar (h : k < 64) : aluValue 7 x.toNat k = some (x.sshiftRight k).toNat := by
  have hdiv : ofSigned 64 (toSigned 64 x.toNat / 2 ^ k) = (x.sshiftRight k).toNat := by
    rw [ofSigned_eq_toNat_ofInt, toSigned_toNat, BitVec.sshiftRight, Int.shiftRight_eq_div_pow]
    push_cast
    rfl
  exact (if_pos h).trans (congrArg some hdiv)

theorem aluValue_mul : aluValue 8 x.toNat y.toNat = some (x * y).toNat := by
  rw [BitVec.toNat_mul]
  rfl

theorem aluValue_min : aluValue 9 x.toNat y.toNat = some (if x.toInt ≤ y.toInt then x.toNat else y.toNat) := by
  rw [← toSigned_toNat x, ← toSigned_toNat y]
  rfl

theorem aluValue_max : aluValue 10 x.toNat y.toNat = some (if x.toInt ≤ y.toInt then y.toNat else x.toNat) := by
  rw [← toSigned_toNat x, ← toSigned_toNat y]
  rfl

end Alu

/-! ### A field of a number replaced, as LI does -/

/-- A number with the `n` bits from `lo` on replaced by those of `f`. -/
def replaceBits (v lo n f : Nat) : Nat := v - bits v lo n * 2 ^ lo + f * 2 ^ lo

section Field

variable {v lo n f m : Nat}

/-- A number is the bits above a field, the field, and the bits below it. -/
theorem bits_split (v lo n : Nat) : (v / 2 ^ (lo + n) * 2 ^ n + bits v lo n) * 2 ^ lo + v % 2 ^ lo = v := by
  rw [Nat.pow_add, ← Nat.div_div_eq_div_mul, bits, Nat.div_add_mod', Nat.div_add_mod']

theorem replaceBits_eq (v lo n f : Nat) :
    replaceBits v lo n f = (v / 2 ^ (lo + n) * 2 ^ n + f) * 2 ^ lo + v % 2 ^ lo := by
  have h := bits_split v lo n
  rw [Nat.add_mul] at h ⊢
  unfold replaceBits
  omega

@[simp] theorem bits_zero (lo n : Nat) : bits 0 lo n = 0 := by simp [bits]

theorem replaceBits_zero : replaceBits 0 lo n f = f * 2 ^ lo := by simp [replaceBits]

theorem replaceBits_div_low : replaceBits v lo n f / 2 ^ lo = v / 2 ^ (lo + n) * 2 ^ n + f := by
  rw [replaceBits_eq, Nat.mul_comm, Nat.mul_add_div (Nat.two_pow_pos _), Nat.div_eq_of_lt (Nat.mod_lt _ (Nat.two_pow_pos _)), Nat.add_zero]

theorem replaceBits_mod_low : replaceBits v lo n f % 2 ^ lo = v % 2 ^ lo := by
  rw [replaceBits_eq, Nat.mul_add_mod', Nat.mod_mod]

theorem replaceBits_div_high (hf : f < 2 ^ n) : replaceBits v lo n f / 2 ^ (lo + n) = v / 2 ^ (lo + n) := by
  rw [Nat.pow_add, ← Nat.div_div_eq_div_mul, replaceBits_div_low, Nat.mul_comm, Nat.mul_add_div (Nat.two_pow_pos _), Nat.div_eq_of_lt hf,
    Nat.add_zero, Nat.pow_add]

theorem bits_replaceBits_self (hf : f < 2 ^ n) : bits (replaceBits v lo n f) lo n = f := by
  rw [bits, replaceBits_div_low, Nat.mul_add_mod', Nat.mod_eq_of_lt hf]

theorem bits_eq_of_mod_eq {u v a w lo : Nat} (h : u % 2 ^ lo = v % 2 ^ lo) (ha : a + w ≤ lo) : bits u a w = bits v a w := by
  have low (z : Nat) : bits z a w = z % 2 ^ lo % 2 ^ (a + w) / 2 ^ a := by
    rw [bits, Nat.mod_mod_of_dvd _ (Nat.pow_dvd_pow 2 ha), Nat.pow_add, Nat.mod_mul_right_div_self]
  rw [low u, low v, h]

theorem bits_eq_of_div_eq {u v a w hi : Nat} (h : u / 2 ^ hi = v / 2 ^ hi) (ha : hi ≤ a) : bits u a w = bits v a w := by
  obtain ⟨d, rfl⟩ := Nat.exists_eq_add_of_le ha
  rw [bits, bits, Nat.pow_add, ← Nat.div_div_eq_div_mul, ← Nat.div_div_eq_div_mul, h]

/-- A field apart from the one replaced keeps its bits. -/
theorem bits_replaceBits_of_apart {a w : Nat} (hf : f < 2 ^ n) (h : a + w ≤ lo ∨ lo + n ≤ a) :
    bits (replaceBits v lo n f) a w = bits v a w := by
  rcases h with h | h
  · exact bits_eq_of_mod_eq replaceBits_mod_low h
  · exact bits_eq_of_div_eq (replaceBits_div_high hf) h

theorem replaceBits_lt (hv : v < 2 ^ m) (hf : f < 2 ^ n) (hm : lo + n ≤ m) : replaceBits v lo n f < 2 ^ m := by
  obtain ⟨d, rfl⟩ := Nat.exists_eq_add_of_le hm
  have key (z : Nat) : z < 2 ^ (lo + n + d) ↔ z / 2 ^ (lo + n) < 2 ^ d := by
    rw [Nat.div_lt_iff_lt_mul (Nat.two_pow_pos _), Nat.pow_add, Nat.mul_comm]
  rw [key] at hv ⊢
  rwa [replaceBits_div_high hf]

end Field

theorem CoreRegs.x?_lt (r : CoreRegs) (i : Nat) : r.x? i < 2 ^ 64 := by
  unfold CoreRegs.x?
  split
  · decide
  · exact BitVec.isLt _

/-! ### One predicate register written -/

/-- A register file after a write of predicate register `i`; p0 stays one (R246). -/
def CoreRegs.wroteP (r r' : CoreRegs) (i : Nat) (v : Bool) : Prop :=
  (i ≠ 0 → r'.p? i = v) ∧ (∀ j, j ≠ i ∨ j = 0 → r'.p? j = r.p? j) ∧ r'.x = r.x ∧ r'.v = r.v

/-- A slot operation has written one predicate register, and nothing else that the spec names. -/
def State.slotP (s t : State) (n i : Nat) (v : Bool) : Prop :=
  s.coreOnly t n ∧ (s.core n).sameButRegs (t.core n) ∧ (s.core n).regs.wroteP (t.core n).regs i v

theorem CoreSt.sameButRegs_trans {x y z : CoreSt} (a : x.sameButRegs y) (b : y.sameButRegs z) : x.sameButRegs z := by
  unfold CoreSt.sameButRegs at a b
  rw [a] at b
  exact b

section Slot

variable {s : State}

/-- A bundle that comes into issue changes its core alone, and none of its registers. -/
theorem State.inIssue_keeps (n : Nat) :
    s.coreOnly (s.inIssue n) n ∧ (s.core n).sameButRegs ((s.inIssue n).core n) ∧ ((s.inIssue n).core n).regs = (s.core n).regs := by
  rw [State.inIssue_core]
  exact ⟨State.coreOnly_setCore n _, rfl, rfl⟩

theorem CoreRegs.wroteP_tabSet (r : CoreRegs) {i : Nat} (hi : i ≠ 0) (v : Bool) : r.wroteP { r with p := tabSet r.p i v } i v := by
  refine ⟨fun _ => by simp [CoreRegs.p?, hi], fun j hj => ?_, rfl, rfl⟩
  rcases Nat.eq_zero_or_pos j with rfl | h0
  · rfl
  · have hne : j ≠ i := hj.resolve_right (Nat.ne_of_gt h0)
    simp [CoreRegs.p?, tabGet_tabSet_of_ne _ _ _ _ _ hne]

theorem State.slotP_setP (n i : Nat) (v : Bool) : s.slotP (s.setP n i v) n i v := by
  unfold State.setP
  split
  · next h => exact ⟨State.coreOnly_refl n, rfl, fun hi => absurd h hi, fun _ _ => rfl, rfl, rfl⟩
  · next hi =>
    rw [State.slotP, State.setCore_core_self]
    exact ⟨State.coreOnly_setCore n _, rfl, CoreRegs.wroteP_tabSet _ hi v⟩

/-- An effect that writes one predicate register of the bundle in issue, retired, has written it and nothing else. -/
theorem State.slotP_retire (n k i : Nat) (m : Bool) (v : Bool) : s.slotP (((s.inIssue n).setP n i v).retireSlot n k m) n i v := by
  obtain ⟨issueOnly, issueSame, issueRegs⟩ := s.inIssue_keeps n
  obtain ⟨setOnly, setSame, setRegs⟩ := (s.inIssue n).slotP_setP n i v
  obtain ⟨retireOnly, retireSame, retireRegs⟩ := ((s.inIssue n).setP n i v).retireSlot_keeps n k m
  refine ⟨State.coreOnly_trans (State.coreOnly_trans issueOnly setOnly) retireOnly,
    CoreSt.sameButRegs_trans (CoreSt.sameButRegs_trans issueSame setSame) retireSame, ?_⟩
  rw [retireRegs, ← issueRegs]
  exact setRegs

/-! ### Operations that end in the write of a register -/

variable {c : SlotCtx} {k : SlotKey} {b : Nat} {eff : State → SlotRes}

/-- A ready operation whose effect writes an x register writes it and nothing else; `u` is the state with the free values that the effect
has drawn. -/
theorem State.slotOp_slotX {u : State} {i v : Nat} (r : s.slotReady c k b)
    (h : eff (s.inIssue c.core) = .done ((u.inIssue c.core).setX c.core i v)) : u.slotX (s.slotOp c k eff) c.core i v := by
  rw [State.slotOp_of_ready r, h]
  exact State.slotX_retire _ _ _ _ _

/-- The same for a predicate register. -/
theorem State.slotOp_slotP {i : Nat} {v : Bool} (r : s.slotReady c k b)
    (h : eff (s.inIssue c.core) = .done ((s.inIssue c.core).setP c.core i v)) : s.slotP (s.slotOp c k eff) c.core i v := by
  rw [State.slotOp_of_ready r, h]
  exact State.slotP_retire _ _ _ _ _

theorem State.inIssue_coreStep? (n : Nat) : (s.inIssue n).coreStep? n = s.coreStep? n := by
  rw [State.coreStep?, State.inIssue_core]
  rfl

theorem State.withStep_of_coreStep? {n : Nat} {t : StepRec} (h : s.coreStep? n = some t) (f : StepRec → SlotRes) :
    s.withStep n f = f t := by
  rw [State.withStep, h]

/-- What RDID reads is not moved by the issue of its bundle. -/
theorem State.inIssue_rdid (n : Nat) (t : StepRec) (w i : Nat) : (s.inIssue n).rdid n t w i = s.rdid n t w i := by
  unfold State.rdid
  rw [State.inIssue_core]
  rfl

/-! ### The four operations -/

variable {dst pd x y : Nat} {u : Bool}

theorem exec_alu_of_value {fn v : Nat} {imm : Int} (r : s.slotReady c (aluKey fn dst x y u imm) b)
    (h : aluValue fn ((s.srcOf c.core).x? x) (operand (s.srcOf c.core) y u (ofSigned 64 imm)) = some v) :
    ∃ t, exec (.alu c fn dst x y u imm) s = .next t ∧ s.slotX t c.core dst v :=
  ⟨_, rfl, State.slotOp_slotX r (by simp only [State.inIssue_srcOf, h])⟩

/-- A shift by 64 or more draws a free value (log entry 17). -/
theorem exec_alu_of_none {fn : Nat} {imm : Int} (r : s.slotReady c (aluKey fn dst x y u imm) b)
    (h : aluValue fn ((s.srcOf c.core).x? x) (operand (s.srcOf c.core) y u (ofSigned 64 imm)) = none) :
    ∃ t, exec (.alu c fn dst x y u imm) s = .next t ∧
      { s with drawn := s.drawn + 1 }.slotX t c.core dst (Config.freeValue s.drawn) :=
  ⟨_, rfl, State.slotOp_slotX r (by simp only [State.inIssue_srcOf, h]; rfl)⟩

/-- LI writes its destination, or zero where it keeps nothing, with one of the four parts replaced. -/
theorem exec_li {p imm : Nat} {keep : Bool} (r : s.slotReady c (liKey dst p keep imm) b) :
    ∃ t, exec (.li c dst p keep imm) s = .next t ∧
      s.slotX t c.core dst (replaceBits (if keep = true then (s.srcOf c.core).x? dst else 0) (16 * p) 16 imm) := by
  refine ⟨_, rfl, State.slotOp_slotX r ?_⟩
  cases keep
  · simp [replaceBits_zero]
  · simp [replaceBits]

theorem exec_cmp {cond imm : Nat} (r : s.slotReady c (cmpKey pd cond x y u imm) b) :
    ∃ t, exec (.cmp c pd cond x y u imm) s = .next t ∧
      s.slotP t c.core pd (cmpHolds cond ((s.srcOf c.core).x? x) (operand (s.srcOf c.core) y u imm)) :=
  ⟨_, rfl, State.slotOp_slotP r (by simp only [State.inIssue_srcOf])⟩

theorem exec_rdid {w i : Nat} {t : StepRec} (r : s.slotReady c (rdidKey dst w i) b) (h : s.coreStep? c.core = some t) :
    ∃ t', exec (.rdid c dst w i) s = .next t' ∧ s.slotX t' c.core dst (s.rdid c.core t w i) := by
  refine ⟨_, rfl, State.slotOp_slotX r ?_⟩
  rw [State.withStep_of_coreStep? (State.inIssue_coreStep? _ ▸ h), State.inIssue_rdid]

end Slot

/-- Settles O38: ALU's functions are those of 64-bit words, and each operation's effect, once its core is ready, is the write of one
register of the bundle in issue. -/
theorem controlArithmetic : Obligations.ControlArithmetic := by
  refine ⟨fun a b ha hb => ?_, fun s c b => ⟨fun fn dst x y u imm v r h => exec_alu_of_value r h, fun fn dst x y u imm r h =>
    exec_alu_of_none r h, fun dst p keep imm r hp himm => ?_, fun pd cond x y u imm r => exec_cmp r, fun dst w i t r h => ?_⟩⟩
  · obtain ⟨x, rfl⟩ := exists_word ha
    obtain ⟨y, rfl⟩ := exists_word hb
    simp only [BitVec.ofNat_toNat, BitVec.setWidth_eq]
    exact ⟨aluValue_add x y, aluValue_sub x y, aluValue_and x y, aluValue_or x y, aluValue_xor x y,
      fun h => ⟨aluValue_shl x h, aluValue_shr x h, aluValue_sar x h⟩, aluValue_mul x y, aluValue_min x y, aluValue_max x y, rfl, rfl⟩
  · obtain ⟨t, run, wrote⟩ := exec_li r
    refine ⟨t, _, run, wrote, bits_replaceBits_self himm, fun q hq hne => ?_, replaceBits_lt ?_ himm (by omega)⟩
    · rw [bits_replaceBits_of_apart himm (by omega)]
      cases keep
      · exact bits_zero _ _
      · rfl
    · split
      · exact CoreRegs.x?_lt _ _
      · decide
  · obtain ⟨t', run, wrote⟩ := exec_rdid r h
    refine ⟨t', _, run, wrote, ?_, ?_, ?_, ?_, ?_, ?_, ?_, ?_, ?_, ?_, ?_⟩ <;> rintro rfl <;> rfl

end Sys2Proof.Machine
end
